-- ==== Sys2Proof/Word.lean ====
section
/-! DEFINITION. The bytes and words of the block's registers, views and stores. -/

namespace Sys2Proof

/-- One byte of a payload, a record or a memory. -/
abbrev Byte := BitVec 8

/-- One 32-bit register or view word (15_host_link R369). -/
abbrev Word := BitVec 32

/-- A byte from a number, modulo 256. -/
abbrev byteOf (n : Nat) : Byte := BitVec.ofNat 8 n

/-- A word from a number, modulo 2^32. -/
abbrev wordOf (n : Nat) : Word := BitVec.ofNat 32 n

end Sys2Proof
end

