-- ==== Sys2Proof/Syntax.lean ====
section
/-! DEFINITION. The commands of the block: one constructor per row of spec/opcode_table.json.
A host-link row carries the framing of its transaction (`Link`) and the bytes after the opcode; a row
that reports a physical event carries what that event delivers. -/

namespace Sys2Proof

/-- The framing of one host-link request (15_host_link R369, R370, R340): the QUAD and SESSION bits,
the four reserved bits 6 and 4:2 as sent, the session trailer when SESSION is set, and the request CRC. -/
structure Link where
  quad    : Bool
  session : Bool
  rsv     : BitVec 4
  trailer : List Byte
  crc     : Word
  deriving DecidableEq, Repr

/-- What one tick delivers from outside (02_lanes R31, 01_archipelago R26, 10_power R236): the 256
modulator bits of each converting lane, oldest in bit 0, the cycles each engine loses to store
contention, VRES in mV, the sampled pads that read low (07 R161, 11 R277): 0 CALSEAL_N, 1 COVER_N, 2 TCOVER_N, 3 MAG_N, 4 SCROLL_N,
16 + 4p + i input i of PULSE port p; and the rising edges of TCK with TMS and TDI (17 R412). -/
structure TickInput where
  bits   : List (Nat × BitVec 256)
  stalls : List (Nat × Nat)
  vres   : Nat
  low    : List Nat
  tck    : List (Bool × Bool)
  deriving DecidableEq, Repr

/-- What the device-level monitors measured over the frame (12 R306): the frame means of VDD33, VDDC,
VDD5P and VBAT in mV, the die temperature in 0.1 degC, the crystal departure of the last whole second
in ppm, and which glitch windows were left within the frame (bits 0-3). -/
structure Monitors where
  vdd33 : Nat
  vddc  : Nat
  vdd5p : Nat
  vbat  : Nat
  die   : Int
  clock : Nat
  glitch : BitVec 4
  deriving DecidableEq, Repr

/-- What the device meets at the release of reset (16 R393): the counted levels of the tamper pins, DBG_EN, the
outcome of the TRNG start-up tests, the time since the latch in 32.768 kHz cycles, whether VDD5P is
valid, VRES in mV, which copies of the last-gasp and periodic saves and of the root shares fail their tile
check (09 R228, 13 R334). -/
structure PowerUpInput where
  calseal  : Bool
  cover    : Bool
  tcover   : Bool
  mag      : Bool
  dbgEn    : Bool
  trngPass : Bool
  outage   : Nat
  vdd5p    : Bool
  vres     : Nat
  badA     : Bool
  badB     : Bool
  badIsles : List Nat
  badGasp  : Bool
  badShare : Bool
  deriving DecidableEq, Repr

/-- The command set: the rows of spec/opcode_table.json in the table's order. -/
inductive Instr where
  | tickBoundary (inp : TickInput)
  | jobCompletion (job : Nat)
  | frameBoundary
  | isleClose (n : Nat)
  | demandSlice (n : Nat)
  | isleEventsSlice (n : Nat)
  | archipelagoEventsSlice (m : Monitors)
  | profileSlice (n : Nat)
  | billingCloseSlice (n : Nat)
  | slewEnd
  /-- `sub`/65,536 of the running tick and the cycle's filtered peak in whole codes, as the tracking filter gives them -/
  | zeroCrossing (s sub peak : Nat)
  | trackingTimeout (s : Nat)
  | windowClose (s : Nat)
  /-- window engine `eng` completes window number `seq` of strait `s` -/
  | windowAnalysis (s eng seq : Nat)
  | halfCycleRefresh (s : Nat)
  | captureComplete (slot : Nat)
  | laneStuck (lane : Nat)
  /-- visit `v` of the rotation cycle ends with the running tick -/
  | ferryVisitEnd (v : Nat)
  | estimatedSpanEnd (lane : Nat)
  | rtdRequest
  | rtdResult
  | rd (l : Link) (addr : Word) (len : Nat)
  | stat (l : Link) (job off len : Nat)
  | hcsNRise (beforeCrc : Bool)
  | registerWrite (l : Link) (addr : Word) (data : List Byte)
  | shWrite (l : Link) (addr : Word) (data : List Byte)
  | lkWrite (l : Link) (addr : Word) (data : List Byte)
  | elmPhaseWrite (l : Link) (e : Nat) (v : Word)
  | isleDemandWrite (l : Link) (n : Nat) (v : Word)
  | isleAlarmWrite (l : Link) (n : Nat) (v : Word)
  | isleStickyClear (l : Link) (n : Nat) (v : Word)
  | hlCauseClear (l : Link) (v : Word)
  | drawBudgetWrite (l : Link) (v : Word)
  | powerCtlWrite (l : Link) (v : Word)
  | saveMinWrite (l : Link) (v : Word)
  | dspCtlWrite (l : Link) (v : Word)
  | dspBandWrite (l : Link) (v : Word)
  | portBaudWrite (l : Link) (p : Nat) (v : Word)
  | portPollWrite (l : Link) (p : Nat) (v : Word)
  | portEnableWrite (l : Link) (p : Nat) (v : Word)
  | mramWindowWrite (l : Link) (addr : Nat) (data : List Byte)
  | sramWindowWrite (l : Link) (addr : Nat) (data : List Byte)
  | displayRegionWrite (l : Link) (off : Nat) (data : List Byte)
  | commit (l : Link) (args : List Byte)
  | abandon (l : Link) (args : List Byte)
  | abort (l : Link) (args : List Byte)
  | saveNow (l : Link) (args : List Byte)
  | timeSet (l : Link) (args : List Byte)
  | offsetSet (l : Link) (args : List Byte)
  | wakeAt (l : Link) (args : List Byte)
  | wakeClear (l : Link) (args : List Byte)
  | calLoad (l : Link) (args : List Byte)
  | calCancel (l : Link) (args : List Byte)
  | calRead (l : Link) (args : List Byte)
  | closeNow (l : Link) (args : List Byte)
  | signReading (l : Link) (args : List Byte)
  | profileRead (l : Link) (args : List Byte)
  | eventRead (l : Link) (args : List Byte)
  | notifyRead (l : Link) (args : List Byte)
  | capture (l : Link) (args : List Byte)
  | captureRelease (l : Link) (args : List Byte)
  | imageWrite (l : Link) (args : List Byte)
  | imageLoad (l : Link) (args : List Byte)
  | imageReload (p : PowerUpInput)
  | splice (l : Link) (args : List Byte)
  | storeWrite (l : Link) (args : List Byte)
  | discover (l : Link) (args : List Byte)
  | partnerAdd (l : Link) (args : List Byte)
  | partnerEnrol (l : Link) (args : List Byte)
  | partnerRetire (l : Link) (args : List Byte)
  | partnerDelete (l : Link) (args : List Byte)
  | partnerBind (l : Link) (args : List Byte)
  | partnerSet (l : Link) (args : List Byte)
  | partnerRead (l : Link) (args : List Byte)
  | relayHold (l : Link) (args : List Byte)
  | relayRelease (l : Link) (args : List Byte)
  | monitorTest (l : Link) (args : List Byte)
  | monitorTestEnd (raised cleared : Bool)
  | tamperAck (l : Link) (args : List Byte)
  | freezeRelease (l : Link) (args : List Byte)
  | sessionOpen (l : Link) (args : List Byte)
  | sessionAuth (l : Link) (args : List Byte)
  | sessionAuthTimeout
  | sessionClose (l : Link) (args : List Byte)
  | sessionIdle
  | keyPublic (l : Link) (args : List Byte)
  | keyInstall (l : Link) (args : List Byte)
  | keyRenew (l : Link) (args : List Byte)
  | keyInvalidate (l : Link) (args : List Byte)
  | crypto (l : Link) (args : List Byte)
  | authInstall (l : Link) (args : List Byte)
  | attest (l : Link) (args : List Byte)
  | rootRegenerate (l : Link) (args : List Byte)
  | debugUnlock (l : Link) (args : List Byte)
  | displayUpdate (l : Link) (args : List Byte)
  | powerFail
  | lastGasp
  | holdEntry
  | holdSample (calseal cover tcover : Bool) (vbat : Nat) (glitch : Bool)
  | powerUp (p : PowerUpInput)
  | coreReset
  | resetN (ns : Nat)
  | vbatLoss
  | vdd5pChange (ok : Bool)
  | chargerThreshold (vres : Nat)
  | statePicker
  | wake
  | calendarWake
  | hostWake
  | voltageCheck
  | periodicSave
  | saveAbandon
  | journalTransaction
  | reserveGuardedWrite (vresAfter : Nat)
  | scrub (sram : Bool) (tile : Nat)
  | pollDue (i : Nat)
  | busFrame (p : Nat)
  | rspUd (p : Nat) (raw : List Byte)
  | answerTimeout (p : Nat)
  | modbusResponse (p : Nat) (raw : List Byte)
  | modbusRequest (p : Nat) (raw : List Byte)
  | optoRequest (p : Nat) (raw : List Byte)
  | optoAcknowledgement (p : Nat) (raw : List Byte)
  | optoTimeout (p : Nat)
  | pulseAccepted (p i : Nat)
  | relayMismatch (p o : Nat)
  | relayCoilRetry (i : Nat)
  | backoffProbe (p : Nat)
  | calsealN (high : Bool)
  | coverN (high : Bool)
  | tcoverN (high : Bool)
  | magN (high : Bool)
  | supplyGlitch (rail ns : Nat)
  | resplit
  | maskRefresh
  | trngFail (kind : Nat)
  | trngRetry (pass : Bool)
  | panelFrame
  | pmicEnFall
  | stripRender
  | scrollN
  | scrollNHold
  | scrollTimer
  | listReturn
  | rtdStale (lane : Nat)
  | pulseGlitch (p i : Nat)
  | relayFeedback (p o : Nat)
  | lineFault (p : Nat) (on : Bool)
  | sessionFailLockoutEnd (role : Nat)
  deriving DecidableEq, Repr

end Sys2Proof
end

