-- ==== Sys2Proof/Decode.lean ====
section
/-! DEFINITION. The block has no instruction decoder: every row of spec/opcode_table.json has an empty list
of fields, so no word of bits spells a command. -/

namespace Sys2Proof

/-- The rows of the opcode table that give bits, as width and command: none does. -/
def tableWords : List (Nat × Nat × Instr) := []

/-- The command that a word of `nbits` bits spells by the table's bits. -/
def decodeTableWord (nbits w : Nat) : Option Instr :=
  (tableWords.find? (fun r => r.1 == nbits && r.2.1 == w)).map (fun r => r.2.2)

end Sys2Proof
end

