-- ==== Sys2Proof/Config.lean ====
section
/-! DEFINITION. What one part fixes and the spec does not print: ROM contents, standard cryptographic
functions and the free values. Every constant is opaque: no proof can see a value of it. -/

namespace Sys2Proof.Config

/-- Stage 2 and stage 3 half-band coefficients by odd distance 3, 5, ... from the centre, Q1.17 (02_lanes R38).
PRESUMED unprinted ROM: safe. -/
opaque stage2Rom : Nat → Int
opaque stage3Rom : Nat → Int
/-- Stage 4 coefficients of a response by distance 1, 2, ... from the centre, Q1.17 (R38, R41). Unprinted ROM: safe. -/
opaque stage4Rom : Nat → Nat → Int
/-- The leaky integrator of a ROGO response: pole, gain and phase correction (R42). Unprinted ROM: safe. -/
opaque rogoPole : Nat → Rat
opaque rogoGain : Nat → Rat
opaque rogoPhase : Nat → Rat
/-- The gain of a response's chain at the 1 kHz of the reference sine, and its phase there in turns, against a response
of unity gain and nominal group delay (R47). Unprinted ROM: safe. -/
opaque refSineGain : Nat → Rat
opaque refSinePhase : Nat → Rat
/-- One gain from the measured ratios of the reference's two components, direct and sine (R47): the spec states no
formula. Free value. -/
opaque refGain : Nat → Rat → Rat → Rat
/-- The cosine and the sine of a number of turns, as mathematics defines them. -/
opaque cosTurn : Rat → Rat
opaque sinTurn : Rat → Rat
/-- The direction of a vector, in turns from -1/2 to 1/2, as mathematics defines it. -/
opaque angleTurn : Rat → Rat → Rat
/-- The interpolator's tap for a phase in 1/4,096 tick (03 R68). Unprinted ROM: safe. -/
opaque interpTap : Nat → Nat → Rat
/-- The quadrature path (03 R61): decimator and interpolator by distance from the centre, Hilbert filter by distance from
the centre, 1 and up. Unprinted ROM: safe. -/
opaque decimRom : Nat → Rat
opaque hilbertRom : Nat → Rat
opaque expandRom : Nat → Rat
/-- The second-order low-pass of frequency tracking at 80 Hz: b0, b1, b2, a1, a2 (03 R63). Unprinted ROM: safe. -/
opaque trackRom : Nat → Rat
/-- The resampler's kernel by phase and tap (04 R92). Unprinted ROM: safe. -/
opaque kernelRom : Nat → Nat → Rat
/-- c(f), unsigned 2.30, for a frequency in 0.01 Hz (03 R62). Unprinted ROM: safe. -/
opaque cTable : Nat → Word
/-- The k-factor ROM, J/(m3 K), at whole degrees, for FLOW_POS (05 R117). Unprinted ROM: safe. -/
opaque kRom : Nat → Nat → Nat → Rat
/-- Whether the glyph ROM sets a pixel: cell size, character code, x, y (14 R362). Unprinted ROM: safe. -/
opaque glyph : Nat → Nat → Nat → Nat → Bool
/-- Where the spec states no rounding, whether the device takes the upper of the two neighbours;
the first argument names the place. Free value. -/
opaque roundsUp : Nat → Rat → Bool
/-- The byte stream of the DRBG, by draw number (13 R319). Free value. -/
opaque drbgByte : Nat → Byte
/-- A free natural number, by draw number: a value or choice the spec leaves open. -/
opaque freeNat : Nat → Nat
/-- The test access port (17 R412): bits of its instruction register, the codes of IDCODE, SAMPLE/PRELOAD and EXTEST, the ball
of a boundary cell by its place in the chain, and the level of a ball in a tick. The spec prints none. Free values. -/
opaque tapIrBits : Nat
opaque tapCode : Nat → Nat
opaque scanBall : Nat → Nat
opaque padLevel : Nat → Nat → Bool
/-- The undefined samples of a FREE capture slot (04 R104), by byte address. Free value. -/
opaque undefByte : Nat → Byte
/-- The 96-bit device serial, byte j in bits 8j+7:8j (13 R426), set at the factory. -/
opaque serial : BitVec 96
/-- The first `n` bytes that an opaque byte function gives. -/
def bytesOf (n : Nat) (f : Nat → Byte) : List Byte := (List.range n).map f

/-- The fixed test root of the debug mode, 32 bytes (13 R343), by byte. -/
opaque testRootByte : Nat → Byte
def testRoot : List Byte := bytesOf 32 testRootByte
/-- SHA-256 (13 R319), as its standard defines it: the digest's bytes, 32 of them. -/
opaque sha256Byte : List Byte → Nat → Byte
def sha256 (m : List Byte) : List Byte := bytesOf 32 (sha256Byte m)
/-- AES-CMAC under a key, 16 bytes (13 R319). -/
opaque cmacByte : List Byte → List Byte → Nat → Byte
def cmac (k m : List Byte) : List Byte := bytesOf 16 (cmacByte k m)
/-- AES-GCM encryption: key, IV, additional data, plaintext; ciphertext of the plaintext's length, then the 16-byte tag
(13 R319). -/
opaque gcmByte : List Byte → List Byte → List Byte → List Byte → Nat → Byte
def gcmEnc (k iv aad p : List Byte) : List Byte := bytesOf (p.length + 16) (gcmByte k iv aad p)
/-- AES-GCM decryption: key, IV, additional data, ciphertext, tag; none when the tag fails (13 R319). -/
opaque gcmTagOk : List Byte → List Byte → List Byte → List Byte → List Byte → Bool
opaque gcmPlain : List Byte → List Byte → List Byte → List Byte → Nat → Byte
def gcmDec (k iv aad c tag : List Byte) : Option (List Byte) :=
  if gcmTagOk k iv aad c tag then some (bytesOf c.length (gcmPlain k iv aad c)) else none
/-- ECDSA P-256 signature of a 32-byte hash, 64 bytes: private key, hash, 32 DRBG bytes (13 R319). -/
opaque ecdsaByte : Nat → List Byte → List Byte → Nat → Byte
def ecdsaSign (k : Nat) (h r : List Byte) : List Byte := bytesOf 64 (ecdsaByte k h r)
/-- ECDSA P-256 verification: public key, hash, signature (13 R319). -/
opaque ecdsaVerify : List Byte → List Byte → List Byte → Bool
/-- ECDH P-256 shared x-coordinate, 32 bytes: private key, peer key (13 R319). -/
opaque ecdhByte : Nat → List Byte → Nat → Byte
def ecdhX (k : Nat) (p : List Byte) : List Byte := bytesOf 32 (ecdhByte k p)
/-- The P-256 public key x ‖ y of a private key, 64 bytes (13 R337). -/
opaque ecPublicByte : Nat → Nat → Byte
def ecPublic (k : Nat) : List Byte := bytesOf 64 (ecPublicByte k)
/-- Whether 64 bytes are a point of P-256 (13 R319). -/
opaque onCurve : List Byte → Bool
/-- The value of an operand code the spec keeps but gives no layout to: the module state of a
partner record (11 R282), by partner and byte. Free value. -/
opaque moduleState : Nat → Nat → Byte

/-- A payload byte of the save with a SAVE_SEQ: tile and byte; the spec gives the running state no layout (09 R225). Free value. -/
opaque saveByte : Nat → Nat → Nat → Byte

end Sys2Proof.Config
end

