-- ==== Sys2Proof/Machine/Bits.lean ====
section
/-! DEFINITION. Bit fields, byte orders, rounding, CRC-32C and the sparse tables that State is made of. -/

namespace Sys2Proof.Machine

/-! ## Sparse tables in canonical form -/

/-- A sparse table: keys strictly rising, no entry equal to what an unlisted key reads as. -/
abbrev Tab (α : Type) := List (Nat × α)

/-- The value listed at `k`, if any. -/
def tabFind {α : Type} (k : Nat) : Tab α → Option α
  | [] => none
  | (j, v) :: t => if j = k then some v else tabFind k t

/-- The value at `k`, with `d` for an unlisted key. -/
def tabGet {α : Type} (d : α) (t : Tab α) (k : Nat) : α := (tabFind k t).getD d

/-- Write `v` at `k`, keeping the canonical form for the default `d`. -/
def tabPut {α : Type} [DecidableEq α] (d : α) (k : Nat) (v : α) : Tab α → Tab α
  | [] => if v = d then [] else [(k, v)]
  | (j, w) :: t =>
    if k < j then (if v = d then (j, w) :: t else (k, v) :: (j, w) :: t)
    else if k = j then (if v = d then t else (k, v) :: t)
    else (j, w) :: tabPut d k v t

/-- The keys of a table rise strictly from a lower bound and no entry equals the default. -/
def tabWfFrom {α : Type} [DecidableEq α] (d : α) : Nat → Tab α → Bool
  | _, [] => true
  | lo, (j, v) :: t => decide (lo ≤ j) && decide (v ≠ d) && tabWfFrom d (j + 1) t

/-- The canonical form of a table. -/
def tabWf {α : Type} [DecidableEq α] (d : α) (t : Tab α) : Bool := tabWfFrom d 0 t

/-- The value at a position of a list, with a default. -/
def nth {α : Type} (l : List α) (i : Nat) (d : α) : α := l.getD i d

/-! ## Fields of words -/

/-- Bits `hi`:`lo` of a number. -/
def bitsOf (x hi lo : Nat) : Nat := (x >>> lo) % 2 ^ (hi - lo + 1)

/-- One bit of a number. -/
def bitOf (x i : Nat) : Bool := x.testBit i

/-- 1 for true. -/
def b2n (b : Bool) : Nat := if b then 1 else 0

/-- A flag at bit `i`. -/
def flagAt (i : Nat) (b : Bool) : Nat := if b then 2 ^ i else 0

/-- The signed value of the low `w` bits. -/
def sext (w x : Nat) : Int :=
  if (x % 2 ^ w) < 2 ^ (w - 1) then (x % 2 ^ w : Nat) else ((x % 2 ^ w : Nat) : Int) - (2 ^ w : Nat)

/-- The two's-complement number of width `w` of an integer. -/
def twos (w : Nat) (x : Int) : Nat := (x % (2 ^ w : Nat)).toNat

/-- Saturation at `2^w - 1`. -/
def satU (w n : Nat) : Nat := min n (2 ^ w - 1)

/-- Signed saturation to `w` bits (02_lanes R39). -/
def satS (w : Nat) (x : Int) : Int :=
  max (-(2 ^ (w - 1) : Nat)) (min x ((2 ^ (w - 1) : Nat) - 1))

/-! ## Byte strings -/

/-- `n` bytes of a number, least significant first (15_host_link R369). -/
def leBytes : Nat → Nat → List Byte
  | 0, _ => []
  | k + 1, x => byteOf x :: leBytes k (x / 256)

/-- `n` bytes of a number, most significant first. -/
def beBytes (n x : Nat) : List Byte := (leBytes n x).reverse

/-- The number of little-endian bytes. -/
def leVal : List Byte → Nat
  | [] => 0
  | b :: t => b.toNat + 256 * leVal t

/-- `n` bytes from offset `o`, with 0 beyond the end. -/
def sliceB (l : List Byte) (o n : Nat) : List Byte :=
  let t := (l.drop o).take n
  t ++ List.replicate (n - t.length) 0

/-- A byte of an argument list. -/
def u8 (l : List Byte) (o : Nat) : Nat := (l.getD o 0).toNat
/-- A 16-bit little-endian argument. -/
def u16 (l : List Byte) (o : Nat) : Nat := leVal (sliceB l o 2)
/-- A 32-bit little-endian argument. -/
def u32 (l : List Byte) (o : Nat) : Nat := leVal (sliceB l o 4)
/-- A 64-bit little-endian argument. -/
def u64 (l : List Byte) (o : Nat) : Nat := leVal (sliceB l o 8)

/-- Little-endian words from bytes. -/
def wordsOf : List Byte → List Nat
  | a :: b :: c :: d :: t => leVal [a, b, c, d] :: wordsOf t
  | _ => []

/-- Bytes of an ASCII text. -/
def ascii (s : String) : List Byte := s.toList.map (fun c => byteOf c.toNat)

/-! ## CRC-32C (09_store R204) -/

/-- Eight reflected steps of polynomial 0x1EDC_6F41 (reflected 0x82F6_3B78). -/
def crcBits : Nat → Word → Word
  | 0, c => c
  | k + 1, c => crcBits k (if c.getLsbD 0 then (c >>> 1) ^^^ 0x82F63B78#32 else c >>> 1)

/-- The CRC register after the bytes, from a start value. -/
def crcRun (c : Word) : List Byte → Word
  | [] => c
  | b :: t => crcRun (crcBits 8 (c ^^^ b.zeroExtend 32)) t

/-- CRC-32C: initial value and final XOR all ones (R204). -/
def crc32c (l : List Byte) : Word := crcRun 0xFFFFFFFF#32 l ^^^ 0xFFFFFFFF#32

/-- C0 of R207: initial value 0, no final XOR. -/
def crcZero (l : List Byte) : Word := crcRun 0 l

/-! ## Rounding -/

/-- Round half to even (02_lanes R39). -/
def rne (x : Rat) : Int :=
  let f := x.floor
  let r := x - f
  if r < 1 / 2 then f else if 1 / 2 < r then f + 1 else if f % 2 = 0 then f else f + 1

/-- Round half away from zero (01_archipelago R14). -/
def roundAway (x : Rat) : Int :=
  if 0 ≤ x then (x + 1 / 2).floor else -((-x + 1 / 2).floor)

/-- Truncate toward zero (11_ports_partners R270). -/
def truncQ (x : Rat) : Int := if 0 ≤ x then x.floor else -((-x).floor)

/-- `2^n` as a rational, for a signed exponent. -/
def pow2 (e : Int) : Rat := if 0 ≤ e then ((2 ^ e.toNat : Nat) : Rat) else 1 / ((2 ^ (-e).toNat : Nat) : Rat)

/-- `10^n` as a rational, for a signed exponent. -/
def pow10 (e : Int) : Rat := if 0 ≤ e then ((10 ^ e.toNat : Nat) : Rat) else 1 / ((10 ^ (-e).toNat : Nat) : Rat)

/-- Ceiling division. -/
def cdiv (a b : Nat) : Nat := (a + b - 1) / b

/-- The sum of a list of rationals. -/
def sumQ (l : List Rat) : Rat := l.foldl (· + ·) 0

/-- The sum of a list of integers. -/
def sumZ (l : List Int) : Int := l.foldl (· + ·) 0

/-- The sum of a list of naturals. -/
def sumN (l : List Nat) : Nat := l.foldl (· + ·) 0

/-- 32-bit serial order: `x` is newer than `y` (09_store R216). -/
def serialNewer (x y : Nat) : Bool :=
  let d := (x + 2 ^ 32 - y % 2 ^ 32) % 2 ^ 32
  decide (1 ≤ d) && decide (d ≤ 2 ^ 31 - 1)

/-! ## Calendar dates -/

/-- Whether a year is a leap year. -/
def leapYear (y : Nat) : Bool := (y % 4 == 0 && y % 100 != 0) || y % 400 == 0

/-- Days of a month of a year. -/
def monthDays (y m : Nat) : Nat :=
  if m = 2 then (if leapYear y then 29 else 28)
  else if m = 4 ∨ m = 6 ∨ m = 9 ∨ m = 11 then 30 else 31

/-- A local date and time. -/
structure DateTime where
  year : Nat
  month : Nat
  day : Nat
  weekday : Nat
  minute : Nat
  second : Nat
  deriving DecidableEq, Repr

/-- Month and day from a day of the year. -/
def monthOf (y : Nat) : Nat → Nat → Nat → Nat × Nat
  | 0, m, d => (m, d + 1)
  | f + 1, m, d => if d < monthDays y m then (m, d + 1) else monthOf y f (m + 1) (d - monthDays y m)

/-- Year and day of the year from a day count since 2000-01-01. -/
def yearOf : Nat → Nat → Nat → Nat × Nat
  | 0, y, d => (y, d)
  | f + 1, y, d =>
    let n := if leapYear y then 366 else 365
    if d < n then (y, d) else yearOf f (y + 1) (d - n)

/-- The date-time of seconds since 2000-01-01T00:00:00 (a Saturday; Monday = 0). -/
def dateTime (secs : Nat) : DateTime :=
  let days := secs / 86400
  let (y, d) := yearOf 200 2000 days
  let (m, dd) := monthOf y 12 1 d
  { year := y, month := m, day := dd, weekday := (days + 5) % 7, minute := (secs % 86400) / 60, second := secs % 60 }

end Sys2Proof.Machine
end

