-- ==== Sys2Proof/Machine/State.lean ====
section
/-! DEFINITION. The state of the block, as plain data. Every field's comment gives its width, the
file and rule of spec/ that names it, and its reset value. Log 1 is the reset of what the spec gives no
reset value. -/

namespace Sys2Proof.Machine

/-- Why the machine stops. -/
inductive Fault where
  /-- Raised by a command that names a unit the device does not have (a strait above 15, a lane above
  199 and so on), so no such event can be delivered. Safe: the device takes no step there either. -/
  | noSuchUnit (unit : String)
  deriving DecidableEq, Repr

/-- Why a command has no meaning. -/
inductive Refusal where
  /-- Raised by an arm of exec whose meaning is not written. Safe. -/
  | notModelled (mnemonic : String)
  deriving DecidableEq, Repr

/-- Status codes (15_host_link R386). -/
inductive Status where
  | done | busy | late | aborted | keyOrphaned | keySpent | keyExpired | sealed | denied
  | torn | tileBad | noDraw | badImage | range
  deriving DecidableEq, Repr

/-- Power states (10_power R246), with the states outside the table: held in reset, the sequence after
a power-fail latch (R255), and HOLD. -/
inductive PMode where
  | reset | run | doze | nap | sleep | failing | hold
  deriving DecidableEq, Repr

/-- Requesters of the draw arbiter (10_power R240), in table order with ports in port order. -/
inductive Requester where
  | lastGasp | reserveWrite | tamperPort (p : Nat) | tamperDisplay | save | journal
  | job (n : Nat) | port (p : Nat) | scanner | rtd | housekeeping
  deriving DecidableEq, Repr

/-! ## Clock -/

/-- A time correction in progress (01_archipelago R13, 06_billing R151). -/
structure Slew where
  /-- advance (true) or retard [1] (01 R13) reset none -/
  advance : Bool
  /-- correction to apply, ticks, positive [63] (06 R151) reset none -/
  total   : Rat
  /-- device ticks run at the changed ratio [64] (01 R13) reset none -/
  ran     : Nat
  deriving DecidableEq, Repr

structure Clock where
  /-- device seconds [32] (00 R7, 15 R383 TIME_SECONDS) reset 0, or kept by the backup domain -/
  secs     : Nat
  /-- tick-of-second, 0-15,999 [16] (00 R7, TIME_TICK) reset 0, or kept by the backup domain -/
  tick     : Nat
  /-- ticks since power-up [64] (13 R332, R333) reset 0 -/
  runTick  : Nat
  /-- frames since power-up, its parity selects the bank [32] (01 R18) reset 0 -/
  frameNo  : Nat
  /-- offset of run tick 0 within its frame [12] (01 R11) reset 0 -/
  frameOff : Nat
  /-- TIME_TICK.SET [1] (15 R383) reset 0 -/
  set      : Bool
  /-- local offset in force, minutes [16 signed] (06 R152, TIME_OFFSET) reset 0 -/
  offset   : Int
  /-- new current offset accepted by OFFSET_SET, for the next frame boundary [16] (06 R152) reset none -/
  newOff   : Option Int
  /-- scheduled local-offset changes, at most 4 [4 x 48] (06 R152) reset empty -/
  sched    : List (Nat × Int)
  /-- system PLL locked, CLK_STATUS.PLL_LOCK [1] (15 R383) reset 0 -/
  pllLock  : Bool
  /-- slew in progress [-] (01 R13, CLK_STATUS.SLEW, CLK_SLEW_LEFT) reset none -/
  slew     : Option Slew
  /-- STEP waiting for the next frame boundary, ticks [64 signed] (01 R14) reset none -/
  step     : Option Int
  /-- ticks of the running frame at +1,000 ppm and at -1,000 ppm [2 x 12] (01 R13) reset 0 -/
  fast     : Nat
  slow     : Nat
  /-- the same of the frame that just ended [2 x 12] (01 R13) reset 0 -/
  fastF    : Nat
  slowF    : Nat
  /-- CLK_SLIPS, tick-slip runs since power-up, saturating [32] (15 R383) reset 0 -/
  slips    : Nat
  /-- step 2 of R23 has been applied at the boundary that began the running frame [1] (01 R23) reset 0 -/
  step2    : Bool
  /-- the boundary that began the running frame has been evaluated [1] (01 R19, 06 R155) reset 0 -/
  evald    : Bool
  deriving DecidableEq, Repr

/-! ## Lanes -/

/-- One lane, 0-191, or ferry, 192-199 (02_lanes). -/
structure LaneSt where
  /-- stage 1 CIC integrators [4 x 24] (02 R38) reset DESIGN CHOICE 0 (log 1) -/
  cicI    : List Int
  /-- stage 1 comb delays [4 x 24] (02 R38) reset DESIGN CHOICE 0 (log 1) -/
  cicC    : List Int
  /-- stage 2, 3 and 4 filter histories, newest first [32-bit words] (02 R38) reset DESIGN CHOICE empty (log 1) -/
  h2      : List Int
  h3      : List Int
  h4      : List Int
  /-- ROGO integrator (02 R42) reset DESIGN CHOICE 0 (log 1) -/
  integ   : Rat
  /-- DC averager history, newest first [24-bit words] (02 R43) reset DESIGN CHOICE empty (log 1) -/
  avg     : List Int
  /-- chain outputs before the gain trim, newest first, 1,408 deep [24-bit codes] (03 R60, R61, R68) reset DESIGN CHOICE empty (log 1) -/
  hist    : List Int
  /-- delivered outputs, trimmed, newest first, 6,400 deep [24-bit codes] (02 R33, R51, 04 R103) reset DESIGN CHOICE empty (log 1) -/
  out     : List Rat
  /-- integrator and averager in the tick before the bit run reached 1,024 (02 R53) reset DESIGN CHOICE 0, empty (log 1) -/
  keepI   : Rat
  keepA   : List Int
  /-- sums of a measurement in progress: codes, codes times cosine and sine of its frequency, and ticks (02 R47, R50) reset 0 -/
  mDc     : Rat
  mC      : Rat
  mS      : Rat
  mN      : Nat
  /-- the period the sums are taken at, ticks (02 R50) reset 0 -/
  mPer    : Rat
  /-- LANE_HELD, RTD held code or AUX averager output [32 signed] (02 R36, R58) reset 0 -/
  held    : Int
  /-- device run tick of the last RTD result [64] (02 R37) reset none -/
  heldAt  : Option Nat
  /-- gain trim G, units of 2^-24 [32 signed] (02 R51, LANE_GAIN_TRIM) reset 0 -/
  gTrim   : Int
  /-- delay trim D, 1/4,096 tick [32 signed] (02 R51, LANE_DELAY_TRIM) reset 0 -/
  dTrim   : Int
  /-- run tick of the last conclusive trim (02 R58 LANE_TRIM_AGE) reset none, AGE 0xFFFF_FFFF -/
  trimAt  : Option Nat
  /-- TRIM_INCONCLUSIVE [1] (02 R50, R58) reset 0 -/
  inconcl : Bool
  /-- RTD_OPEN, RTD_SHORT, RTD_STALE [3 x 1] (02 R37, R58) reset 0 -/
  rtdOpen : Bool
  rtdShort : Bool
  rtdStale : Bool
  /-- LANE_OVR_COUNT, saturating [32] (02 R32, R58) reset 0 -/
  ovr     : Nat
  /-- over-range ticks of the even and odd frame [2 x 12] (12 R307 CT_SAT) reset 0 -/
  ovrEven : Nat
  ovrOdd  : Nat
  /-- stand-in ferry 0-7 [1+3] (02 R53, R58) reset none -/
  standin : Option Nat
  /-- failed without stand-in [1] (02 R54, R58) reset 0 -/
  failed  : Bool
  /-- stuck and waiting for the next frame boundary [1] (02 R53) reset 0 -/
  stuck   : Bool
  /-- run of identical modulator bits: the bit and its length [1 + 11] (02 R32) reset DESIGN CHOICE 0 (log 1) -/
  lastBit : Bool
  bitRun  : Nat
  /-- estimated ticks left, LANE_SETTLE [32] (02 R45, R58) reset 0 -/
  estLeft : Nat
  /-- estimated ticks contribute zero [1] (02 R45) reset 0 -/
  estZero : Bool
  /-- estimated in the even and odd frame [2 x 1] (02 R45) reset 0 -/
  estEven : Bool
  estOdd  : Bool
  /-- ferries: FERRY_FAULTY [1] (02 R56, R58) reset 0 -/
  faulty  : Bool
  /-- ferries: the lane it stands in for [8] (02 R58 FERRY_STANDIN, TARGET) reset none -/
  standFor : Option Nat
  /-- ferries: mode, gain, response and shifts adopted, as a LANE entry [32] (02 R48) reset 0 -/
  word    : Nat
  /-- ferries: the running visit's reference trim exceeds the bounds of R53 [1] (02 R56) reset 0 -/
  refBad  : Bool
  /-- failed without stand-in at the end of the frame that ended last, frame F [1] (01 R20, 03 R79) reset 0 -/
  failF   : Bool
  deriving DecidableEq, Repr

def LaneSt.init : LaneSt :=
  { cicI := [0, 0, 0, 0], cicC := [0, 0, 0, 0], h2 := [], h3 := [], h4 := [], integ := 0, avg := [], hist := [], out := [],
    keepI := 0, keepA := [], mDc := 0, mC := 0, mS := 0, mN := 0, mPer := 0, held := 0, heldAt := none, gTrim := 0, dTrim := 0, trimAt := none, inconcl := false, rtdOpen := false,
    rtdShort := false, rtdStale := false, ovr := 0, ovrEven := 0, ovrOdd := 0, standin := none, failed := false,
    stuck := false, lastBit := false, bitRun := 0, estLeft := 0, estZero := false, estEven := false, estOdd := false,
    faulty := false, standFor := none, word := 0, refBad := false, failF := false }

/-- The ferry rotation (02_lanes R49). -/
structure Rotation where
  /-- a rotation cycle runs [1] (02 R49, R57) reset 0 -/
  running : Bool
  /-- frame number at which the cycle started [32] (02 R49) reset 0 -/
  start   : Nat
  /-- F, the rotating ferries, ascending [8 x 3] (02 R49) reset empty -/
  ferries : List Nat
  /-- L, the lanes in rotation, ascending [192 x 8] (02 R49) reset empty -/
  lanes   : List Nat
  /-- the visit that ends with the running tick [8] (02 R51) reset none -/
  ending  : Option Nat
  /-- frame number at which the re-test of the stood-in lanes began, and the lanes under re-test (02 R55) reset none, empty -/
  testAt  : Option Nat
  testing : List Nat
  deriving DecidableEq, Repr

/-! ## Straits, windows and elements -/

/-- A window record (04_isles_windows R97). -/
structure WinRec where
  /-- WIN_TIME, WIN_TICK [32 + 16] (04 R97) reset 0 -/
  secs    : Nat
  tick    : Nat
  /-- LOCKED, FLAGGED [2 x 1] (04 R97) reset 0 -/
  locked  : Bool
  flagged : Bool
  /-- ORDER_LIMIT [6] (04 R95, R97) reset 0 -/
  limit   : Nat
  /-- WIN_LENGTH, ticks x 2^16 [32] (04 R97) reset 0 -/
  len     : Nat
  /-- WIN_FREQ, WIN_RMS, WIN_THD, binary32 [3 x 32] (04 R97) reset 0 -/
  f1      : Word
  rms     : Word
  thd     : Word
  /-- WIN_SEQ [32] (04 R97) reset 0 -/
  seq     : Nat
  /-- WIN_MAG[1..63], WIN_P[1..63], WIN_Q[1..63], binary32 [3 x 63 x 32] (04 R97) reset 0 -/
  mag     : List Word
  p       : List Word
  q       : List Word
  deriving DecidableEq, Repr

def WinRec.init : WinRec :=
  { secs := 0, tick := 0, locked := false, flagged := false, limit := 0, len := 0, f1 := 0, rms := 0, thd := 0,
    seq := 0, mag := [], p := [], q := [] }

/-- What an element's window gives the attribution (04_isles_windows R98). -/
structure ElemWin where
  /-- element slot [8] (04 R98) reset none -/
  elem  : Nat
  /-- P_h in watts, orders 1-63 (04 R94) reset none -/
  ph    : List Rat
  /-- V_1 squared times I_1 squared, for E_S1 (04 R98) reset none -/
  vi2   : Rat
  /-- ORDER_LIMIT of the window [6] (04 R95, R98) reset none -/
  limit : Nat
  deriving DecidableEq, Repr

/-- A window that closed (04_isles_windows R15, R98). -/
structure WinClosed where
  /-- frame in which it closed [32] (04 R98) reset none -/
  frame   : Nat
  /-- LOCKED and FLAGGED [2 x 1] (04 R97) reset none -/
  locked  : Bool
  flagged : Bool
  /-- T_w in ticks (04 R92) reset none -/
  len     : Rat
  /-- WIN_TIME, WIN_TICK, WIN_SEQ [32 + 16 + 32] (04 R97) reset none -/
  secs    : Nat
  tick    : Nat
  seq     : Nat
  /-- window sums of s_V and s_I per element, with N_w (04 R94) reset none -/
  sumV    : Rat
  sumI    : List (Nat × Rat)
  n       : Nat
  /-- its analysis has completed [1] (01 R16, 04 R97) reset 0 -/
  done    : Bool
  /-- what it gives the attribution, element by element (04 R98) reset empty -/
  elems   : List ElemWin
  /-- start and end crossing, 2^-16 tick (04 R92) reset none -/
  from_   : Nat
  upto    : Nat
  /-- run tick of the closing tick (01 R16) reset none -/
  closeT  : Nat
  /-- G_I, G_P and G_Q of each element in the closing tick (01 R20, 04 R94) reset none -/
  gains   : List (Nat × Rat × Rat × Rat)
  deriving DecidableEq, Repr

/-- A running sag, swell or interruption (04_isles_windows R101, R102). -/
structure Cond where
  /-- device time of its start [32 + 16] and the run tick of it (04 R101, R102) reset none -/
  secs  : Nat
  tick  : Nat
  start : Nat
  /-- extreme of Urms(1/2), squared, V^2 (04 R101) reset none -/
  ext   : Rat
  /-- capture slot taken, and whether the capture was lost [8 + 1] (04 R102) reset none, 0 -/
  slot  : Option Nat
  lost  : Bool
  deriving DecidableEq, Repr

/-- One strait, 0-15. -/
structure StraitSt where
  /-- LOCKED [1] (03 R63, R79) reset 0 -/
  locked  : Bool
  /-- consecutive qualifying periods [3] (03 R63) reset 0 -/
  qual    : Nat
  /-- position of the last counted crossing, 2^-16 tick [64] (03 R63) reset none -/
  cross   : Option Nat
  /-- STRAIT_PERIOD, ticks x 2^16 [32] (03 R63, R79) reset 0 -/
  period  : Nat
  /-- STRAIT_FREQ, 0.1 mHz [32] (03 R64, R79) reset 0 -/
  freq    : Nat
  /-- STRAIT_QCORR, c(f) in force, 2.30 [32] (03 R62, R79) reset 0x4000_0000 -/
  qcorr   : Word
  /-- c(f) for the next tick [32] (03 R62) reset none -/
  qnext   : Option Word
  /-- STRAIT_UNLOCKS, saturating [32] (03 R79) reset 0 -/
  unlocks : Nat
  /-- the running window: counted crossings in it, start position, sequence number (04 R15, R97) reset 0 -/
  wCount  : Nat
  wStart  : Nat
  wSeq    : Nat
  /-- window sums from the tick after the start crossing's tick (04 R94) reset 0 -/
  wSumV   : Rat
  wSumI   : List (Nat × Rat)
  wN      : Nat
  /-- the running window is flagged [1] (04 R97, R101) reset 0 -/
  wFlag   : Bool
  /-- windows closed and not yet consumed by every isle close (04 R16, R98) reset empty -/
  closed  : List WinClosed
  /-- sums of s_V and tick counts of the even and odd frame (03 R69) reset 0 -/
  sumEven : Rat
  sumOdd  : Rat
  nEven   : Nat
  nOdd    : Nat
  /-- STRAIT_VRMS, codes x 2^8 [32] (03 R79) reset 0 -/
  vrms    : Nat
  /-- mean square of the last closed frame, codes^2 (03 R69, 10 R247) reset 0 -/
  ms      : Rat
  /-- STRAIT_STATUS as shown: ACTIVE, LOCKED, VOLT_LOST and ESTIMATED of frame F [4 x 1] (03 R79) reset 0 -/
  vActive : Bool
  vLocked : Bool
  lost    : Bool
  estF    : Bool
  /-- STRAIT_UNLOCKS as shown [32] (03 R79) reset 0 -/
  vUnlocks : Nat
  /-- ACTIVE, LOCKED and UNLOCKS at the end of the frame that ended last, frame F (03 R79) reset 0 -/
  activeF : Bool
  lockedF : Bool
  unlocksF : Nat
  /-- last counted crossing and period at the end of frame F (12 R307 PHASE_SEQ) reset none, 0 -/
  crossF  : Option Nat
  periodF : Nat
  /-- the tracking filter: last two inputs and outputs, newest first [-] (03 R63) reset DESIGN CHOICE 0 (log 1) -/
  tx      : List Rat
  ty      : List Rat
  /-- the filtered signal was below -TRACK_MIN / 4 since the last counted crossing [1] (03 R63) reset 0 -/
  armed   : Bool
  /-- the filtered peak of the running cycle, codes (03 R63) reset 0 -/
  peak    : Rat
  /-- v' of the last ticks, newest first, 4,700 deep (04 R92) reset DESIGN CHOICE empty (log 1) -/
  vBuf    : List Rat
  /-- run tick of the last half-cycle boundary, and the place in the pattern 133, 133, 134 (04 R100) reset 0 -/
  halfAt  : Nat
  halfK   : Nat
  /-- s_V of the last 1,600 ticks, newest first (10 R250, R258) reset empty -/
  recent  : List Rat
  /-- sums of the running and the last half cycle with tick counts (04 R100) reset 0 -/
  half0   : Rat
  half1   : Rat
  hn0     : Nat
  hn1     : Nat
  /-- Urms(1/2) squared, V^2 (04 R100) reset 0 -/
  urms    : Rat
  /-- running conditions (04 R101) reset none -/
  sag     : Option Cond
  swell   : Option Cond
  intr    : Option Cond
  /-- window record (04 R97) reset 0 -/
  win     : WinRec
  deriving DecidableEq, Repr

def StraitSt.init : StraitSt :=
  { locked := false, qual := 0, cross := none, period := 0, freq := 0, qcorr := 0x40000000#32, qnext := none,
    unlocks := 0, wCount := 0, wStart := 0, wSeq := 0, wSumV := 0, wSumI := [], wN := 0, wFlag := false, closed := [],
    sumEven := 0, sumOdd := 0, nEven := 0, nOdd := 0, vrms := 0, ms := 0, vActive := false, vLocked := false, lost := false, estF := false,
    vUnlocks := 0, activeF := false, lockedF := false, unlocksF := 0, crossF := none, periodF := 0, tx := [0, 0], ty := [0, 0], armed := false, peak := 0,
    vBuf := [], halfAt := 0, halfK := 0, recent := [],
    half0 := 0, half1 := 0, hn0 := 0, hn1 := 0, urms := 0, sag := none, swell := none, intr := none, win := .init }

/-- The products of one element in one tick (03_straits_elements R69, R70). -/
structure Prod where
  /-- P, Q and the squares of current and voltage, codes^2 (03 R69, R70) reset 0 -/
  p : Rat
  q : Rat
  sI : Rat
  sV : Rat
  /-- calibrated instantaneous current, codes (R69) reset none -/
  i : Rat
  /-- the tick is metered, estimated, substituted with its sign negative [3 x 1] (04 R84, 02 R45, 03 R79) reset 0 -/
  metered : Bool
  est : Bool
  neg : Bool
  /-- the tick contributes nothing to the element (02 R45, 01 R27) reset 0 -/
  void : Bool
  deriving DecidableEq, Repr

def Prod.zero : Prod :=
  { p := 0, q := 0, sI := 0, sV := 0, i := 0, metered := false, est := false, neg := false, void := true }

/-- One element slot, 0-191: what its views show and what estimation uses. -/
structure ElemSt where
  /-- ELM_STATUS of the last closed frame, bits 5:1 [32] (03 R79) reset 0 -/
  status : Nat
  /-- ELM_IRMS, codes x 2^8 [32] (03 R79) reset 0 -/
  irms   : Nat
  /-- ELM_EP and ELM_EQ [2 x 64 signed] (03 R79) reset 0 -/
  ep     : Int
  eq     : Int
  /-- ELM_DELAY, tau at the end of frame F, 1/4,096 tick [32 signed] (03 R79) reset 0 -/
  delay  : Int
  /-- tau at the end of the frame that ended last (03 R79) reset 0 -/
  tauN   : Int
  /-- mean square current of the last closed frame, codes^2 (03 R69) reset 0 -/
  ms     : Rat
  /-- sums of the products delivered in the running frame and their count (02 R45) reset 0 -/
  acc    : Prod
  accN   : Nat
  /-- per-tick mean over the frame that ended last (02 R45) reset 0 -/
  mean   : Prod
  /-- the mean substituted in the running estimated span (02 R45) reset 0 -/
  estP   : Prod
  /-- products of the tick before the outstanding ticks, none when it has none (01 R27) reset none -/
  lastP  : Option Prod
  /-- window record (04 R97) reset 0 -/
  win    : WinRec
  /-- i_d of the last ticks, newest first, 4,700 deep (04 R92) reset DESIGN CHOICE empty (log 1) -/
  iBuf   : List Rat
  /-- ELM_STATUS.ACTIVE as shown, and ACTIVE and NO_VOLTAGE at the end of frame F [3 x 1] (03 R79) reset 0 -/
  vActive : Bool
  activeF : Bool
  noVF   : Bool
  /-- RTD_PAIR: the supply and return code delivered for the running device second, none before the first (03 R65, R77) reset none -/
  codeS  : Option Rat
  codeR  : Option Rat
  deriving DecidableEq, Repr

def ElemSt.init : ElemSt :=
  { status := 0, irms := 0, ep := 0, eq := 0, delay := 0, tauN := 0, ms := 0, acc := .zero, accN := 0, mean := .zero,
    estP := .zero, lastP := none, win := .init, iBuf := [], vActive := false, activeF := false, noVF := false, codeS := none,
    codeR := none }

/-- One tick-budgeted engine: 0 the strait engine, 1-8 element engines 0-7 (01_archipelago R26). -/
structure EngineSt where
  /-- buffered unprocessed samples by run tick, oldest first, at most 4 (01 R26) reset empty -/
  buf    : List Nat
  /-- cycles already spent on the oldest sample [14] (01 R26) reset 0 -/
  work   : Nat
  /-- the missing run: first run tick and count (01 R27) reset none -/
  run    : Option (Nat × Nat)
  /-- device time of the first missing tick (01 R28) reset 0 -/
  runSecs : Nat
  runTick : Nat
  deriving DecidableEq, Repr

def EngineSt.init : EngineSt :=
  { buf := [], work := 0, run := none, runSecs := 0, runTick := 0 }

/-- A tick whose products have not all reached the isle banks (01_archipelago R18, R26). -/
structure TickRec where
  /-- run tick [64], device time of the tick [32 + 16] (01 R26, R28) reset none -/
  t     : Nat
  secs  : Nat
  tick  : Nat
  /-- products for tick t of element e at key e and of strait s at key 192 + s, formed with the values in force
  in t (03 R72), then as settled, and the keys that were substituted (01 R27) reset none -/
  prods : Tab Prod
  subs  : List Nat
  /-- engines that processed, and that missed, tick t (01 R26) reset none -/
  doneE : List Nat
  missE : List Nat
  /-- keys whose contribution is outstanding (01 R26) reset none -/
  left  : List Nat
  deriving DecidableEq, Repr

/-! ## Isles -/

/-- Frame sums of one element inside its isle's bank (03_straits_elements R69, R79). -/
structure ElemBank where
  /-- sums of P and Q [2 x 64 signed] (03 R79) reset 0 -/
  ep  : Int
  eq  : Int
  /-- sums of s_I and s_V, codes^2, and the ticks that have them (03 R69) reset 0 -/
  sI  : Rat
  sV  : Rat
  n   : Nat
  /-- substituted by tick slip, estimated, negative power in the frame [3 x 1] (03 R79) reset 0 -/
  sub : Bool
  est : Bool
  neg : Bool
  deriving DecidableEq, Repr

def ElemBank.zero : ElemBank := { ep := 0, eq := 0, sI := 0, sV := 0, n := 0, sub := false, est := false, neg := false }

/-- A frame-pending bank (04_isles_windows R83): signed 96-bit sums in 2^-16 fine LSB. -/
structure Bank where
  /-- EP, EQ [2 x 96 signed] (04 R83) reset 0 -/
  ep   : Int
  eq   : Int
  /-- A+, A-, Q1 to Q4 [6 x 96] (04 R83) reset 0 -/
  ap   : Int
  am   : Int
  q1   : Int
  q2   : Int
  q3   : Int
  q4   : Int
  /-- N_m [12] (04 R83) reset 0 -/
  nm   : Nat
  /-- TICK_SLIP and ESTIMATED of the frame [2 x 1] (01 R28, 04 R91) reset 0 -/
  slip : Bool
  est  : Bool
  /-- sum of squares of the per-tick sum of calibrated currents (12 R307 NEUTRAL) reset 0 -/
  isum : Rat
  /-- per element sums (03 R69, 04 R87) reset empty -/
  els  : Tab ElemBank
  /-- utility isles: volume of the frame and reverse volume, mL (05 R110, R111) reset 0 -/
  vol  : Int
  rev  : Int
  /-- utility isles: volume energy delivered with partner temperatures, heating and cooling, J (05 R117) reset 0 -/
  heatJ : Rat
  coolJ : Rat
  /-- partner volume applied this frame, mL, for the running heat sums (05 R117) reset none -/
  spread : Option Int
  /-- a read of the frame had a reverse delta that is not zero; the last read's delta is zero (05 R113) reset 0, none -/
  revNz  : Bool
  revEnd : Option Bool
  deriving DecidableEq, Repr

def Bank.zero : Bank :=
  { ep := 0, eq := 0, ap := 0, am := 0, q1 := 0, q2 := 0, q3 := 0, q4 := 0, nm := 0, slip := false, est := false,
    isum := 0, els := [], vol := 0, rev := 0, heatJ := 0, coolJ := 0, spread := none, revNz := false, revEnd := none }

/-- The register values, tariff and plan in force during a frame (01_archipelago R20, R22). -/
structure IsleCfg where
  /-- ISLE_CREEP_P and _Q [2 x 24] (04 R89) reset 0 -/
  creepP : Nat
  creepQ : Nat
  /-- ISLE_PLAN [2] (06 R131) reset 0 -/
  plan   : Nat
  /-- interval length in minutes and SUBINT (06 R136) reset 15 and 1 -/
  mins   : Nat
  subint : Nat
  /-- WARN and TRIP of ISLE_ALARM [2 x 16] (06 R140, R141) reset 0 -/
  warn   : Nat
  trip   : Nat
  /-- tariff 0 = T1 to 7 = T8, and whether from the plan default (06 R130 BV_TARIFF) reset 0 -/
  tariff : Nat
  dflt   : Bool
  /-- tick-energy factors K of the isle's PHASE elements (01 R22, 03 R71) reset empty -/
  ks     : List (Nat × Rat)
  deriving DecidableEq, Repr

def IsleCfg.init : IsleCfg :=
  { creepP := 0, creepQ := 0, plan := 0, mins := 15, subint := 1, warn := 0, trip := 0, tariff := 0, dflt := false, ks := [] }

/-- A billing register (06_billing R126). -/
structure BReg where
  /-- value r, 0 <= r < M [48] (06 R126) reset 0, or as saved -/
  r : Nat
  /-- wrap count w [16] (06 R126) reset 0, or as saved -/
  w : Nat
  deriving DecidableEq, Repr

/-- A fine accumulator with its residue (04_isles_windows R88). -/
structure Fine where
  /-- F, LSB one quantum x 2^-24 [64 signed] (04 R88) reset 0, or as saved -/
  f : Int
  /-- r, 2^-16 fine LSB [16] (04 R88) reset 0, or as saved -/
  r : Nat
  deriving DecidableEq, Repr

/-- A demand end recorded at a frame boundary (06_billing R136, R138). -/
structure DemEnd where
  /-- device second of the end [32] (06 R136) reset none -/
  secs    : Nat
  /-- the interval ends, it was short, it was interrupted [3 x 1] (06 R136, R138) reset none -/
  whole   : Bool
  short   : Bool
  interrupted : Bool
  /-- the boundary cuts the interval: the sub-interval sums restart (06 R138) -/
  cut     : Bool
  deriving DecidableEq, Repr

/-- Demand of one isle (06_billing R136 to R143). -/
structure Demand where
  /-- energies of the current sub-interval, slots 0-2, 2^-16 fine LSB (06 R136) reset 0, or as saved -/
  cur     : List Int
  /-- energies of the complete sub-intervals since the restart, newest first (06 R137) reset empty, or as saved -/
  subs    : List (List Int)
  /-- the interval opened short (06 R138) reset 0 -/
  opened  : Bool
  /-- sub-intervals since the restart (06 R138 PARTIAL) reset 0 -/
  since   : Nat
  /-- SHORT, INTERRUPTED, PARTIAL of DM_STATUS [3 x 1] (06 R139) reset 0 -/
  short   : Bool
  interr  : Bool
  partl   : Bool
  /-- DM_RUN[0..2] and DM_LAST[0..2] [6 x 32] (06 R139) reset 0 -/
  run     : List Nat
  last    : List Nat
  /-- DM_LAST_END [32] (06 R139) reset 0 -/
  lastEnd : Nat
  /-- maximum-demand table: key 4t + j, value and time [27 x 64] (06 R137, R139) reset 0, or as saved -/
  max     : Tab (Nat × Nat)
  /-- WARN active [1] (06 R141) reset 0 -/
  warn    : Bool
  /-- TRIPPED, SUPPRESSED [2 x 1] (06 R139, R142) reset 0 -/
  tripped : Bool
  suppr   : Bool
  /-- trip re-armed, consecutive slices at or above TRIP (06 R142) reset armed, 0 -/
  armed   : Bool
  hits    : Nat
  /-- device time of the trip in ticks [48] and whether its interval has ended (06 R143) reset 0 -/
  tripAt  : Nat
  tripEnd : Bool
  /-- RECLOSES and the local day they count on [4 + 16] (06 R139, R143) reset 0 -/
  recl    : Nat
  reclDay : Nat
  /-- a demand end recorded for the slice (06 R155) reset none -/
  due     : Option DemEnd
  /-- a splice of the isle's entry took effect at the running boundary (06 R138) reset 0 -/
  cut     : Bool
  /-- DM_STATUS as shown: that of the last demand slice [12] (06 R139) reset 0 -/
  vStat   : Nat
  deriving DecidableEq, Repr

def Demand.init : Demand :=
  { cur := [0, 0, 0], subs := [], opened := false, since := 0, short := false, interr := false, partl := false,
    run := [0, 0, 0], last := [0, 0, 0], lastEnd := 0, max := [], warn := false, tripped := false, suppr := false,
    armed := true, hits := 0, tripAt := 0, tripEnd := false, recl := 0, reclDay := 0, due := none, cut := false, vStat := 0 }

/-- A load-profile record (06_billing R145). -/
structure ProfRec where
  /-- SEQ, END [2 x 32] (06 R145) reset none -/
  seq : Nat
  fin : Nat
  /-- CH0, CH1 [2 x 24] and FLAGS [16] (06 R145) reset none -/
  ch0 : Nat
  ch1 : Nat
  flags : Nat
  deriving DecidableEq, Repr

/-- Load profile of one isle (06_billing R144 to R147). -/
structure Profile where
  /-- SEQ of the next record [32] (06 R144) reset 0, or as saved -/
  seq   : Nat
  /-- quanta carried to the two channels in the open interval (06 R144) reset 0, or as saved -/
  q0    : Nat
  q1    : Nat
  /-- flags gathered over the open interval (06 R145) reset 0, or as saved -/
  flags : Nat
  /-- interval ends recorded for the slice: END, flags, gap count (06 R144, R147) reset empty -/
  due   : List (Nat × Nat × Nat)
  /-- records up to this END carry TIME_STEPPED after a backward step (06 R153) reset none -/
  mark    : Option Nat
  /-- the interval opened short (06 R138, R144) reset 0 -/
  opened  : Bool
  /-- the records held in the PROFILE region, oldest first (06 R146) reset empty, or as stored -/
  held  : List ProfRec
  deriving DecidableEq, Repr

def Profile.init : Profile := { seq := 0, q0 := 0, q1 := 0, flags := 0, due := [], mark := none, opened := false, held := [] }

/-- A billing-period close recorded at a boundary (06_billing R148, R155). -/
structure CloseRec where
  /-- device time [32 + 16] and local second [32] of the close (06 R148, R150) reset none -/
  secs   : Nat
  tick   : Nat
  localS : Nat
  /-- MANUAL and LATE of SN_FLAGS [2 x 1] (06 R150) reset none -/
  manual : Bool
  late   : Bool
  deriving DecidableEq, Repr

/-- A billing-period snapshot (06_billing R150). -/
structure Snapshot where
  /-- SN_CLOSE [32] (06 R150) -/
  close  : Nat
  /-- tick-of-second of the close boundary, 0-15,999 [16] (07 R171) -/
  tick   : Nat
  /-- SN_LOCAL, SN_PERIOD [2 x 32] (06 R150) -/
  localS : Nat
  period : Nat
  /-- SN_FLAGS bits 4:0 [32] (06 R150) reset 0 -/
  flags  : Nat
  /-- billing registers and maximum-demand table as closed (06 R149, R150) -/
  regs   : Tab BReg
  max    : Tab (Nat × Nat)
  deriving DecidableEq, Repr

/-- What the utility view tells of a partner's reads and leaks (05_utility_isles R124). -/
structure UtilView where
  /-- LEAK, REVERSE, REBASELINED [3 x 1] (05 R124) reset 0 -/
  leak    : Bool
  reverse : Bool
  rebased : Bool
  /-- baseline, mL [64], and hours of the leak run [16] -/
  base    : Nat
  hours   : Nat
  deriving DecidableEq, Repr

def UtilView.init : UtilView := { leak := false, reverse := false, rebased := false, base := 0, hours := 0 }

/-- Utility isle values (05_utility_isles). -/
structure Utility where
  /-- partner baseline, mL, and its read time [64 + 32] (05 R111, R124) reset none, or as saved -/
  base    : Option Nat
  baseAt  : Nat
  /-- reverse-volume baseline, mL (05 R113) reset none, or as saved -/
  revBase : Option Nat
  /-- the next read rebaselines (05 R112) reset 0 -/
  rebase  : Bool
  /-- the partner last bound to the isle (05 R112) reset none, or as saved -/
  bound   : Option Nat
  /-- volume of the running device-time hour, mL, and minimum of the run (05 R114) reset 0 -/
  hourVol : Rat
  leakMin : Nat
  /-- hours since 2000 with unmetered frames or a refused delta, not yet judged (05 R114) reset empty -/
  badHours : List Nat
  /-- LEAK_RATE and LEAK_HOURS, each with the hour from which it applies, oldest first (05 R120) reset empty -/
  leakPar : List (Nat × Nat × Nat)
  /-- UT_LEAK_HOURS and LEAK [16 + 1] (05 R114, R124) reset 0 -/
  leakRun : Nat
  leak    : Bool
  /-- REVERSE, SENSOR_FAULT, NO_TEMP_HISTORY, REBASELINED [4 x 1] (05 R124) reset 0 -/
  reverse : Bool
  sensor  : Bool
  noHist  : Bool
  rebased : Bool
  /-- UT_THETA_S, UT_THETA_R, 0.001 degC [2 x 32 signed] (05 R124) reset 0 -/
  thS     : Int
  thR     : Int
  /-- UT_K (05 R117, R124) reset 0 -/
  k       : Rat
  /-- UT_VOL_FRAME, mL [32] (05 R124) reset 0 -/
  volF    : Nat
  /-- running heat sums S, heating and cooling parts, and count m (05 R117) reset 0, or as saved -/
  sHeat   : Rat
  sCool   : Rat
  m       : Nat
  /-- FAULT_TIME in 0.2 s [32] (05 R116, R124) reset 0 -/
  fault   : Nat
  /-- temperatures latched for the frame that just ended, with their fault (05 R117) reset 0 -/
  thSF    : Int
  thRF    : Int
  badF    : Bool
  /-- temperatures in force when the running frame was cut by a power fail, with their fault (05 R117, 09 R224) reset 0, faulty -/
  thSN    : Int
  thRN    : Int
  badN    : Bool
  /-- the reverse reads of the last closed frame (05 R113) reset 0, none -/
  revNzF  : Bool
  revEndF : Option Bool
  /-- what pulses and reads brought asleep, by frame number (05 R110, R111, 10 R251) reset empty -/
  asleep  : Tab Bank
  /-- the view's values at the end of frame F, and as shown (05 R124) reset 0 -/
  viewF   : UtilView
  view    : UtilView
  deriving DecidableEq, Repr

def Utility.init : Utility :=
  { base := none, baseAt := 0, revBase := none, rebase := true, bound := none, hourVol := 0, leakMin := 0, badHours := [], leakPar := [], leakRun := 0,
    leak := false, reverse := false, sensor := false, noHist := false, rebased := false, thS := 0, thR := 0, k := 0,
    volF := 0, sHeat := 0, sCool := 0, m := 0, fault := 0, thSF := 0, thRF := 0, badF := false, thSN := 0, thRN := 0, badN := true,
    revNzF := false, revEndF := none, asleep := [], viewF := .init, view := .init }

/-- One hour of the harmonic order profile (04_isles_windows R99). -/
structure HxRec where
  /-- hour of device time since 2000 [32] (04 R99) reset 0 -/
  hour : Nat
  /-- exported energy by order 2-63, quanta (04 R99) reset 0 -/
  e    : Tab Rat
  /-- GAP and PARTIAL [2 x 1] (04 R99) reset 1, 0 -/
  gap  : Bool
  partl : Bool
  deriving DecidableEq, Repr

def HxRec.init : HxRec := { hour := 0, e := [], gap := true, partl := false }

/-- The running state of one isle, 0-127 (09_store R224). -/
structure IsleSt where
  /-- even and odd frame-pending banks (01 R18, 04 R83) reset 0, or as saved -/
  bankE   : Bank
  bankO   : Bank
  /-- values in force during the frame being closed and the frame being metered (01 R20, R22) reset 0 -/
  cfgF    : IsleCfg
  cfgN    : IsleCfg
  /-- fine accumulators by quantity code 0-11 (04 R88) reset 0, or as saved -/
  fine    : Tab Fine
  /-- billing registers, key 16t + q [9 x 12 x 64] (06 R125, R126) reset 0, or as saved -/
  regs    : Tab BReg
  /-- carried energy of the last closed frame by slot, 2^-16 fine LSB (06 R136) reset 0 -/
  carried : List Int
  /-- quanta carried to the totals in the last closed frame, by code (06 R144) reset 0 -/
  quanta  : Tab Nat
  /-- demand and load profile (06 R136, R144) reset as Demand, Profile -/
  dem     : Demand
  prof    : Profile
  /-- LAST_CLOSED, local seconds [32] (06 R148, BV_LAST_CLOSED) reset 0, or from PARAMS record 3 -/
  lastClosed : Nat
  /-- BV_PERIOD [32] (06 R130) reset 0, or as saved -/
  period  : Nat
  /-- a STEP, and a power fail, fell within the period (06 R150) reset 0 -/
  pStep   : Bool
  pFail   : Bool
  /-- closes recorded for the slice (06 R155) reset empty -/
  closes  : List CloseRec
  /-- the newest 24 snapshots, newest first (06 R149) reset empty, or as stored -/
  snaps   : List Snapshot
  /-- the running hour and the newest 24 hourly records (04 R99) reset empty -/
  hxNow   : HxRec
  hx      : List HxRec
  /-- water and heat (05 R110 to R120) reset as Utility -/
  util    : Utility
  /-- TYPE, QUANTUM_X10 and MODULUS under which this state was kept, 0 none [8] (06 R129) reset 0, or as saved -/
  attr    : Nat
  /-- BV_CLOSED, BV_CLOSED_TICK [32 + 16] (06 R130) reset 0 -/
  closedS : Nat
  closedT : Nat
  /-- ISLE_STATUS bits 10:1 [32] (04 R91) reset 0 -/
  status  : Nat
  /-- ISLE_STICKY [11] (04 R91) reset 0 -/
  sticky  : Nat
  /-- the values ISLE_EP, ISLE_EQ and ISLE_S read, held in 2^-16 fine LSB [3 x 80] (04 R91) reset 0 -/
  vEp     : Int
  vEq     : Int
  vS      : Nat
  /-- ISLE_CREEP_FRAMES_P and _Q, saturating [2 x 32] (04 R91) reset 0 -/
  crP     : Nat
  crQ     : Nat
  /-- discarded |EP|, 2^-16 fine LSB (04 R86, R91) reset 0 -/
  disc    : Nat
  /-- ISLE_NRMS [32] (04 R91) reset 0 -/
  nrms    : Nat
  /-- ISLE_TICKS [2 x 16] (04 R91) reset 0 -/
  vNm     : Nat
  vUnm    : Nat
  /-- mean square of the per-tick current sum of the last closed frame (12 R307) reset 0 -/
  isumMs  : Rat
  /-- mean export power of the last closed frame carried A-, in 2^-16 fine LSB, and N_m (12 R307 REVERSE) reset 0 -/
  amCarr  : Int
  /-- the last closed frame was closed after power fail (04 R91 INTERRUPTED) reset 0 -/
  interr  : Bool
  deriving DecidableEq, Repr

def IsleSt.init : IsleSt :=
  { bankE := .zero, bankO := .zero, cfgF := .init, cfgN := .init, fine := [], regs := [], carried := [0, 0, 0],
    quanta := [], dem := .init, prof := .init, lastClosed := 0, period := 0, pStep := false, pFail := false, closes := [],
    snaps := [], hxNow := .init, hx := [], util := .init, attr := 0, closedS := 0, closedT := 0, status := 0, sticky := 0, vEp := 0,
    vEq := 0, vS := 0, crP := 0, crQ := 0, disc := 0, nrms := 0, vNm := 0, vUnm := 0, isumMs := 0, amCarr := 0,
    interr := false }

/-! ## Events and knots -/

/-- An event record (12_events_tamper R293). -/
structure EventRec where
  /-- SEQ, TIME [2 x 32], TICK [16] (12 R293) reset none -/
  seq    : Nat
  secs   : Nat
  tick   : Nat
  /-- CODE bits 11:0 [12] (12 R293) reset none -/
  code   : Nat
  /-- CODE bits 15:12 [4] (12 R293) reset none -/
  flags  : Nat
  /-- ORIGIN [16] (12 R293) reset none -/
  origin : Nat
  /-- COUNT [16], FIRST, LAST [2 x 32] (12 R293) reset none -/
  count  : Nat
  first  : Nat
  last   : Nat
  /-- DETAIL [64] (12 R293) reset none -/
  detail : List Byte
  deriving DecidableEq, Repr

/-- A knot entry (12_events_tamper R301). -/
structure Knot where
  /-- KN_STATE.STATE: 0 FREE, 1 OPEN, 2 CLOSED [2] (12 R301) reset 0 -/
  state  : Nat
  /-- SUSPECT, QUIET, EARLY, CONTINUED, OVERFLOW [5 x 1] (12 R301) reset 0 -/
  suspect : Bool
  quiet  : Bool
  early  : Bool
  cont   : Bool
  ovf    : Bool
  /-- QUALIFIER [8], CODE [12], ORIGIN [16] (12 R301) reset 0 -/
  qual   : Nat
  code   : Nat
  origin : Nat
  /-- KN_COUNT [32], KN_FIRST [32], KN_LAST [32], KN_SEQ [32] (12 R301) reset 0 -/
  count  : Nat
  first  : Nat
  last   : Nat
  seq    : Nat
  /-- TIME and TICK of the first report (12 R293) reset 0 -/
  secs   : Nat
  tick   : Nat
  /-- run ticks of the first and last report, negative before power-up (12 R298) reset 0 -/
  at0    : Int
  at1    : Int
  /-- KN_PORTS [32] (12 R301) reset 0 -/
  ports  : Nat
  /-- the reporters seen, and the ranges held, ascending [16 + 8 x 32] (12 R299) reset empty -/
  seen   : List Nat
  ranges : List (Nat × Nat)
  /-- detail of the first report (12 R293, R299) reset empty -/
  detail : List Byte
  /-- KN_EXTRA [32] (12 R301) reset 0 -/
  extra  : Nat
  deriving DecidableEq, Repr

def Knot.free : Knot :=
  { state := 0, suspect := false, quiet := false, early := false, cont := false, ovf := false, qual := 0, code := 0,
    origin := 0, count := 0, first := 0, last := 0, seq := 0, secs := 0, tick := 0, at0 := 0, at1 := 0, ports := 0,
    seen := [], ranges := [], detail := [], extra := 0 }

/-- A notification entry (12_events_tamper R305). -/
structure Notice where
  /-- KIND [8], KNOT [16], SEQ [32] (12 R305) reset none -/
  kind : Nat
  knot : Nat
  seq  : Nat
  deriving DecidableEq, Repr

/-- The running state (09_store R224): what a save image holds. -/
structure Running where
  /-- running state of the isles, by isle (09 R224) reset empty, or as saved -/
  isles    : Tab IsleSt
  /-- parity and number of the frame being metered (01 R18) reset 0 -/
  frame    : Nat
  /-- frame F has outstanding slices, and the slice offset reached (01 R22) reset 0 -/
  open_    : Bool
  off      : Nat
  /-- device time of the boundary that ends frame F (06 R130) reset 0 -/
  endS     : Nat
  endT     : Nat
  /-- frame F was cut by power fail (01 R22) reset 0 -/
  cut      : Bool
  /-- the boundary b that ends the interrupted frame is pending (06 R156) reset none -/
  pendB    : Option (Nat × Nat)
  /-- EVT_SEQ, SEQ of the last logged record [32] (12 R295, 15 R383) reset 0, or as saved -/
  evtSeq   : Nat
  /-- records logged and not yet written to EVENTS (12 R295) reset empty -/
  unwritten : List EventRec
  /-- the knot table, 0-255 (12 R300) reset FREE, or as saved -/
  knots    : Tab Knot
  /-- keys of knots closed by the one-hour limit (12 R298) reset empty -/
  contKeys : List (Nat × Nat × Nat)
  /-- capture time of the save [32 + 16] (09 R225) reset 0 -/
  capS     : Nat
  capT     : Nat
  /-- run tick of the capture, for the knot windows (12 R298) reset 0 -/
  capRun   : Nat
  /-- DEAD_PCT in force in frame F, and at the capture [2 x 6] (01 R20, 10 R247) reset 10 -/
  deadF    : Nat
  deadN    : Nat
  /-- the clock's ticks at a changed ratio in frame F and in the running frame (01 R13) reset 0 -/
  fastF    : Nat
  slowF    : Nat
  fastN    : Nat
  slowN    : Nat
  /-- CLOSE_NOW sets and a current offset that wait for the next frame boundary (06 R148, R152, R156) reset 0, none -/
  closeNow : Nat
  newOff   : Option Int
  /-- journal transactions with profile records not yet written (09 R224) reset empty -/
  queue    : List (List (Nat × List Byte))
  /-- what the outstanding slices use of the straits, elements and lanes (01 R22) reset empty -/
  mStraits : Tab StraitSt
  mElems   : Tab ElemSt
  mLanes   : Tab LaneSt
  deriving DecidableEq, Repr

def Running.init : Running :=
  { isles := [], frame := 0, open_ := false, off := 0, endS := 0, endT := 0, cut := false, pendB := none, evtSeq := 0,
    unwritten := [], knots := [], contKeys := [], capS := 0, capT := 0, capRun := 0, deadF := 10, deadN := 10, fastF := 0, slowF := 0,
    fastN := 0, slowN := 0, closeNow := 0, newOff := none, queue := [], mStraits := [], mElems := [], mLanes := [] }

/-! ## Store -/

/-- A side word (09_store R204): TAG, held as its exclusive-or with the CRC of what the tag covers as stored, and PENDING with
PAGE. A tile without an entry has a valid tag. -/
structure SideWord where
  /-- TAG as its difference from the CRC of what it covers [32] (09 R204) reset 0 -/
  dif  : Word
  /-- PENDING, PAGE [1 + 8] (09 R204) reset 0 -/
  pend : Bool
  page : Nat
  deriving DecidableEq, Repr

/-- One copy of a twin record (09_store R215). -/
structure Copy (α : Type) where
  /-- SEQ [32] (09 R215) reset none -/
  seq  : Nat
  /-- the record (09 R215) reset none -/
  data : α
  /-- the copy is complete: no write of it was cut [1] (09 R217) reset none -/
  good : Bool
  deriving DecidableEq, Repr

/-- A twin record: copies A and B, none when empty (09_store R215 to R218). -/
structure Twin (α : Type) where
  /-- copies A and B (09 R215) reset none -/
  a : Option (Copy α)
  b : Option (Copy α)
  deriving DecidableEq, Repr

def Twin.empty {α : Type} : Twin α := { a := none, b := none }

/-- A save image (09_store R225). -/
structure SaveImg where
  /-- SAVE_SEQ [32], KIND [8] (09 R225) reset none -/
  seq  : Nat
  kind : Nat
  /-- the running state (09 R224) reset none -/
  run  : Running
  /-- of a last gasp: latch seconds and the straits live at the latch, for a start whose backup register file is lost
  [32, 16] (10 R258) reset none -/
  latch : Nat
  live  : List Nat
  deriving DecidableEq, Repr

/-- A journal transaction (09_store R220, R221): its target pages with their new bytes, and the job it ends. -/
structure JTxn where
  /-- target pages with their new bytes (09 R220) reset none -/
  pages : List (Nat × List Byte)
  /-- the job whose transaction it is [16] (09 R221) reset none -/
  job   : Option Nat
  deriving DecidableEq, Repr

/-- A transaction found in the ring at power-up (09_store R220, R222). -/
structure JEntry where
  /-- TXN_SEQ [32] (09 R220) reset none -/
  seq   : Nat
  /-- the header tile's place in the ring; body tiles follow (09 R220) reset none -/
  pos   : Nat
  /-- STATE 0x01 PREPARED or 0x03 COMMITTED [8] (09 R220) reset none -/
  state : Nat
  /-- page address, OLD, NEW, and whether each body image is readable (09 R220) reset none -/
  pages : List (Nat × List Byte × List Byte × Bool)
  deriving DecidableEq, Repr

/-- What a reserve-guarded write holds (09_store R219). -/
inductive RgWrite where
  /-- slot states of an invalidation, clearing the mask bits when written (13 R335) -/
  | slots (mask : BitVec 64)
  /-- the monotonic counter for a SIGN_READING or ATTEST job (13 R344) -/
  | counter (job : Nat)
  /-- a re-split of the root (13 R332) -/
  | resplit
  /-- the seal-state record (07 R161) -/
  | sealRec
  /-- the SLEEP-entry save (10 R252) -/
  | sleepSave
  /-- the authority record, for an AUTH_INSTALL job (13 R338) -/
  | authority (job : Nat)
  /-- the slot or root records of a KEY_INSTALL, KEY_RENEW or ROOT_REGENERATE job (13 R330) -/
  | keys (job : Nat)
  deriving DecidableEq, Repr

/-- A page write in flight in this tick (09_store R212): its words in write order with their old bytes, its
tile, and the side word a power cut leaves; no tile in the TN3003 area. -/
structure PageWrite where
  /-- store address and old bytes of each 8-byte word (09 R205, R212) reset none -/
  words : List (Nat × List Byte)
  /-- the tile, none in the TN3003 area, and the side word a cut leaves (09 R212) reset none -/
  tile  : Option Nat
  side  : SideWord
  deriving DecidableEq, Repr

structure Store where
  /-- MRAM bytes [64 MiB x 8] (09 R200) reset 0 as delivered, then kept -/
  mram    : Tab Byte
  /-- side words by tile [65,536 x 64] (09 R204) reset valid tags as delivered, then kept -/
  side    : Tab SideWord
  /-- working SRAM bytes [8 MiB x 8] (09 R202) reset DESIGN CHOICE 0 (log 2) -/
  sram    : Tab Byte
  /-- SRAM tag array, entries that differ from the tile's own CRC [8,192 x 32] (09 R207) reset DESIGN CHOICE good (log 2) -/
  sramBad : Tab Word
  /-- check bytes of the TN3003 area, by group address [8 each] (09 R213) reset 0 as delivered -/
  check   : Tab Byte
  /-- journal transactions waiting, oldest first (09 R221) reset empty -/
  jqueue  : List JTxn
  /-- interrupted transactions in the ring (09 R222) reset empty -/
  ring    : List JEntry
  /-- TXN_SEQ of the last transaction [32], and the ring tile after its last one (09 R220) reset 0, kept -/
  txnSeq  : Nat
  jpos    : Nat
  /-- page write in flight in this tick (09 R212) reset none -/
  flight  : Option PageWrite
  /-- reserve-guarded writes waiting, oldest first (09 R219) reset empty -/
  rgq     : List RgWrite
  /-- the reserve-guarded write in progress (09 R219) reset none -/
  rgRun   : Option RgWrite
  /-- ACCUM twin save, LASTGASP save (09 R225, R226) reset empty, kept -/
  accum   : Twin SaveImg
  /-- LASTGASP save (09 R225) reset empty, kept -/
  gasp    : Option SaveImg
  /-- the archipelago tiles of the last gasp failed at the last power-up (09 R228) reset 0 -/
  gaspBad : Bool
  /-- SAVE_SEQ of the last save [32] (09 R225) reset 0, kept -/
  saveSeq : Nat
  /-- SAVE_NOW placed a save for the next frame boundary; a periodic save is due at offset 736; its captured image (09 R226) reset 0, none -/
  saveAsk : Bool
  saveDue : Bool
  saveCap : Option SaveImg
  /-- SAVE_BUSY, SAVE_LATE, REPLAYED, FROM_PERIODIC, SAVE_LOST [5 x 1] (09 R232) reset 0 -/
  busy    : Bool
  late    : Bool
  replayed : Bool
  fromPer : Bool
  lostSv  : Bool
  /-- STORE_SAVE_TIME, STORE_SAVE_SEQ [2 x 32] (09 R232) reset 0 -/
  svTime  : Nat
  svSeq   : Nat
  /-- STORE_TILE_BAD, STORE_TORN, SECDED_CORR, SECDED_UNCORR, STORE_TWIN_CONFLICT, STORE_REFUSED, saturating [6 x 32] (09 R232) reset 0 -/
  nBad    : Nat
  nTorn   : Nat
  nCorr   : Nat
  nUncorr : Nat
  nConf   : Nat
  nRef    : Nat
  /-- STORE_REPLAY FORWARD and BACK [2 x 16] (09 R232) reset 0 -/
  fwd     : Nat
  back    : Nat
  /-- STORE_LAST_BAD [32] (09 R232) reset 0xFFFF_FFFF -/
  lastBad : Nat
  /-- tiles reported bad since they last verified good, bit 31 set for SRAM (09 R210) reset empty -/
  badSet  : List Nat
  /-- regions 1 to 11 as the last live image placed them: code, flags, base, tiles; empty for the default map (09 R231) reset
  empty, kept -/
  places  : List (Nat × Nat × Nat × Nat)
  /-- PARAMS record 0, the live-image record: legal and binding digest (09 R230) reset empty, kept -/
  liveRec : Twin (List Byte × List Byte)
  /-- PARAMS record 1, stand-ins and failures: lane and ferry, none = failed (02 R55) reset empty, kept -/
  standRec : Twin (List (Nat × Option Nat))
  /-- PARAMS record 2, for each plan which CALENDAR tile is active and which of the two hold a calendar (09 R230) reset empty, kept -/
  calRec  : Twin (List (Bool × Bool × Bool))
  /-- PARAMS record 3, local offset, schedule and LAST_CLOSED of each isle (09 R230) reset empty, kept -/
  timeRec : Twin (Int × List (Nat × Int) × Tab Nat)
  /-- the calibration record: legal digest and LK values (07 R164, R165) reset empty, kept -/
  calibRec : Twin (List Byte × Tab Word)
  /-- partner records to write in the open slices, and those to write after the next periodic save (11 R282) reset empty -/
  ptDirty : List Nat
  ptLazy  : List Nat
  /-- EVENTS: the event records held, oldest first (12 R295) reset empty, kept -/
  events  : List EventRec
  deriving DecidableEq, Repr

/-! ## Power -/

/-- A draw request or grant (10_power R240, R241). -/
structure Draw where
  /-- requester [8] and class 0-6 [3] (10 R240) reset none -/
  who   : Requester
  cls   : Nat
  /-- quanta k, duration d in ticks, run tick of filing (10 R240, R241) reset none -/
  k     : Nat
  d     : Nat
  filed : Nat
  /-- boundaries at which the request was considered [11] (10 R242) reset 0 -/
  seen  : Nat
  /-- for a grant, the run tick at whose boundary it returns (10 R241) reset 0 -/
  until_ : Nat
  deriving DecidableEq, Repr

structure Power where
  /-- power state, PWR_STATUS.STATE [3] (10 R246, R261) reset RUN, held in reset until POWER_UP -/
  mode    : PMode
  /-- pending requests and grants (10 R241) reset empty -/
  reqs    : List Draw
  grants  : List Draw
  /-- charger withholding, CHARGING [1] (10 R235) reset 0 -/
  charging : Bool
  /-- VDD5P_OK [1] (10 R233, R261) reset 0 -/
  vdd5p   : Bool
  /-- V_RES, mV [32] (10 R236, R261) reset 0 -/
  vres    : Nat
  /-- BUDGET_RAISED, LAST_SKIPPED, SUBSCRIBED, DEAD [4 x 1] (10 R261) reset 0 -/
  raised  : Bool
  skipped : Bool
  subscr  : Bool
  dead    : Bool
  /-- consecutive dead frames [3] (10 R247) reset 0 -/
  deadN   : Nat
  /-- PWR_MAX_WAIT [32], PWR_CHECKS [32], PWR_LAST_LATCH [32] (10 R261) reset 0 -/
  maxWait : Nat
  checks  : Nat
  lastLatch : Nat
  /-- host wakes, at most 16, device seconds (10 R249) reset empty -/
  wakes   : List Nat
  /-- run tick until which a host wake keeps RUN or DOZE (10 R249) reset 0 -/
  awake   : Nat
  /-- frame boundaries since NAP or SLEEP entry or the last voltage check (10 R250, R251) reset 0 -/
  idle    : Nat
  /-- the check frame under way (10 R250) reset 0 -/
  check   : Bool
  /-- run tick of the power-fail latch (10 R254, R255) reset none -/
  drainAt : Option Nat
  /-- the last gasp was granted, done or skipped (10 R255, R257) reset 0 -/
  gaspOk  : Bool
  gaspDone : Bool
  /-- CAUSE the next power-up reports, DEV_RESET.CAUSE [4] (16 R389) reset 1 (COLD) -/
  next    : Nat
  /-- CAUSE the next power-up reports, DEV_RESET.CAUSE [4] (16 R389) reset 1 (COLD) -/
  cause   : Nat
  /-- debug asked for by DEBUG_UNLOCK (13 R343) reset 0 -/
  dbgAsk  : Bool
  /-- NAP is entered at the end of the tick, chosen or for a refused SLEEP entry save (10 R248, R252) reset 0 -/
  sleepReq : Bool
  /-- a change that ends SLEEP waits for the next point at which the tick resumes (10 R252, R253) reset 0 -/
  waking  : Bool
  deriving DecidableEq, Repr

/-- A hold on a relay (06_billing R143): kind 0 host, 1 demand, 2 tamper with its source key. -/
structure Hold where
  /-- relay target as an ISLE entry names it [16], kind [2] (06 R143, 11 R278) reset none -/
  target : Nat
  kind   : Nat
  /-- source number: the isle of demand, the source key of a tamper hold, 128 for the host [16] (06 R143, log 50) reset none -/
  source : Nat
  deriving DecidableEq, Repr

/-- A source's count in HOLD (12_events_tamper R317). -/
structure HoldAlarm where
  /-- count, first and last time in HOLD [3 x 32] (12 R317) reset 0 -/
  count : Nat
  first : Nat
  last  : Nat
  deriving DecidableEq, Repr

/-- The backup register file and the backup domain's clock (10_power R254, 12 R317, 16 R392). -/
structure Backup where
  /-- the backup domain kept its contents [1] (10 R233, 16 R389) reset 0 -/
  valid   : Bool
  /-- a latch is recorded, its time, SKIPPED (10 R254, R257) reset 0 -/
  latched : Bool
  latchS  : Nat
  latchT  : Nat
  skipped : Bool
  /-- the busbar was live at the latch, and the live straits (10 R258) reset empty -/
  live    : List Nat
  /-- raises in HOLD by source (12 R317) reset empty -/
  alarms  : Tab HoldAlarm
  /-- pending-WIPE mask [64] (12 R317) reset 0 -/
  wipe    : BitVec 64
  /-- relay holds (11 R278) reset empty -/
  holds   : List Hold
  /-- PIN flag and WIPE_SLOT of each source, written at go-live (12 R317) reset empty -/
  policy  : List (Nat × Bool × Option Nat)
  /-- levels sampled last in HOLD: COVER_N, TCOVER_N low, seal open, VBAT excursion (12 R317) reset 0 -/
  pins    : List Nat
  /-- TIME_TICK.SET kept with device time [1] (16 R397) reset 0 -/
  set     : Bool
  /-- sources raised at the latch with deferred actions (12 R315) reset empty -/
  deferred : List Nat
  deriving DecidableEq, Repr

/-! ## Ports and partners -/

/-- What a bus transaction is for (11_ports_partners R266). -/
inductive TxKind where
  | poll | probe | readJob (job : Nat) | relay (target : Nat) (cls : Nat) | discovery
  deriving DecidableEq, Repr

/-- The frame a transaction sends next or waits on (11 R269, R274, R280, R285). -/
inductive TxStep where
  | nke | select | reqUd2 | modbus (m : Nat) | coilWrite | coilRead | discNke | discSelect | discReq | discModbus
  deriving DecidableEq, Repr

/-- A bus transaction in progress (11_ports_partners R266). -/
structure Txn where
  /-- kind, partner [12], step (11 R266, R269) reset none -/
  kind    : TxKind
  partner : Option Nat
  step    : TxStep
  /-- tries so far, telegram of a series [8 + 8] (11 R269, R270) reset none -/
  tries   : Nat
  telegram : Nat
  /-- the frame is on the bus and its answer awaited (11 R266) reset none -/
  sent    : Bool
  /-- normalised values gathered, code and value (11 R270) reset none -/
  vals    : List (Nat × Int)
  /-- raw telegram for a PARTNER_READ (11 R272) reset empty -/
  raw     : List Byte
  /-- a quantity of the list was missing [1] (11 R270) reset 0 -/
  missing : Bool
  /-- codes whose value saturated: they count as missing and are not delivered (11 R270) reset none -/
  sat     : List Nat
  /-- isle the partner was bound to when the read began (11 R290) reset none -/
  bound   : Option Nat
  deriving DecidableEq, Repr

/-- A discovery in progress (11_ports_partners R285). -/
structure Disc where
  /-- job [16], method [8] (11 R285) reset none -/
  job    : Nat
  method : Nat
  /-- next and last address [64 each] (11 R285) reset none -/
  next   : Nat
  last   : Nat
  /-- secondary search: masks still to probe, each with its position (11 R285) reset none -/
  todo   : List (List Nat × Nat)
  /-- probed and found [2 x 16], indices found, whether the table was full (11 R285) reset 0 -/
  probed : Nat
  found  : Nat
  added  : List Nat
  full   : Bool
  deriving DecidableEq, Repr

/-- Optical exchange state (11_ports_partners R281, 07 R168). -/
inductive Opto where
  | idle | identify | identified | readout (z : Nat)
  deriving DecidableEq, Repr

/-- One port, 0-31. -/
structure PortSt where
  /-- transaction in progress, PORT_STATUS.FRAME (11 R264, R266) reset none -/
  txn     : Option Txn
  /-- the transaction that a relay command overtook between its frames (11 R266) reset none -/
  susp    : Option Txn
  /-- run tick from which the bus counts as idle, and at which the answer timeout falls (11 R266, R269) reset 0 -/
  idleAt  : Nat
  dueAt   : Nat
  /-- relay commands waiting: targets (11 R266) reset empty -/
  relayQ  : List (Nat × Nat)
  /-- polls and read jobs waiting: due second, partner, kind (11 R266, R286) reset empty -/
  pollQ   : List (Nat × Nat × TxKind)
  /-- discovery in progress (11 R285) reset none -/
  disc    : Option Disc
  /-- BACKOFF in force, qualifier of its knot, last probed partner, second of the last probe (11 R288) reset 0 -/
  backoff : Bool
  bkQual  : Nat
  probed  : Nat
  probeAt : Nat
  /-- device second at which the last backoff ended (11 R288) reset 0 -/
  bkEndAt : Nat
  /-- LINE_FAULT, NO_5V [2 x 1] (11 R264) reset 0 -/
  fault   : Bool
  no5v    : Bool
  /-- PV_FRAMES, PV_REPLIES, PV_TIMEOUTS, PV_ERRORS, PV_POLL_LATE, saturating [5 x 32] (11 R292) reset 0 -/
  frames  : Nat
  replies : Nat
  timeouts : Nat
  errors  : Nat
  pollLate : Nat
  /-- PV_DISCOVERY PROBED and FOUND [2 x 16] (11 R292) reset 0 -/
  dProbed : Nat
  dFound  : Nat
  /-- PV_PULSE[0..3] [4 x 32], PV_GLITCH [4 x 8] (11 R277, R292) reset 0 -/
  pulses  : List Nat
  glitch  : List Nat
  /-- PULSE inputs: ticks ON and ticks OFF without a break up to the last sample, saturating, and the running ON period may
  still count as a pulse [4 x (12 + 12 + 1)] (11 R277) reset 0 -/
  onRun   : List Nat
  offRun  : List Nat
  onOk    : List Bool
  /-- the frame sent last [bytes] (11 R269, R274) reset empty -/
  frame   : List Byte
  /-- relay outputs open, MISMATCH [4 x 1] (11 R278, R292) reset 0 -/
  out     : List Bool
  mism    : List Bool
  /-- the change is being repeated after a mismatch [2 x 1] (11 R279) reset 0 -/
  again   : List Bool
  /-- run tick from which the feedback must show the target (11 R279) reset 0 -/
  fbAt    : List Nat
  /-- optical exchange, baud in force (11 R281) reset idle, 300 -/
  opto    : Opto
  optoBd  : Nat
  /-- run tick of the optical request or acknowledgement (11 R281) reset 0 -/
  optoAt  : Nat
  /-- readout latched at offset 736, and the answer or frame to send (07 R169, 11 R275) reset empty -/
  latch   : Bool
  answer  : List Byte
  /-- a Modbus request whose answer is not formed yet (11 R275) reset none -/
  ask     : List Byte
  /-- partners whose polls were missed within KNOT_WINDOW: run tick, partner, qualifier (12 R302) reset empty -/
  missed  : List (Nat × Nat × Nat)
  deriving DecidableEq, Repr

def PortSt.init : PortSt :=
  { txn := none, susp := none, idleAt := 0, dueAt := 0, bkEndAt := 0, ask := [], relayQ := [], pollQ := [], disc := none, backoff := false, bkQual := 0, probed := 0, probeAt := 0,
    fault := false, no5v := false, frames := 0, replies := 0, timeouts := 0, errors := 0, pollLate := 0, dProbed := 0,
    dFound := 0, pulses := [0, 0, 0, 0], glitch := [0, 0, 0, 0],
    onRun := [0, 0, 0, 0], offRun := [0, 0, 0, 0], onOk := [false, false, false, false], frame := [], out := [false, false], mism := [false, false],
    again := [false, false], fbAt := [0, 0], opto := .idle, optoBd := 300, optoAt := 0, latch := false, answer := [],
    missed := [] }

/-- Partner states (11_ports_partners R283). -/
inductive PtState where
  | free | candidate | enrolled | silent | lost | retired
  deriving DecidableEq, Repr

/-- One partner, 0-4,095 (11_ports_partners R291). -/
structure Partner where
  /-- STATE [3], SECONDARY [1], PORT [5], KIND [3], REPLACED [1], QTY_MISSING [1] (11 R291) reset 0, or as stored -/
  state   : PtState
  second  : Bool
  port    : Nat
  kind    : Nat
  replaced : Bool
  qtyMiss : Bool
  /-- ISLE [8], PRIMARY [8] (11 R291) reset 0xFF, or as stored -/
  isle    : Nat
  primary : Nat
  /-- PT_ID [32], MAN [16], VERSION [8], MEDIUM [8] (11 R291) reset 0, or as stored -/
  ident   : Nat
  man     : Nat
  ver     : Nat
  medium  : Nat
  /-- PT_LAST_SEEN [32], PERIOD [24], MISSED [8], PT_NEXT_DUE [32] (11 R291) reset 0, or as stored -/
  seen    : Nat
  period  : Nat
  missed  : Nat
  due     : Nat
  /-- STATUS [8], ACCESS [8], PT_ENROLLED [32] (11 R291) reset 0, or as stored -/
  status  : Nat
  access  : Nat
  enrolled : Nat
  /-- the latest value of each quantity, in the order found (11 R270, R291) reset empty -/
  vals    : List (Nat × Int)
  /-- first contact since enrolment, LOST or power-up; FCB of the next REQ_UD2 (11 R269) reset 1, 1 -/
  first   : Bool
  fcb     : Bool
  /-- EV_RELAY_UNREACHED logged in this episode (11 R280) reset 0 -/
  unreach : Bool
  /-- run tick of the last coil write and read-back pair (11 R280) reset 0 -/
  coilAt  : Nat
  deriving DecidableEq, Repr

def Partner.free : Partner :=
  { state := .free, second := false, port := 0, kind := 0, replaced := false, qtyMiss := false, isle := 0xFF, primary := 0xFF,
    ident := 0, man := 0, ver := 0, medium := 0, seen := 0, period := 0, missed := 0, due := 0, status := 0, access := 0,
    enrolled := 0, vals := [], first := true, fcb := true, unreach := false, coilAt := 0 }

/-! ## Events, tamper, vault, display, link -/

structure Events where
  /-- the notification queue, 128 entries, and the released entries (12 R305, EVT_NOTIFY) reset empty -/
  queue    : List Notice
  released : List Notice
  /-- device second and entries released in it (12 R305) reset 0 -/
  relSec   : Nat
  relN     : Nat
  /-- EVT_DROPPED, saturating [32]; drops since the last overflow entry (12 R305, 15 R383) reset 0 -/
  dropped  : Nat
  drops    : Nat
  /-- events held without a SEQ during steps 1-6 (16 R395) reset empty -/
  held     : List EventRec
  holding  : Bool
  deriving DecidableEq, Repr

/-- A tamper ledger entry (12_events_tamper R309, R310). -/
structure Ledger where
  /-- RAISED, FLAGGED, PIN_LATCH, DISPLAY_LATCH, TESTING [5 x 1], TEST [2] (12 R310) reset 0, kept in TAMPER -/
  raised  : Bool
  flagged : Bool
  pin     : Bool
  disp    : Bool
  testing : Bool
  test    : Nat
  /-- TL_COUNT, TL_FIRST, TL_LAST, TL_DURATION, TL_TEST_TIME [5 x 32] (12 R310) reset 0, kept in TAMPER -/
  count   : Nat
  first   : Nat
  last    : Nat
  dur     : Nat
  testAt  : Nat
  /-- run tick of the latest raise, 0 for one before this power-up (12 R309) reset 0 -/
  since   : Nat
  /-- frames or seconds without the condition, towards a clear (12 R306) reset 0 -/
  quiet   : Nat
  deriving DecidableEq, Repr

def Ledger.init : Ledger :=
  { raised := false, flagged := false, pin := false, disp := false, testing := false, test := 0, count := 0, first := 0,
    last := 0, dur := 0, testAt := 0, since := 0, quiet := 0 }

structure Tamper where
  /-- ledger entries: device source s at s, isle source s of isle n at 256 + 8n + (s - 0x20) (12 R310) reset 0, kept -/
  ledger  : Tab Ledger
  /-- FREEZE in force [1] (12 R312) reset 0, kept in TAMPER -/
  freeze  : Bool
  /-- the ledger and FREEZE as the TAMPER region holds them, and the records that changed since (12 R309) reset 0, kept; empty -/
  kept    : Tab Ledger
  keptFz  : Bool
  dirty   : List Nat
  /-- sources raised in this tick, answered at its boundary (12 R311) reset empty -/
  fresh   : List Nat
  /-- deferred actions of power-up for the next tick boundary (12 R318) reset empty -/
  defer   : List Nat
  /-- CALSEAL_N, COVER_N, TCOVER_N, MAG_N counted levels [4 x 1] (12 R306, 15 R383 DEV_SEAL.PIN) reset 1 -/
  sealPin : Bool
  cover   : Bool
  tcover  : Bool
  mag     : Bool
  /-- ticks without a break at another level than the counted one, of the four pins in that order, saturating [4 x 8]
  (07 R161) reset 0 -/
  pinRun  : List Nat
  /-- DEV_SEAL_OPENS, saturating [32] (07 R161) reset 0, kept in SEAL -/
  opens   : Nat
  /-- the four seal-state records by SEQ mod 4: sealed, SEQ (09 R219) reset none, kept in SEAL -/
  sealRing : List (Option (Bool × Nat))
  /-- a seal-state record write was refused and is retried (07 R161) reset 0 -/
  sealTry : Bool
  /-- CAL_COUNT, saturating [32] (07 R164) reset 0, kept with the calibration record -/
  calCnt  : Nat
  /-- the monitor test running: source key, its job, run tick of its grant, a real raise counted during it (12 R316) reset none -/
  test    : Option (Nat × Nat × Nat)
  testReal : Option (Nat × Nat)
  deriving DecidableEq, Repr

/-- Vault slot states (13_keys R324). -/
inductive SlotState where
  | empty | live | orphaned | spent | expired
  deriving DecidableEq, Repr

/-- A vault slot (13_keys R330, R347). -/
structure Slot where
  /-- STATE [3] (13 R347) reset 0, kept in VAULT -/
  state  : SlotState
  /-- stored USAGE [5], ATTR [8], PARENT [6], LABEL [8] (13 R329, R330) reset 0, kept in VAULT -/
  usage  : Nat
  attr   : Nat
  parent : Nat
  label  : Nat
  /-- ORIGIN [7] (13 R347) reset 0x7F, kept in VAULT -/
  origin : Nat
  /-- GENERATION [32], USES [24], COUNT_LIMIT [24] (13 R330) reset 0, kept in VAULT -/
  gen    : Nat
  uses   : Nat
  limit  : Nat
  /-- the key material, 16 or 32 bytes, none without (13 R330) reset none, kept encrypted in VAULT -/
  key    : Option (List Byte)
  /-- GCM IV of the stored material, 12 bytes (13 R330) reset empty, kept in VAULT -/
  iv     : List Byte
  /-- VK_CHANGED [32], VK_CAUSE TICK [16] and CAUSE [8] (13 R347) reset 0 -/
  chgS   : Nat
  chgT   : Nat
  cause  : Nat
  /-- a working copy exists, and its mask draw number (13 R333) reset 0 -/
  working : Bool
  mask   : Nat
  deriving DecidableEq, Repr

def Slot.init : Slot :=
  { state := .empty, usage := 0, attr := 0, parent := 0, label := 0, origin := 0x7F, gen := 0, uses := 0, limit := 0,
    key := none, iv := [], chgS := 0, chgT := 0, cause := 0, working := false, mask := 0 }

/-- An open session (13_keys R339, R340). -/
structure Session where
  /-- role [2] and session key [128] (13 R339) reset none -/
  role  : Nat
  key   : List Byte
  /-- last accepted counter [32] (13 R340) reset none -/
  ctr   : Nat
  /-- run tick of the last accepted session transaction (13 R341) reset none -/
  lastT : Nat
  /-- trailers that failed in a row [8] (13 R341) reset 0 -/
  bad   : Nat
  deriving DecidableEq, Repr

structure Vault where
  /-- slots 0-63 (13 R322, R330) reset EMPTY, kept in VAULT -/
  slots   : Tab Slot
  /-- root shares X and Y [2 x 256], none without a root (13 R331) reset none, kept in VAULT -/
  shares  : Option (List Byte × List Byte)
  /-- ROOT_SEQ, RESPLIT_SEQ [2 x 32], monotonic counter [64] (13 R330) reset 0, kept in VAULT -/
  rootSeq : Nat
  resplit : Nat
  mono    : Nat
  /-- SEQ in force of each vault record, by its primary tile [32 each] (13 R330) reset 0, kept in VAULT -/
  seqs    : Tab Nat
  /-- image-authority keys METROLOGY and OWNER [2 x 512] (13 R330) reset absent, kept in VAULT -/
  authM   : Option (List Byte)
  authO   : Option (List Byte)
  /-- ROOT_OK, DEBUG, TRNG_OK, RESPLIT_PENDING [4 x 1] (13 R347) reset 0 -/
  rootOk  : Bool
  debug   : Bool
  trngOk  : Bool
  rspPend : Bool
  /-- the DRBG draw number [64] (13 R319): the model's free-value counter, reset DESIGN CHOICE 0 (log 3) -/
  draw    : Nat
  /-- invalidations latched for the next boundary: slot, cause, source (13 R335) reset empty -/
  inval   : List (Nat × Nat × Nat)
  /-- EMPTY derived slots to derive at the next boundary (13 R325) reset empty -/
  derive  : List Nat
  /-- the open session, SEC_SESSION (13 R339) reset none -/
  session : Option Session
  /-- a session that opens at the next boundary, and a SESSION_CLOSE that ends one there (13 R341, 15 R379) reset none, 0 -/
  joining : Option Session
  leaving : Bool
  /-- a SESSION_OPEN awaiting its proof: role, N_h, N_d, run tick (13 R339) reset none -/
  opening : Option (Nat × List Byte × List Byte × Nat)
  /-- run ticks until which SESSION_OPEN of roles 0-2 returns ST_BUSY (13 R339) reset 0 -/
  lock    : List Nat
  /-- run tick of the last TRNG retry (13 R321) reset 0 -/
  retryAt : Nat
  /-- the vault kept aside while debug is enabled: slots and authority keys (13 R343) reset none -/
  aside   : Option (Tab Slot × Option (List Byte) × Option (List Byte))
  /-- DBG_EN was high at the last reset [1] (13 R337) reset 0 -/
  dbgEn   : Bool
  deriving DecidableEq, Repr

/-- An active update region (14_display R355, R357). -/
structure Region where
  /-- slot 0-15, X, Y, W, H [4 + 4 x 10] (14 R355, R357) reset none -/
  slot : Nat
  x : Nat
  y : Nat
  w : Nat
  h : Nat
  /-- MODE 0 GC, 1 DU, 2 LEGAL [2] (14 R351) reset none -/
  mode : Nat
  /-- activation number, the greater the more recent (14 R355) reset none -/
  order : Nat
  /-- its DISPLAY_UPDATE job [16] (14 R357) reset none -/
  job  : Option Nat
  /-- run tick at whose boundary the region became active (14 R358) reset none -/
  since : Nat
  deriving DecidableEq, Repr

structure Display where
  /-- active regions, at most 16 (14 R357) reset empty -/
  regions : List Region
  order   : Nat
  /-- list and item shown, DSP_STATUS [3 + 6] (14 R364, R365) reset 0 -/
  list    : Nat
  item    : Nat
  /-- device seconds of the last advance and of the last press or host selection; run tick of the last press (14 R364) reset 0 -/
  advAt   : Nat
  pressAt : Nat
  /-- the counted press of SCROLL_N: the run tick at which it counted, and whether its 2 s hold has taken effect; samples in a row
  at the other level [8] (14 R364) reset none, 0 -/
  scroll  : Option (Nat × Bool)
  scrollRun : Nat
  /-- the strip must be rendered at offset 736 (14 R363) reset 0 -/
  dirty   : Bool
  /-- PMIC_EN, run tick at which it rose [1] (14 R350) reset 0 -/
  pmic    : Bool
  pmicAt  : Nat
  /-- run tick at which the last class 1 or 5 grant returned (14 R350) reset 0 -/
  retAt   : Nat
  /-- run tick at which the next panel frame starts, and whether its grant's first frame waits for PMIC_EN (14 R350) reset 0 -/
  nextAt  : Nat
  /-- the running panel frame: run tick of its start, its band, slots of regions found with work (14 R355, R356, R358) reset none -/
  scan    : Option (Nat × Nat × List Nat)
  /-- SD[0..7]: the rows that the last tick of a panel frame drove, with their drive codes [2 each] (14 R348, R349) reset empty -/
  rows    : List (Nat × List Nat)
  /-- DSP_FRAMES, DSP_SKIPPED, saturating [2 x 32] (14 R365) reset 0 -/
  frames  : Nat
  skipped : Nat
  deriving DecidableEq, Repr

/-- A capture slot (04_isles_windows R103, R104). -/
structure CapSlot where
  /-- STATE 0 FREE, 1 FILLING, 2 COMPLETE [2], STRAIT [4], TRIGGER [4], RETRIGGERS [16] (04 R104) reset 0 -/
  state  : Nat
  strait : Nat
  trig   : Nat
  retrig : Nat
  lanes  : List Nat
  /-- CAP_TIME, CAP_TICK, CAP_PRE, CAP_TOTAL, CAP_SEQ (04 R104) reset 0 -/
  secs   : Nat
  tick   : Nat
  pre    : Nat
  total  : Nat
  want   : Nat
  seq    : Nat
  /-- stored samples, oldest tick first, each tick's codes in stored order (04 R104) reset empty -/
  data   : List (List Int)
  deriving DecidableEq, Repr

def CapSlot.free : CapSlot :=
  { state := 0, strait := 0, trig := 0, retrig := 0, lanes := [], secs := 0, tick := 0, pre := 0, total := 0, want := 0,
    seq := 0, data := [] }

/-- Phases of a job (01_archipelago R29). -/
inductive JobPhase where
  | accepted | running | finished
  deriving DecidableEq, Repr

/-- A held job (01_archipelago R29, R30). -/
structure Job where
  /-- job number [16] (01 R29) reset none -/
  num   : Nat
  /-- opcode of its EXEC [16] and its argument bytes (15 R379) reset none -/
  op    : Nat
  args  : List Byte
  /-- role of the session at acceptance, 3 = none (13 R342) reset none -/
  role  : Nat
  /-- waiting, running or finished (01 R29) reset none -/
  phase : JobPhase
  /-- what the job waits for, by its kind: 0 nothing, 1 its reserve-guarded write, 2 offset 736, 3 draw grants, 4 another command (01 R29) reset none -/
  stage : Nat
  /-- class 3 operations still to be granted: duration of each, and the slot each uses (13 R319, R326) reset none -/
  needs : List (Nat × Nat)
  /-- run tick at whose boundary the last granted operation ends (10 R241) reset none -/
  ready : Nat
  /-- the completion of this tick, latched at its boundary: status, result word, result (01 R29) reset none -/
  fin   : Option (Status × Nat × List Byte)
  /-- final status, result word and result (15 R380) reset none -/
  status : Status
  word  : Nat
  result : List Byte
  /-- captured statement (07 R170, 13 R344) reset none -/
  cap   : List Byte
  deriving DecidableEq, Repr

/-- A response on the link (15_host_link R369). -/
structure Response where
  /-- STATUS [8] (15 R369) -/
  status  : Status
  /-- payload bytes (15 R369) -/
  payload : List Byte
  deriving DecidableEq, Repr

/-- A plain register write waiting for the tick boundary (01_archipelago R23). -/
inductive PlainWrite where
  | word (addr : Nat) (v : Word)
  | clear (addr : Nat) (v : Word)
  | bytes (addr : Nat) (data : List Byte)
  deriving DecidableEq, Repr

structure HostLink where
  /-- the host link is up (16 R394) reset 0 -/
  up      : Bool
  /-- the response of the last transaction, none while waiting or lost (15 R369) reset none -/
  resp    : Option Response
  /-- HL_LAST STATUS [8], CMD [8], CRC_ERRORS [16] (15 R383) reset 0 -/
  lastSt  : Nat
  lastCmd : Nat
  crcErr  : Nat
  /-- HL_CAUSE bits 6:1 [7] (15 R383) reset RESET set -/
  cause   : BitVec 7
  /-- causes set in this tick, merged at its boundary after the clears (15 R377) reset 0 -/
  newCause : BitVec 7
  /-- plain writes of the ending tick, in completion order (01 R23) reset empty -/
  plain   : List PlainWrite
  /-- the shadow set and the frozen set, register by register (01 R24) reset empty -/
  shadow  : Tab Word
  frozen  : Option (Tab Word)
  /-- held jobs, at most 32, and the last job number [16] (01 R29) reset empty, 0 -/
  jobs    : List Job
  lastJob : Nat
  /-- ABORT requests latched for the boundary, job numbers (01 R30) reset empty -/
  aborts  : List Nat
  /-- run tick of the last completed host transaction (10 R248) reset 0 -/
  lastTxn : Nat
  /-- a debug unlock or other reset was asked for in this tick (13 R343) reset 0 -/
  dbg     : Bool
  /-- command effects latched for the next boundary: TAMPER_ACK keys, FREEZE_RELEASE, RELAY_HOLD and RELAY_RELEASE as
  target, kind and whether it releases (12 R314, 15 R379) reset empty -/
  acks    : List Nat
  unfreeze : Bool
  relays  : List (Nat × Nat × Bool)
  /-- CLOSE_NOW sets placed for the next frame boundary [128] (06 R148) reset 0 -/
  closeNow : Nat
  deriving DecidableEq, Repr

/-- The live image (08_structure_image). -/
structure Live where
  /-- LIVE_SLOT 0 A, 1 B [2] (08 R192) reset 3 = none -/
  slot   : Nat
  /-- the image bytes in force, splices applied [up to 1,310,720 x 8] (08 R174, R196) reset none -/
  bytes  : List Byte
  /-- base, legal and running digest [3 x 256] (08 R185, R187, R160) reset 0 -/
  base   : List Byte
  legal  : List Byte
  digest : List Byte
  /-- live splice records by section and index, whole records (08 R187, R194) reset empty -/
  splices : List (List Byte)
  deriving DecidableEq, Repr

structure ImageSt where
  /-- the live image (08 R189) reset none -/
  live    : Option Live
  /-- FALLBACK, REASON_A, REASON_B [1 + 8 + 8] (08 R192) reset 0 -/
  fallbk  : Bool
  reasonA : Nat
  reasonB : Nat
  /-- IMG_SPLICE_SEQ [32] (08 R192) reset 0 -/
  spliceSeq : Nat
  /-- pending splice records with their jobs (08 R194, R196) reset empty -/
  pending : List (List Byte × Nat)
  /-- the slot a reload takes at the next frame boundary (08 R190) reset none -/
  reload  : Option Nat
  /-- DEV_CAL_DIGEST [256] (07 R160) reset 0 -/
  calDig  : List Byte
  /-- METERING [1], and metering resumes at the next frame boundary (15 R383, 16 R393) reset 0 -/
  meter   : Bool
  resume  : Bool
  /-- the resumption follows a full image load: the frames since its boundary are unmetered (08 R190) reset 0 -/
  reloaded : Bool
  deriving DecidableEq, Repr

/-! ## Test access (17_electrical_package R412) -/

/-- The states of the test access port's controller, as IEEE 1149.1 names them (PRESUMED, log 77). -/
inductive TapState where
  | testLogicReset | runTestIdle
  | selectDr | captureDr | shiftDr | exit1Dr | pauseDr | exit2Dr | updateDr
  | selectIr | captureIr | shiftIr | exit1Ir | pauseIr | exit2Ir | updateIr
  deriving DecidableEq, Repr

/-- The four instructions (R412). -/
inductive TapInstr where
  | bypass | idcode | sample | extest
  deriving DecidableEq, Repr

/-- The test access port: controller, instruction in force, shift registers of instruction and data (the bit next to TDO first),
update latches of the boundary cells, and TDO, none while high-impedance (17 R412) reset as a port whose power has come up. -/
structure Tap where
  /-- state of the controller [4] (17 R412) reset PRESUMED Test-Logic-Reset (log 77) -/
  at_   : TapState
  /-- instruction in force (17 R412) reset PRESUMED IDCODE (log 77) -/
  instr : TapInstr
  /-- shift registers of instruction and data, the bit next to TDO first (17 R412) reset DESIGN CHOICE empty (log 77) -/
  ir    : List Bool
  dr    : List Bool
  /-- update latches of the boundary cells (17 R412) reset DESIGN CHOICE empty (log 77) -/
  latch : List Bool
  /-- TDO, none while high-impedance [1] (17 R412) reset none -/
  tdo   : Option Bool
  deriving DecidableEq, Repr

def Tap.reset : Tap := { at_ := .testLogicReset, instr := .idcode, ir := [], dr := [], latch := [], tdo := none }

/-- The device: everything but the command queue. -/
structure Dev where
  /-- clock (01 R13, 15 R383) reset as Clock -/
  clk     : Clock
  /-- writable register words in force, by address, each held as its exclusive-or with the register's reset value; an unlisted register holds its reset value [2,560 x 32] (15 R382) reset as R75, R76, R89, R264, R365, R383 give -/
  regs    : Tab Word
  /-- lanes 0-191 and ferries 192-199 (02) reset as LaneSt -/
  lanes   : Tab LaneSt
  /-- ferry rotation (02 R49) reset as Rotation -/
  rot     : Rotation
  /-- straits 0-15 (03) reset as StraitSt -/
  straits : Tab StraitSt
  /-- element slots 0-191, and at 192 + s the missing run of strait s (03, 01 R27) reset as ElemSt -/
  elems   : Tab ElemSt
  /-- tick-budgeted engines 0-8 (01 R26) reset empty -/
  engines : Tab EngineSt
  /-- ticks not yet wholly in the banks, oldest first (01 R26) reset empty -/
  ticks   : List TickRec
  /-- running state (09 R224) reset as Running -/
  run     : Running
  /-- store controller (09) reset as Store -/
  store   : Store
  /-- power and the draw arbiter (10) reset as Power -/
  pwr     : Power
  /-- backup domain (10 R253, R258, 12 R317) reset as Backup -/
  bak     : Backup
  /-- ports 0-31 (11) reset as PortSt -/
  ports   : Tab PortSt
  /-- the partner table, 4,096 entries (11 R282) reset FREE, kept in PARTNERS -/
  partners : Tab Partner
  /-- notifications and held events (12) reset as Events -/
  evt     : Events
  /-- tamper unit (12, 07 R161) reset as Tamper -/
  tam     : Tamper
  /-- security block (13) reset as Vault -/
  vault   : Vault
  /-- display engine (14) reset as Display -/
  dsp     : Display
  /-- capture slots 0-3 and the capture sequence number (04 R103) reset FREE -/
  caps    : Tab CapSlot
  capSeq  : Nat
  /-- host link (15) reset as HostLink -/
  link    : HostLink
  /-- structure image (08) reset as ImageSt -/
  img     : ImageSt
  /-- the RTD excitation runs, and the averager result of the second waits to be taken [2 x 1] (02 R36) reset 0 -/
  rtdOn   : Bool
  rtdDone : Bool
  /-- capture triggers of the running tick: strait, TRIGGER bits, trigger time in ticks (04 R103) reset empty -/
  capReq  : List (Nat × Nat × Nat)
  /-- test access port (17 R412) reset as Tap -/
  tap     : Tap
  deriving DecidableEq, Repr

/-- The whole state of the block. -/
structure State where
  /-- the device -/
  dev     : Dev
  /-- the device as it stood at the start of the running tick: what RD returns (15 R374) reset as dev -/
  seen    : Dev
  /-- commands waiting, first in, first out: the model's own queue, reset empty -/
  pending : List Instr
  deriving DecidableEq, Repr

/-! ## The state right after reset -/

def Clock.reset : Clock :=
  { secs := 0, tick := 0, runTick := 0, frameNo := 0, frameOff := 0, set := false, offset := 0, newOff := none, sched := [],
    pllLock := false, slew := none, step := none, fast := 0, slow := 0, fastF := 0, slowF := 0, slips := 0, step2 := false, evald := false }

def Rotation.reset : Rotation := { running := false, start := 0, ferries := [], lanes := [], ending := none, testAt := none, testing := [] }

def Store.reset : Store :=
  { mram := [], side := [], sram := [], sramBad := [], check := [], jqueue := [], ring := [], txnSeq := 0, jpos := 0, flight := none,
    rgq := [], rgRun := none, accum := .empty, gasp := none, gaspBad := false, saveSeq := 0, saveAsk := false, saveDue := false, saveCap := none, busy := false, late := false,
    replayed := false, fromPer := false, lostSv := false, svTime := 0, svSeq := 0, nBad := 0, nTorn := 0, nCorr := 0,
    nUncorr := 0, nConf := 0, nRef := 0, fwd := 0, back := 0, lastBad := 0xFFFFFFFF, badSet := [], places := [], liveRec := .empty,
    standRec := .empty, calRec := .empty, timeRec := .empty, calibRec := .empty, ptDirty := [], ptLazy := [], events := [] }

def Power.reset : Power :=
  { mode := .reset, reqs := [], grants := [], charging := false, vdd5p := false, vres := 0, raised := false,
    skipped := false, subscr := false, dead := false, deadN := 0, maxWait := 0, checks := 0, lastLatch := 0, wakes := [],
    awake := 0, idle := 0, check := false, drainAt := none, gaspOk := false, gaspDone := false, next := 1, cause := 0,
    dbgAsk := false, sleepReq := false, waking := false }

def Backup.reset : Backup :=
  { valid := false, latched := false, latchS := 0, latchT := 0, skipped := false, live := [], alarms := [], wipe := 0,
    holds := [], policy := [], pins := [], set := false, deferred := [] }

def Events.reset : Events :=
  { queue := [], released := [], relSec := 0, relN := 0, dropped := 0, drops := 0, held := [], holding := true }

def Tamper.reset : Tamper :=
  { ledger := [], freeze := false, fresh := [], defer := [], sealPin := true, cover := true, tcover := true, mag := true,
    kept := [], keptFz := false, dirty := [], pinRun := [0, 0, 0, 0], opens := 0, sealRing := [none, none, none, none], sealTry := false, calCnt := 0, test := none, testReal := none }

def Vault.reset : Vault :=
  { slots := [], shares := none, rootSeq := 0, resplit := 0, mono := 0, seqs := [], authM := none, authO := none, rootOk := false,
    debug := false, trngOk := false, rspPend := false, draw := 0, inval := [], derive := [], session := none, joining := none,
    leaving := false, opening := none,
    lock := [0, 0, 0], retryAt := 0, aside := none, dbgEn := false }

def Display.reset : Display :=
  { regions := [], order := 0, list := 0, item := 0, advAt := 0, pressAt := 0, scroll := none, scrollRun := 0, dirty := false, pmic := false, pmicAt := 0,
    retAt := 0, nextAt := 0, scan := none, rows := [], frames := 0, skipped := 0 }

def HostLink.reset : HostLink :=
  { up := false, resp := none, lastSt := 0, lastCmd := 0, crcErr := 0, cause := 0, newCause := 0, plain := [], shadow := [],
    frozen := none, jobs := [], lastJob := 0, aborts := [], lastTxn := 0, dbg := false, acks := [], unfreeze := false,
    relays := [], closeNow := 0 }

def ImageSt.reset : ImageSt :=
  { live := none, fallbk := false, reasonA := 0, reasonB := 0, spliceSeq := 0, pending := [], reload := none, calDig := [],
    meter := false, resume := false, reloaded := false }

/-- The device right after reset: a delivered part at its first release of reset (09_store R200, 16 R389). -/
def Dev.reset : Dev :=
  { clk := .reset, regs := [], lanes := [], rot := .reset, straits := [], elems := [], engines := [], ticks := [],
    run := .init, store := .reset, pwr := .reset, bak := .reset, ports := [], partners := [], evt := .reset, tam := .reset,
    vault := .reset, dsp := .reset, caps := [], capSeq := 0, link := .reset, img := .reset, rtdOn := false, rtdDone := false, capReq := [],
    tap := .reset }

/-- The machine right after reset, with an empty queue. -/
def State.reset : State := { dev := .reset, seen := .reset, pending := [] }

/-- The meaning of a command that is a function of the device alone. -/
def State.onDev (f : Dev → Dev) (s : State) : State := { s with dev := f s.dev }

end Sys2Proof.Machine
end

