-- ==== Sys2Proof/Machine/Ops.lean ====
section
/-! DEFINITION. The named operations over the device's units, memories and clock. -/

namespace Sys2Proof.Machine

/-! ## Units by number -/

def Dev.lane (d : Dev) (n : Nat) : LaneSt := tabGet .init d.lanes n
def Dev.setLane (d : Dev) (n : Nat) (x : LaneSt) : Dev := { d with lanes := tabPut .init n x d.lanes }
def Dev.upLane (d : Dev) (n : Nat) (f : LaneSt → LaneSt) : Dev := d.setLane n (f (d.lane n))

def Dev.strait (d : Dev) (n : Nat) : StraitSt := tabGet .init d.straits n
def Dev.setStrait (d : Dev) (n : Nat) (x : StraitSt) : Dev := { d with straits := tabPut .init n x d.straits }
def Dev.upStrait (d : Dev) (n : Nat) (f : StraitSt → StraitSt) : Dev := d.setStrait n (f (d.strait n))

def Dev.elem (d : Dev) (n : Nat) : ElemSt := tabGet .init d.elems n
def Dev.setElem (d : Dev) (n : Nat) (x : ElemSt) : Dev := { d with elems := tabPut .init n x d.elems }
def Dev.upElem (d : Dev) (n : Nat) (f : ElemSt → ElemSt) : Dev := d.setElem n (f (d.elem n))

def Dev.engine (d : Dev) (n : Nat) : EngineSt := tabGet .init d.engines n
def Dev.setEngine (d : Dev) (n : Nat) (x : EngineSt) : Dev := { d with engines := tabPut .init n x d.engines }

def Dev.isle (d : Dev) (n : Nat) : IsleSt := tabGet .init d.run.isles n
def Dev.setIsle (d : Dev) (n : Nat) (x : IsleSt) : Dev :=
  { d with run := { d.run with isles := tabPut .init n x d.run.isles } }
def Dev.upIsle (d : Dev) (n : Nat) (f : IsleSt → IsleSt) : Dev := d.setIsle n (f (d.isle n))

def Dev.port (d : Dev) (n : Nat) : PortSt := tabGet .init d.ports n
def Dev.setPort (d : Dev) (n : Nat) (x : PortSt) : Dev := { d with ports := tabPut .init n x d.ports }
def Dev.upPort (d : Dev) (n : Nat) (f : PortSt → PortSt) : Dev := d.setPort n (f (d.port n))

def Dev.partner (d : Dev) (n : Nat) : Partner := tabGet .free d.partners n
def Dev.setPartner (d : Dev) (n : Nat) (x : Partner) : Dev := { d with partners := tabPut .free n x d.partners }
def Dev.upPartner (d : Dev) (n : Nat) (f : Partner → Partner) : Dev := d.setPartner n (f (d.partner n))

def Dev.cap (d : Dev) (n : Nat) : CapSlot := tabGet .free d.caps n
def Dev.setCap (d : Dev) (n : Nat) (x : CapSlot) : Dev := { d with caps := tabPut .free n x d.caps }

def Dev.knot (d : Dev) (n : Nat) : Knot := tabGet .free d.run.knots n
def Dev.setKnot (d : Dev) (n : Nat) (x : Knot) : Dev :=
  { d with run := { d.run with knots := tabPut .free n x d.run.knots } }

def Dev.ledger (d : Dev) (n : Nat) : Ledger := tabGet .init d.tam.ledger n
/-- The record of the TAMPER region that holds a ledger entry: 42 entries each (log 76). -/
def ledgerRecord (key : Nat) : Nat := key / 42
/-- A changed entry waits to be written to the TAMPER region (12_events_tamper R309). -/
def Dev.setLedger (d : Dev) (n : Nat) (x : Ledger) : Dev :=
  { d with tam := { d.tam with ledger := tabPut .init n x d.tam.ledger,
                               dirty := if ledgerRecord n ∈ d.tam.dirty then d.tam.dirty else d.tam.dirty ++ [ledgerRecord n] } }
def Dev.upLedger (d : Dev) (n : Nat) (f : Ledger → Ledger) : Dev := d.setLedger n (f (d.ledger n))

def Dev.slot (d : Dev) (n : Nat) : Slot := tabGet .init d.vault.slots n
def Dev.setSlot (d : Dev) (n : Nat) (x : Slot) : Dev :=
  { d with vault := { d.vault with slots := tabPut .init n x d.vault.slots } }
def Dev.upSlot (d : Dev) (n : Nat) (f : Slot → Slot) : Dev := d.setSlot n (f (d.slot n))

/-- Apply a change to each unit of a list in turn. -/
def Dev.forEach (d : Dev) (l : List Nat) (f : Nat → Dev → Dev) : Dev := l.foldl (fun d n => f n d) d

/-- A meaning that is a function of the device, for a unit the device has. -/
def onUnit (ok : Bool) (unit : String) (s : State) (f : Dev → Dev) : Host.Outcome State Fault Refusal :=
  if ok then .next (s.onDev f) else .fault (.noSuchUnit unit)

/-! ## Sub-records -/

def Dev.mapClk (d : Dev) (f : Clock → Clock) : Dev := { d with clk := f d.clk }
def Dev.mapRun (d : Dev) (f : Running → Running) : Dev := { d with run := f d.run }
def Dev.mapStore (d : Dev) (f : Store → Store) : Dev := { d with store := f d.store }
def Dev.mapPwr (d : Dev) (f : Power → Power) : Dev := { d with pwr := f d.pwr }
def Dev.mapBak (d : Dev) (f : Backup → Backup) : Dev := { d with bak := f d.bak }
def Dev.mapEvt (d : Dev) (f : Events → Events) : Dev := { d with evt := f d.evt }
def Dev.mapTam (d : Dev) (f : Tamper → Tamper) : Dev := { d with tam := f d.tam }
def Dev.mapVault (d : Dev) (f : Vault → Vault) : Dev := { d with vault := f d.vault }
def Dev.mapDsp (d : Dev) (f : Display → Display) : Dev := { d with dsp := f d.dsp }
def Dev.mapLink (d : Dev) (f : HostLink → HostLink) : Dev := { d with link := f d.link }
def Dev.mapImg (d : Dev) (f : ImageSt → ImageSt) : Dev := { d with img := f d.img }

/-! ## Memory -/

/-- A byte of a memory. -/
def memGet (m : Tab Byte) (a : Nat) : Byte := tabGet 0#8 m a

/-- A memory with one byte written. -/
def memPut (m : Tab Byte) (a : Nat) (v : Byte) : Tab Byte := tabPut 0#8 a v m

/-- A memory with a byte string written from an address. -/
def memWrite (m : Tab Byte) (a : Nat) : List Byte → Tab Byte
  | [] => m
  | b :: t => memWrite (memPut m a b) (a + 1) t

/-- `n` bytes from address `a` of a memory whose entries below `a` are gone. -/
def memTake : Nat → Nat → Tab Byte → List Byte
  | 0, _, _ => []
  | n + 1, a, m =>
    match m with
    | [] => 0#8 :: memTake n (a + 1) []
    | (k, v) :: t => if k = a then v :: memTake n (a + 1) t else 0#8 :: memTake n (a + 1) ((k, v) :: t)

/-- `n` bytes from address `a`. -/
def memRead (m : Tab Byte) (a n : Nat) : List Byte := memTake n a (m.dropWhile (fun e => decide (e.1 < a)))

/-! ## Time (00_scope R7, 01_archipelago R10, R11) -/

/-- The running tick's offset within its frame. -/
def Dev.off (d : Dev) : Nat := d.clk.tick % 3200

/-- The number of the running frame within its device second. -/
def Dev.frameInSec (d : Dev) : Nat := d.clk.tick / 3200

/-- Device time in ticks. -/
def Dev.timeTicks (d : Dev) : Nat := d.clk.secs * 16000 + d.clk.tick

/-- Seconds and tick-of-second of a device time in ticks. -/
def ofTicks (t : Nat) : Nat × Nat := ((t / 16000) % 2 ^ 32, t % 16000)

/-- Local time in seconds (06_billing R131); before 2000-01-01T00:00:00 local it is taken as 0 (log 70). -/
def Dev.local_ (d : Dev) : Nat := ((d.clk.secs : Int) + 60 * d.clk.offset).toNat

/-- The clock at the next tick: the tick-of-second counts to 15,999 (R11), a slew counts its ticks and the
ticks of the frame at each changed ratio (R13). -/
def Clock.advance (c : Clock) : Clock :=
  let t := if c.tick + 1 < 16000 then c.tick + 1 else 0
  let s := if c.tick + 1 < 16000 then c.secs else (c.secs + 1) % 2 ^ 32
  let fa := c.fast + b2n ((c.slew.map (fun w => w.advance)).getD false)
  let sl := c.slow + b2n ((c.slew.map (fun w => !w.advance)).getD false)
  let newF := decide (t % 3200 = 0)
  { c with
    tick := t, secs := s, runTick := c.runTick + 1,
    frameNo := if newF then c.frameNo + 1 else c.frameNo,
    slew := c.slew.map (fun w => { w with ran := w.ran + 1 }),
    fastF := if newF then fa else c.fastF, slowF := if newF then sl else c.slowF,
    fast := if newF then 0 else fa, slow := if newF then 0 else sl,
    step2 := newF, evald := if newF then false else c.evald }

/-- The true duration of a frame over 200 ms, from its ticks at each changed ratio (R13). -/
def frameRatio (fast slow : Nat) : Rat :=
  ((3200 - (fast : Rat) - slow) + (fast : Rat) * 1000 / 1001 + (slow : Rat) * 1000 / 999) / 3200

/-- The correction of a slew that its ticks have made, in ticks (R13): 1 in 1,001 advancing, 1 in 999 retarding. -/
def Slew.made (w : Slew) : Rat := if w.advance then (w.ran : Rat) / 1001 else (w.ran : Rat) / 999

/-- The signed correction still to make (CLK_SLEW_LEFT, R151). -/
def Slew.left (w : Slew) : Rat := if w.advance then w.total - w.made else -(w.total - w.made)

/-! ## Free values -/

/-- The next free number (log 3), advancing its counter. -/
def Dev.fresh (d : Dev) : Nat × Dev :=
  (Config.freeNat d.vault.draw, { d with vault := { d.vault with draw := d.vault.draw + 1 } })

/-- `n` bytes of the DRBG (13_keys R319), advancing its counter. -/
def Dev.drbg (d : Dev) (n : Nat) : List Byte × Dev :=
  ((List.range n).map (fun i => Config.drbgByte (d.vault.draw + i)),
   { d with vault := { d.vault with draw := d.vault.draw + n } })

/-! ## Roots -/

/-- The integer part of the square root of a rational. -/
def sqrtFloor (x : Rat) : Nat := if x ≤ 0 then 0 else Nat.sqrt x.floor.toNat

/-- A number in whole units where the spec states no rounding: the floor, or the one above where the free choice
`site` takes it; a whole number has no choice. -/
def roundOpen (site : Nat) (x : Rat) : Int :=
  if x = x.floor then x.floor else if Config.roundsUp site x then x.floor + 1 else x.floor

/-- A number rounded to the nearest whole one where the spec only says rounded; of two equally near the even one (log 62). -/
def roundNear (x : Rat) : Int := rne x

/-- The whole number nearest to a root; of two equally near the greater one (log 62). -/
def sqrtNear (x : Rat) : Nat := (sqrtFloor (4 * x) + 1) / 2

/-- A root in whole units: the floor, or the one above where the spec states no rounding and the free
choice `site` takes it; an exact root has no choice. -/
def sqrtInt (site : Nat) (x : Rat) : Nat :=
  let f := sqrtFloor x
  if ((f * f : Nat) : Rat) = x ∨ x ≤ 0 then f else if Config.roundsUp site x then f + 1 else f

end Sys2Proof.Machine
end

