-- ==== Sys2Proof/Machine/Filters.lean ====
section
/-! DEFINITION. The fixed filters: ROM coefficients with the properties the spec states for them (02_lanes R38 to R43,
03_straits_elements R61, R63, 04_isles_windows R92, R93) and the sums they form. A ROM whose unprinted content lacked a
stated property would be no ROM of the part, so a plain filter stands in for it there (log 10). -/

namespace Sys2Proof.Machine

/-- A ROM content where it has the property stated of it, else a plain one. -/
def guardRom {α : Type} (ok : Bool) (rom plain : α) : α := if ok then rom else plain

/-- A coefficient fits 18-bit signed Q1.17 (R38). -/
def q17 (x : Int) : Bool := decide (-131072 ≤ x ∧ x ≤ 131071)

/-- The distance of a tap from the centre of a filter. -/
def tapDist (centre k : Nat) : Nat := if k ≤ centre then centre - k else k - centre

/-! ## Decimation stages 2 to 4 (R38) -/

/-- A half-band filter in Q1.17: one half at the centre, zero at even distances, the rest symmetric with DC gain 1 (R38).
`rom i` is the coefficient at distance 2i + 3. -/
def halfBand (rom : Nat → Int) (centre k : Nat) : Int :=
  let m := centre / 2
  let outer := (List.range m).map rom
  let rom := guardRom (outer.all q17 && q17 (32768 - sumZ outer)) rom (fun _ => 0)
  let j := tapDist centre k
  if j = 0 then 65536
  else if j % 2 = 0 then 0
  else if j = 1 then 32768 - sumZ ((List.range m).map rom)
  else rom ((j - 3) / 2)

/-- Stage 2: 31 taps; stage 3: 47 taps. -/
def stage2Coeff : Nat → Int := halfBand Config.stage2Rom 15
def stage3Coeff : Nat → Int := halfBand Config.stage3Rom 23

/-- Taps of stage 4 by response (R41). -/
def respTaps (r : Nat) : Nat := nth [63, 127, 31, 127, 127, 127, 127, 63, 63, 127, 127, 127, 127, 63, 63, 63] r 63

/-- Stage 4 of a response in Q1.17: linear phase, symmetric about the centre, DC gain 1 (R38, R41). -/
def stage4Coeff (r k : Nat) : Int :=
  let c := respTaps r / 2
  let outer := (List.range c).map (fun i => Config.stage4Rom r (i + 1))
  let rom := guardRom (outer.all q17 && q17 (131072 - 2 * sumZ outer)) (Config.stage4Rom r) (fun j => if j = 1 then 32768 else 0)
  let j := tapDist c k
  if j = 0 then 131072 - 2 * sumZ ((List.range c).map (fun i => rom (i + 1))) else rom j

/-! ## The leaky integrator of ROGO (R40, R42) -/

/-- Nominal fundamental and high-pass corner of a ROGO response, in Hz. -/
def rogoHz (r : Nat) : Rat := if r % 2 = 1 then 50 else 60
def rogoCorner (r : Nat) : Rat := if r % 2 = 1 then 1 else 6 / 5

/-- Ticks in which the integrator decays to 0.01 % (R42). -/
def rogoDecay (r : Nat) : Nat := if r % 2 = 1 then 23455 else 19545

/-- A turn in radians, to ten digits. -/
def turn : Rat := 6283185307 / 1000000000

/-- The squared gain of a first-order integrator at a frequency in Hz. -/
def leakGain2 (pole gain hz : Rat) : Rat := gain * gain / (1 - 2 * pole * Config.cosTurn (hz / 16000) + pole * pole)

/-- A number is within a part per thousand `tol` of another. -/
def nearBy (tol : Nat) (x y : Rat) : Bool := decide (y * (1000 - tol) ≤ x * 1000 ∧ x * 1000 ≤ y * (1000 + tol))

/-- The stated figures of an integrator: the corner, the decay, unity at the fundamental, and about 5 or 6 at 10 Hz and 50
at DC (R40, R41, R42); "about" is taken as within a tenth (log 10). -/
def rogoOk (r : Nat) (pole gain : Rat) : Bool :=
  decide (0 < pole ∧ pole < 1 ∧ 0 < gain) && nearBy 1 ((1 - pole) * 16000) (turn * rogoCorner r) &&
  decide (pole ^ rogoDecay r * 10000 ≤ 1) && nearBy 4 (leakGain2 pole gain (rogoHz r)) 1 &&
  nearBy 200 (leakGain2 pole gain 10) (rogoHz r * rogoHz r / 100) && nearBy 100 (gain / (1 - pole)) 50

/-- Pole and gain of a ROGO response's integrator (R42). -/
def rogoPole (r : Nat) : Rat :=
  guardRom (rogoOk r (Config.rogoPole r) (Config.rogoGain r)) (Config.rogoPole r) (1 - turn * rogoCorner r / 16000)
def rogoGain (r : Nat) : Rat :=
  guardRom (rogoOk r (Config.rogoPole r) (Config.rogoGain r)) (Config.rogoGain r) (turn * rogoHz r / 16000)

/-- The integrator's next value from its last and the FIR output, and the phase-corrected value it gives (R42). -/
def rogoStep (r : Nat) (integ : Rat) (y : Int) : Rat := rogoPole r * integ + rogoGain r * y
def rogoOut (r : Nat) (integ : Rat) (y : Int) : Rat := integ + Config.rogoPhase r * y

/-! ## Sums -/

/-- The output of an FIR over a history, newest first, before rounding. -/
def firSum (coef : Nat → Int) (taps : Nat) (h : List Int) : Int :=
  sumZ (((List.range taps).zip h).map (fun x => coef x.1 * x.2))

/-- The same in rational numbers. -/
def firQ (coef : Nat → Rat) (taps : Nat) (h : List Rat) : Rat :=
  sumQ (((List.range taps).zip h).map (fun x => coef x.1 * x.2))

/-! ## The quadrature path (03 R61) -/

/-- The decimator: 129 taps at 16 kHz, a delay of 64 ticks. -/
def decimTap (k : Nat) : Rat := Config.decimRom (tapDist 64 k)
/-- The Hilbert filter: 127 taps at 2 kHz, antisymmetric, a delay of 63 samples, which is 504 ticks. -/
def hilbertTap (k : Nat) : Rat :=
  if k = 63 then 0 else if k < 63 then Config.hilbertRom (63 - k) else -Config.hilbertRom (k - 63)
/-- The interpolator: 145 taps at 16 kHz, a delay of 72 ticks. -/
def expandTap (k : Nat) : Rat := Config.expandRom (tapDist 72 k)

/-- Each eighth sample from the newest one that the 2 kHz grid holds. -/
def everyEighth : Nat → List Rat → List Rat
  | 0, _ => []
  | _, [] => []
  | f + 1, h => h.headD 0 :: everyEighth f (h.drop 8)

/-- The quadrature stream 640 ticks behind the newest of the samples `h`; `phase` is the newest sample's place among the
eight of the 2 kHz grid (R61). -/
def quadPath (phase : Nat) (h : List Rat) : Rat :=
  let grid := h.drop (phase % 8)
  let low (m : Nat) : Rat := firQ decimTap 129 (grid.drop (8 * m))
  let turned (m : Nat) : Rat := firQ hilbertTap 127 ((List.range 127).map (fun i => low (m + i)))
  sumQ ((List.range 19).map (fun m =>
    let k := phase % 8 + 8 * m
    if k < 145 then expandTap k * turned m else 0))

/-! ## Frequency tracking (03 R63) -/

/-- The low-pass of tracking is stable, passes DC with gain 1 and uses its newest sample. -/
def trackOk (b0 b1 b2 a1 a2 : Rat) : Bool :=
  decide (0 < b0 ∧ b0 + b1 + b2 = 1 + a1 + a2 ∧ -1 < a2 ∧ a2 < 1 ∧ -(1 + a2) < a1 ∧ a1 < 1 + a2)

/-- Coefficient `i` of b0, b1, b2, a1, a2. -/
def trackCoeff (i : Nat) : Rat :=
  let c := Config.trackRom
  guardRom (trackOk (c 0) (c 1) (c 2) (c 3) (c 4)) (c i) (if i = 0 then 1 else 0)

/-! ## The resampler and the transform (04 R92, R93) -/

/-- The squared magnitude of the kernel's prototype at a frequency in cycles per tick. -/
def kernelMag2 (kern : Nat → Nat → Rat) (u : Rat) : Rat :=
  let part (f : Rat → Rat) : Rat := sumQ ((List.range 1024).map (fun ph => sumQ ((List.range 32).map (fun j =>
    kern ph j * f (u * ((j : Rat) - (ph : Rat) / 1024))))))
  let c := part Config.cosTurn / 1024
  let s := part Config.sinTurn / 1024
  c * c + s * s

/-- Flat within 0.01 dB up to 64 f1 and 80 dB down from (S - 64) f1 on, at the orders of a fundamental of `hz` (R93). -/
def kernelFits (kern : Nat → Nat → Rat) (cycles : Nat) (hz : Rat) : Bool :=
  let s := cdiv 2048 cycles
  (List.range 65).all (fun h => let m := kernelMag2 kern (h * hz / 16000); decide (99770 ≤ m * 100000 ∧ m * 100000 ≤ 100230)) &&
  (List.range 129).all (fun i => decide (kernelMag2 kern (((s - 64 + i : Nat) : Rat) * hz / 16000) * 100000000 ≤ 1))

/-- The kernel: 1,024 phases of 32 taps; with the figures of R93 at both nominal fundamentals, else linear interpolation. -/
def kernelTap : Nat → Nat → Rat :=
  guardRom (kernelFits Config.kernelRom 10 50 && kernelFits Config.kernelRom 12 60) Config.kernelRom
    (fun ph j => if j = 15 then 1 - (ph : Rat) / 1024 else if j = 16 then (ph : Rat) / 1024 else 0)

/-- The resampled value at a position in ticks, of a stream whose sample of tick k stands at position k + 1. -/
def resample (x : Int → Rat) (pos : Rat) : Rat :=
  let p := pos - 1
  let n := p.floor
  let ph := ((p - n) * 1024).floor.toNat
  sumQ ((List.range 32).map (fun j => kernelTap ph j * x (n - 15 + j)))

/-- The bins C_0 to C_1,024 of a real signal of 2,048 points, each as real and imaginary part over the square root of 2 of
its RMS value (R92). -/
abbrev Spectrum := List (Rat × Rat)

/-- One bin of a complex transform of 1,024 points. -/
def dftBin (z : List (Rat × Rat)) (k : Nat) : Rat × Rat :=
  let t := (List.range 1024).zip z
  (sumQ (t.map (fun (m, a, b) => let u : Rat := ((m * k % 1024 : Nat) : Rat) / 1024; a * Config.cosTurn u + b * Config.sinTurn u)),
   sumQ (t.map (fun (m, a, b) => let u : Rat := ((m * k % 1024 : Nat) : Rat) / 1024; b * Config.cosTurn u - a * Config.sinTurn u)))

/-- Even-numbered samples as real parts, odd-numbered as imaginary parts (R92). -/
def packPairs : List Rat → List (Rat × Rat)
  | a :: b :: t => (a, b) :: packPairs t
  | _ => []

/-- The bins of 2,048 samples: the packed transform unpacked into the real-signal bins, over 2,048 (R92). -/
def spectrumOf (x : List Rat) : Spectrum :=
  let z := (List.range 1024).map (dftBin (packPairs x))
  (List.range 1025).map (fun k =>
    let (a, b) := z.getD (k % 1024) (0, 0)
    let (c, e) := z.getD ((1024 - k) % 1024) (0, 0)
    let u : Rat := (k : Rat) / 2048
    let (cs, sn) := (Config.cosTurn u, Config.sinTurn u)
    -- E = (Z_k + conj Z_(N-k)) / 2, O = (Z_k - conj Z_(N-k)) / 2j, X = E + w O
    let (er, ei) := ((a + c) / 2, (b - e) / 2)
    let (or_, oi) := ((b + e) / 2, (c - a) / 2)
    ((er + cs * or_ + sn * oi) / 2048, (ei + cs * oi - sn * or_) / 2048))

end Sys2Proof.Machine
end

