-- ==== Sys2Proof/Machine/Operands.lean ====
section
/-! DEFINITION. Operand forms: the fields of the structure image in force (08_structure_image R174 to R183)
and the argument bytes of a mailbox command (15_host_link R378). -/

namespace Sys2Proof.Machine

/-! ## Sections of an image -/

/-- ENTRY_SIZE of a section code (R177). -/
def entSize (code : Nat) : Nat := nth [0, 4, 64, 64, 64, 16, 64, 8, 16, 1, 4, 8, 16] code 0

/-- OFFSET, COUNT and SIZE of a section from the directory (R177). -/
def secOff (b : List Byte) (code : Nat) : Nat := u32 b (0xA0 + 16 * (code - 1) + 4)
def secCount (b : List Byte) (code : Nat) : Nat := u32 b (0xA0 + 16 * (code - 1) + 8)
def secSize (b : List Byte) (code : Nat) : Nat := u32 b (0xA0 + 16 * (code - 1) + 12)

/-- Entry `i` of a section. -/
def entry (b : List Byte) (code i : Nat) : List Byte := sliceB b (secOff b code + i * entSize code) (entSize code)

/-- The bytes of the image in force, splices applied (R196); none without a live image. -/
def Dev.image (d : Dev) : List Byte := (d.img.live.map (fun l => l.bytes)).getD []

/-- Whether an image is live (R189). -/
def Dev.isLive (d : Dev) : Bool := d.img.live.isSome

/-- An entry of the image in force; empty (all fields 0) without one. -/
def Dev.ent (d : Dev) (code i : Nat) : List Byte := if d.isLive then entry d.image code i else []

/-! ## LANE (R179) -/

def Dev.laneWord (d : Dev) (n : Nat) : Nat := u32 (d.ent 1 n) 0
def laneMode (w : Nat) : Nat := bitsOf w 2 0
def laneGain (w : Nat) : Nat := bitsOf w 5 3
def laneResp (w : Nat) : Nat := bitsOf w 9 6
def laneShift (w k : Nat) : Nat := bitsOf w (4 * k + 9) (4 * k + 6)
/-- A ferry is ENABLED (R179). -/
def Dev.ferryEnabled (d : Dev) (f : Nat) : Bool := bitOf (d.laneWord (192 + f)) 26

/-! ## STRAIT (R180) -/

def Dev.stLane (d : Dev) (s : Nat) : Nat := if d.isLive then u8 (d.ent 2 s) 0 else 0xFF
def Dev.stConf (d : Dev) (s : Nat) : Bool := d.stLane s != 0xFF
def Dev.stGrid60 (d : Dev) (s : Nat) : Bool := bitOf (u8 (d.ent 2 s) 1) 0
def Dev.stPq (d : Dev) (s : Nat) : Bool := bitOf (u8 (d.ent 2 s) 1) 1
def Dev.stCapture (d : Dev) (s : Nat) : Bool := bitOf (u8 (d.ent 2 s) 1) 2
/-- V_WEIGHT, volts per code (R59). -/
def Dev.vWeight (d : Dev) (s : Nat) : Rat := (u32 (d.ent 2 s) 4 : Rat) * pow2 (-(bitsOf (u8 (d.ent 2 s) 8) 5 0 : Int))
/-- U_DIN in volts (R101). -/
def Dev.uDin (d : Dev) (s : Nat) : Rat := (u32 (d.ent 2 s) 0x0C : Rat) / 100
/-- SAG, SWELL, INT and H in volts (R101). -/
def Dev.stLevel (d : Dev) (s o : Nat) : Rat := (u16 (d.ent 2 s) o : Rat) / 1000 * d.uDin s
/-- The capture list: the voltage lane, then CAP_LANE (R103). -/
def Dev.capList (d : Dev) (s : Nat) : List Nat :=
  d.stLane s :: (List.range (u8 (d.ent 2 s) 0x18)).map (fun i => u8 (d.ent 2 s) (0x19 + i))
/-- Cycles of a window (R15). -/
def Dev.winCycles (d : Dev) (s : Nat) : Nat := if d.stGrid60 s then 12 else 10
/-- Nominal period in ticks: 320 at 50 Hz, 266 2/3 at 60 Hz. -/
def Dev.nomPeriod (d : Dev) (s : Nat) : Rat := if d.stGrid60 s then 800 / 3 else 320

/-! ## ELEMENT (R181) -/

def Dev.elKind (d : Dev) (e : Nat) : Nat := u8 (d.ent 3 e) 0
def Dev.elIsle (d : Dev) (e : Nat) : Nat := if d.isLive then u8 (d.ent 3 e) 1 else 0xFF
def Dev.elLaneI (d : Dev) (e : Nat) : Nat := if d.isLive then u8 (d.ent 3 e) 2 else 0xFF
def Dev.elLane2 (d : Dev) (e : Nat) : Nat := if d.isLive then u8 (d.ent 3 e) 3 else 0xFF
def Dev.elStrait (d : Dev) (e : Nat) : Nat := if d.isLive then u8 (d.ent 3 e) 4 else 0x1F
def Dev.elSensor (d : Dev) (e : Nat) : Nat := bitsOf (u8 (d.ent 3 e) 5) 3 2
/-- I_WEIGHT, amperes per code (R66). -/
def Dev.iWeight (d : Dev) (e : Nat) : Rat := (u32 (d.ent 3 e) 8 : Rat) * pow2 (-(bitsOf (u8 (d.ent 3 e) 0x0C) 5 0 : Int))
def Dev.elArg1 (d : Dev) (e : Nat) : Nat := u16 (d.ent 3 e) 0x10
def Dev.elArg2 (d : Dev) (e : Nat) : Nat := u16 (d.ent 3 e) 0x12
/-- The element slots of an isle, ascending (R81). -/
def Dev.isleElems (d : Dev) (n : Nat) : List Nat :=
  if d.isLive then (List.range 192).filter (fun e => d.elKind e != 0 && d.elIsle e == n) else []
/-- The PHASE elements of an isle, ascending. -/
def Dev.islePhases (d : Dev) (n : Nat) : List Nat := (d.isleElems n).filter (fun e => d.elKind e == 1)
/-- The NEUTRAL element of an isle. -/
def Dev.isleNeutral (d : Dev) (n : Nat) : Option Nat := (d.isleElems n).find? (fun e => d.elKind e == 2)

/-! ## ISLE (R182) -/

def Dev.ilType (d : Dev) (n : Nat) : Nat := bitsOf (u8 (d.ent 4 n) 0) 3 0
/-- Whether an isle is electrical (R81). -/
def Dev.ilElec (d : Dev) (n : Nat) : Bool := decide (1 ≤ d.ilType n ∧ d.ilType n ≤ 4)
def Dev.ilX10 (d : Dev) (n : Nat) : Bool := bitOf (u8 (d.ent 4 n) 1) 0
def Dev.ilVector (d : Dev) (n : Nat) : Bool := bitOf (u8 (d.ent 4 n) 1) 1
def Dev.ilNever (d : Dev) (n : Nat) : Bool := bitOf (u8 (d.ent 4 n) 1) 2
def Dev.ilCooling (d : Dev) (n : Nat) : Bool := bitOf (u8 (d.ent 4 n) 1) 3
def Dev.ilModulus (d : Dev) (n : Nat) : Nat := bitsOf (u8 (d.ent 4 n) 2) 1 0
def Dev.ilProfile (d : Dev) (n : Nat) : Nat := u8 (d.ent 4 n) 0x0E
def Dev.ilHoldoff (d : Dev) (n : Nat) : Nat := u8 (d.ent 4 n) 0x0F
def Dev.ilRecDelay (d : Dev) (n : Nat) : Nat := u8 (d.ent 4 n) 0x14
def Dev.ilRecMax (d : Dev) (n : Nat) : Nat := u8 (d.ent 4 n) 0x15
def Dev.ilChan (d : Dev) (n j : Nat) : Nat := u8 (d.ent 4 n) (0x16 + j)
def Dev.ilRelay (d : Dev) (n : Nat) : Nat := if d.isLive then u16 (d.ent 4 n) 0x18 else 0xFFFF
def Dev.ilVolSrc (d : Dev) (n : Nat) : Nat := u8 (d.ent 4 n) 0x1C
def Dev.ilPulsePort (d : Dev) (n : Nat) : Nat := u8 (d.ent 4 n) 0x1D
def Dev.ilPulseIn (d : Dev) (n : Nat) : Nat := u8 (d.ent 4 n) 0x1E
def Dev.ilTempSrc (d : Dev) (n : Nat) : Nat := u8 (d.ent 4 n) 0x1F
def Dev.ilPulseW (d : Dev) (n : Nat) : Nat := u32 (d.ent 4 n) 0x20
def Dev.ilQmax (d : Dev) (n : Nat) : Nat := u32 (d.ent 4 n) 0x24
def Dev.ilLeakRate (d : Dev) (n : Nat) : Nat := u32 (d.ent 4 n) 0x28
def Dev.ilLeakHours (d : Dev) (n : Nat) : Nat := u16 (d.ent 4 n) 0x2C
def Dev.ilDtMin (d : Dev) (n : Nat) : Nat := u16 (d.ent 4 n) 0x2E
def Dev.ilFlowPos (d : Dev) (n : Nat) : Nat := u8 (d.ent 4 n) 0x30
/-- Q_J, the isle's energy quantum in joules (R71). -/
def Dev.quantumJ (d : Dev) (n : Nat) : Rat := if d.ilX10 n then 36 else 18 / 5

/-! ## The remaining sections (R183) -/

def Dev.plTariffs (d : Dev) (p : Nat) : Nat := u8 (d.ent 5 p) 0
def Dev.plDefault (d : Dev) (p : Nat) : Nat := u8 (d.ent 5 p) 1

def Dev.poModule (d : Dev) (p : Nat) : Nat := u8 (d.ent 6 p) 0
def Dev.poBaud (d : Dev) (p : Nat) : Nat := u32 (d.ent 6 p) 4
def Dev.poPoll (d : Dev) (p : Nat) : Nat := u32 (d.ent 6 p) 8
def Dev.poDraw (d : Dev) (p : Nat) : Nat := u16 (d.ent 6 p) 12
/-- A byte of a port's PARAM. -/
def Dev.poParam (d : Dev) (p i : Nat) : Nat := u8 (d.ent 6 p) (16 + i)
def Dev.poParam16 (d : Dev) (p i : Nat) : Nat := u16 (d.ent 6 p) (16 + i)
def Dev.poParam32 (d : Dev) (p i : Nat) : Nat := u32 (d.ent 6 p) (16 + i)

def Dev.ppEnrol (d : Dev) (p : Nat) : Nat := u8 (d.ent 7 p) 0
def Dev.ppLostAfter (d : Dev) (p : Nat) : Nat := u8 (d.ent 7 p) 1
def Dev.ppSuspCount (d : Dev) (p : Nat) : Nat := u8 (d.ent 7 p) 2
def Dev.ppSuspPct (d : Dev) (p : Nat) : Nat := u8 (d.ent 7 p) 3
def Dev.ppBackoff (d : Dev) (p : Nat) : Nat := u16 (d.ent 7 p) 4

/-- KNOT_WINDOW of entry 0, 30 s while no image is live (R183, R425). -/
def Dev.knotWin0 (d : Dev) : Nat := if d.isLive then u8 (d.ent 8 0) 0 else 30
/-- NOTIFY_CAP, 32 while no image is live (R183, R425). -/
def Dev.notifyCap (d : Dev) : Nat := if d.isLive then u8 (d.ent 8 0) 1 else 32
def Dev.srcCount (d : Dev) : Nat := if d.isLive then u16 (d.ent 8 0) 2 else 0
/-- The source entries of EVENT_POLICY (R183). -/
def Dev.srcEntries (d : Dev) : List (List Byte) := (List.range d.srcCount).map (fun i => d.ent 8 (i + 1))
/-- The entry that applies to a source: an isle's override before the default (12_events_tamper R308). -/
def Dev.srcEntry (d : Dev) (src : Nat) (isle : Option Nat) : Option (List Byte) :=
  let named (hi : Nat) := d.srcEntries.find? (fun e => u8 e 0 == src && u8 e 1 == hi)
  match isle with
  | some n => (named n).orElse (fun _ => named 0xFF)
  | none => named 0xFF

def Dev.dspWidth (d : Dev) : Nat := u16 (sliceB d.image (secOff d.image 9) 16) 0
def Dev.dspHeight (d : Dev) : Nat := u16 (sliceB d.image (secOff d.image 9) 16) 2
def Dev.dspHz (d : Dev) : Nat := u8 (sliceB d.image (secOff d.image 9) 16) 4
/-- Bytes of the DISPLAY section from an offset. -/
def Dev.dspBytes (d : Dev) (o n : Nat) : List Byte := if d.isLive then sliceB d.image (secOff d.image 9 + o) n else []

/-- BASELINE in mW (R183): 800 while no image is live (10_power R237). -/
def Dev.baseline (d : Dev) : Nat := if d.isLive then u32 (d.ent 10 0) 0 else 800
/-- MAX_QUANTA of a class (R183). -/
def Dev.maxQuanta (d : Dev) (cls : Nat) : Nat := u16 (d.ent 10 (cls + 1)) 0

/-- KEY_POLICY of a slot: USAGE, ATTR, PARENT, LABEL, COUNT_LIMIT (R183). -/
def Dev.kpUsage (d : Dev) (k : Nat) : Nat := u8 (d.ent 11 k) 0
def Dev.kpAttr (d : Dev) (k : Nat) : Nat := u8 (d.ent 11 k) 1
def Dev.kpParent (d : Dev) (k : Nat) : Nat := bitsOf (u8 (d.ent 11 k) 2) 5 0
def Dev.kpLabel (d : Dev) (k : Nat) : Nat := u8 (d.ent 11 k) 3
def Dev.kpLimit (d : Dev) (k : Nat) : Nat := leVal (sliceB (d.ent 11 k) 4 3)
def Dev.kpDefined (d : Dev) (k : Nat) : Bool := bitOf (d.kpAttr k) 7

/-- The regions of STORE_MAP: REGION, FLAGS, BASE, SIZE (R183). -/
def regionsOf (b : List Byte) : List (Nat × Nat × Nat × Nat) :=
  (List.range (u16 (entry b 12 0) 0)).map (fun i =>
    let e := entry b 12 (i + 1)
    (u16 e 0, u16 e 2, u32 e 4, u32 e 8))
def Dev.regions (d : Dev) : List (Nat × Nat × Nat × Nat) := if d.isLive then regionsOf d.image else []

end Sys2Proof.Machine
end

