-- ==== Sys2Proof/Machine/Regs.lean ====
section
/-! DEFINITION. The register file of 15_host_link R382 and R383: access classes, writable bits, reset values,
the value checks of each register, and the initial values an image gives (R75, R76, R89, R264). -/

namespace Sys2Proof.Machine

/-- Access codes (R376). -/
inductive Acc where
  | ro | rw | w1c | sh | lk
  deriving DecidableEq, Repr

/-- Whether an address lies in a register span (R381). -/
def inRegs (a : Nat) : Bool :=
  decide (a < 0x8400) || decide (0x10000 ≤ a ∧ a < 0x11800) || decide (0x20000 ≤ a ∧ a < 0x21000) ||
  decide (0x30000 ≤ a ∧ a < 0x30800)

/-- The access class and the writable bits of the register at an address (R75, R76, R89, R264, R365, R383);
read-only registers, reserved words and unlisted offsets have none. -/
def regAcc (a : Nat) : Acc × Nat :=
  if a < 0x8000 then
    if a = 0x24 then (.w1c, 0x7E) else if a = 0x28 then (.rw, 0x7F)
    else if a = 0x2000 then (.rw, 0xFFFF) else if a = 0x2004 then (.rw, 0xFF)
    else if a = 0x4000 then (.rw, 0xF) else if a = 0x7000 then (.rw, 7)
    else if a = 0x7004 then (.rw, 0xF) else (.ro, 0)
  else if a < 0x8400 then
    let o := a % 0x40
    if o = 0 then (.rw, 0x0FFF0000) else if o = 4 ∨ o = 8 then (.lk, 0xFFFFFFFF) else (.ro, 0)
  else if 0x10000 ≤ a ∧ a < 0x11800 then
    let o := a % 0x20
    if o = 0 then (.lk, 0x18) else if o = 4 then (.lk, 0x3FFF) else (.lk, 0xFFFFFFFF)
  else if 0x20000 ≤ a ∧ a < 0x21000 then
    let o := a % 0x20
    if o = 4 then (.sh, 3) else if o = 8 ∨ o = 0xC then (.lk, 0xFFFFFF) else if o = 0x10 then (.sh, 0x7F)
    else if o = 0x14 then (.rw, 0xFFFFFFFF) else (.ro, 0)
  else if 0x30000 ≤ a ∧ a < 0x30800 then
    let o := a % 0x40
    if o = 0 then (.rw, 0x10000) else if o = 4 then (.rw, 0xFFFFFF) else if o = 0xC then (.rw, 0x3FFFFFF) else (.ro, 0)
  else (.ro, 0)

/-- Reset value of the writable bits of a register (R75, R76, R89, R264, R365, R383). -/
def regReset (a : Nat) : Word :=
  if a = 0x28 then 0x7F else if a = 0x2000 then 8000 else if a = 0x2004 then 0x4A
  else if a = 0x4000 then 5 else if a = 0x7004 then 6
  else if 0x8000 ≤ a ∧ a < 0x8400 then (if a % 0x40 = 4 then 0x40000000 else 0)
  else if 0x10000 ≤ a ∧ a < 0x11800 then
    (if a % 0x20 = 8 ∨ a % 0x20 = 0x10 ∨ a % 0x20 = 0x18 then 0x40000000 else 0)
  else if 0x20000 ≤ a ∧ a < 0x21000 then (if a % 0x20 = 0x10 then 0xA else 0)
  else if 0x30000 ≤ a ∧ a < 0x30800 then (if a % 0x40 = 0 then 0x10000 else 0)
  else 0

/-- The writable bits in force at an address. The table holds the difference from the reset value. -/
def Dev.reg (d : Dev) (a : Nat) : Word := tabGet 0#32 d.regs a ^^^ regReset a

/-- Set the writable bits of a register. -/
def Dev.setReg (d : Dev) (a : Nat) (v : Word) : Dev :=
  { d with regs := tabPut 0#32 a ((v &&& wordOf (regAcc a).2) ^^^ regReset a) d.regs }

/-- A register in force as a number. -/
def Dev.regN (d : Dev) (a : Nat) : Nat := (d.reg a).toNat

/-! ## Registers in force by name -/

def Dev.trackMin (d : Dev) (s : Nat) : Nat := bitsOf (d.regN (0x8000 + 0x40 * s)) 27 16
/-- G_V (R60), unsigned 2.30. -/
def Dev.gainV (d : Dev) (s : Nat) : Rat := (d.regN (0x8004 + 0x40 * s) : Rat) / 2 ^ 30
def Dev.ofsV (d : Dev) (s : Nat) : Rat := sext 32 (d.regN (0x8008 + 0x40 * s))
def Dev.polarity (d : Dev) (e : Nat) : Bool := bitOf (d.regN (0x10000 + 0x20 * e)) 3
def Dev.signAbs (d : Dev) (e : Nat) : Bool := bitOf (d.regN (0x10000 + 0x20 * e)) 4
def Dev.phase (d : Dev) (e : Nat) : Int := sext 14 (d.regN (0x10004 + 0x20 * e))
/-- Gain (k = 0 IRMS, 1 P, 2 Q) and offset of an element (R69). -/
def Dev.elGain (d : Dev) (e k : Nat) : Rat := (d.regN (0x10008 + 8 * k + 0x20 * e) : Rat) / 2 ^ 30
def Dev.elOfs (d : Dev) (e k : Nat) : Rat := sext 32 (d.regN (0x1000C + 8 * k + 0x20 * e))
def Dev.rPlan (d : Dev) (n : Nat) : Nat := bitsOf (d.regN (0x20004 + 0x20 * n)) 1 0
def Dev.rCreepP (d : Dev) (n : Nat) : Nat := d.regN (0x20008 + 0x20 * n)
def Dev.rCreepQ (d : Dev) (n : Nat) : Nat := d.regN (0x2000C + 0x20 * n)
/-- Interval length in minutes of an INTERVAL code (R89). -/
def intervalMin (c : Nat) : Nat := nth [5, 10, 15, 30, 60] c 15
def Dev.rMins (d : Dev) (n : Nat) : Nat := intervalMin (bitsOf (d.regN (0x20010 + 0x20 * n)) 2 0)
def Dev.rSubint (d : Dev) (n : Nat) : Nat := bitsOf (d.regN (0x20010 + 0x20 * n)) 6 3
def Dev.rWarn (d : Dev) (n : Nat) : Nat := bitsOf (d.regN (0x20014 + 0x20 * n)) 15 0
def Dev.rTrip (d : Dev) (n : Nat) : Nat := bitsOf (d.regN (0x20014 + 0x20 * n)) 31 16
def Dev.rEnable (d : Dev) (p : Nat) : Bool := bitOf (d.regN (0x30000 + 0x40 * p)) 16
def Dev.rBaud (d : Dev) (p : Nat) : Nat := d.regN (0x30004 + 0x40 * p)
def Dev.rPoll (d : Dev) (p : Nat) : Nat := bitsOf (d.regN (0x3000C + 0x40 * p)) 23 0
def Dev.rRetries (d : Dev) (p : Nat) : Nat := bitsOf (d.regN (0x3000C + 0x40 * p)) 25 24
def Dev.budget (d : Dev) : Nat := d.regN 0x2000
def Dev.deadPct (d : Dev) : Nat := bitsOf (d.regN 0x2004) 5 0
def Dev.napEn (d : Dev) : Bool := bitOf (d.regN 0x2004) 6
def Dev.sleepEn (d : Dev) : Bool := bitOf (d.regN 0x2004) 7
def Dev.saveMin (d : Dev) : Nat := bitsOf (d.regN 0x4000) 3 0
def Dev.band (d : Dev) : Nat := bitsOf (d.regN 0x7004) 3 0

/-! ## Value checks -/

/-- INTERVAL at most 4 and SUBINT a divisor of its minutes (R90). -/
def demandOk (v : Nat) : Bool :=
  let i := bitsOf v 2 0
  let sub := bitsOf v 6 3
  decide (i ≤ 4) && decide (sub ≠ 0) && decide (intervalMin i % sub = 0)

/-- The COUNT of a scroll list of the live image (R183). -/
def Dev.listCount (d : Dev) (k : Nat) : Nat := u8 (d.dspBytes (0x110 + 0x208 * k) 8) 0

/-- The rule of the register at an address against a value written to it (R78, R90, R226, R238, R265, R365,
R384): the status that refuses it, if any. -/
def Dev.regRule (d : Dev) (a v : Nat) : Option Status :=
  let bad (ok : Bool) : Option Status := if ok then none else some .range
  if a = 0x2000 then bad (decide (d.baseline + 1300 ≤ bitsOf v 15 0 ∧ bitsOf v 15 0 ≤ 8000))
  else if a = 0x2004 then bad (decide (5 ≤ bitsOf v 5 0 ∧ bitsOf v 5 0 ≤ 50))
  else if a = 0x4000 then bad (decide (bitsOf v 3 0 ≠ 0))
  else if a = 0x7000 then bad (decide (d.listCount (bitsOf v 2 0) ≠ 0))
  else if a = 0x7004 then bad (decide (bitsOf v 3 0 ≤ 11))
  else if 0x10000 ≤ a ∧ a < 0x11800 ∧ a % 0x20 = 4 then
    bad (decide (-4096 ≤ sext 14 v ∧ sext 14 v ≤ 4096))
  else if 0x20000 ≤ a ∧ a < 0x21000 ∧ a % 0x20 = 0x10 then bad (demandOk v)
  else if 0x30000 ≤ a ∧ a < 0x30800 then
    let p := (a - 0x30000) / 0x40
    let m := d.poModule p
    if a % 0x40 = 4 then
      if m = 1 then bad (decide (bitsOf v 23 0 ∈ [300, 600, 1200, 2400, 4800, 9600]))
      else if m = 2 then bad (decide (bitsOf v 23 0 ∈ [1200, 2400, 4800, 9600, 19200, 38400, 57600, 115200]))
      else none
    else if a % 0x40 = 0xC then
      bad (decide (10 ≤ bitsOf v 23 0 ∧ bitsOf v 23 0 ≤ 86400) &&
           (decide (m ≠ 1) || decide (bitsOf v 25 24 ≤ 2)))
    else none
  else none

/-- PORT_BAUD writes are ignored unless the port is MBUS or RS485 (R265). -/
def Dev.regIgnored (d : Dev) (a : Nat) : Bool :=
  decide (0x30000 ≤ a ∧ a < 0x30800 ∧ a % 0x40 = 4) &&
  !(d.poModule ((a - 0x30000) / 0x40) == 1 || d.poModule ((a - 0x30000) / 0x40) == 2)

/-! ## LK registers (07_legal_readout R159, R160) -/

/-- The LK registers in ascending address order: 32 strait, 1,536 element and 256 isle words. -/
def lkAddrs : List Nat :=
  (List.range 16).flatMap (fun s => [0x8004 + 0x40 * s, 0x8008 + 0x40 * s]) ++
  (List.range 1536).map (fun i => 0x10000 + 4 * i) ++
  (List.range 128).flatMap (fun n => [0x20008 + 0x20 * n, 0x2000C + 0x20 * n])

/-- The calibration digest (R160): SHA-256 over the 1,824 LK words, non-LK bits 0. -/
def Dev.calDigest (d : Dev) : List Byte := Config.sha256 (lkAddrs.flatMap (fun a => leBytes 4 (d.regN a)))

/-- The value an image gives an LK, SH or RW register (R75, R76, R89): from STRAIT, ELEMENT and ISLE entries. -/
def imageRegs (b : List Byte) : List (Nat × Nat) :=
  (List.range 16).flatMap (fun s =>
    let e := entry b 2 s
    [(0x8000 + 0x40 * s, bitsOf (u16 e 2) 11 0 * 65536), (0x8004 + 0x40 * s, u32 e 0x24), (0x8008 + 0x40 * s, u32 e 0x28)]) ++
  (List.range 192).flatMap (fun i =>
    let e := entry b 3 i
    let a := 0x10000 + 0x20 * i
    (a, bitsOf (u8 e 5) 1 0 * 8) :: (a + 4, u16 e 0x0E) ::
      (List.range 6).map (fun k => (a + 8 + 4 * k, u32 e (0x14 + 4 * k)))) ++
  (List.range 128).flatMap (fun n =>
    let e := entry b 4 n
    let a := 0x20000 + 0x20 * n
    [(a + 4, u8 e 3), (a + 8, u32 e 4), (a + 0xC, u32 e 8), (a + 0x10, u8 e 0x0C + 8 * u8 e 0x0D),
     (a + 0x14, u16 e 0x10 + 65536 * u16 e 0x12)])

/-- Set registers from a list of addresses and values. -/
def Dev.setRegs (d : Dev) (l : List (Nat × Nat)) : Dev := l.foldl (fun d x => d.setReg x.1 (wordOf x.2)) d

end Sys2Proof.Machine
end

