-- ==== Sys2Proof/Machine/Flags.lean ====
section
/-! DEFINITION. Status codes and the flag words: attention causes, seal state, device status. -/

namespace Sys2Proof.Machine

/-- The value of a status code (15_host_link R386). -/
def Status.code : Status → Nat
  | .done => 0x00 | .busy => 0x01 | .late => 0x02 | .aborted => 0x03 | .keyOrphaned => 0x10 | .keySpent => 0x11
  | .keyExpired => 0x12 | .sealed => 0x20 | .denied => 0x21 | .torn => 0x30 | .tileBad => 0x31 | .noDraw => 0x40
  | .badImage => 0x41 | .range => 0x42

/-- The seal is open while the counted CALSEAL_N level is low (07_legal_readout R161). -/
def Dev.sealOpen (d : Dev) : Bool := !d.tam.sealPin

/-- Set an HL_CAUSE bit at the coming boundary (R385, R377). -/
def Dev.cause (d : Dev) (i : Nat) : Dev :=
  d.mapLink (fun k => { k with newCause := k.newCause ||| (1#7 <<< i) })

/-- HL_CAUSE as read: EVENT while released notifications are unread (R305), bits 6:1 as held. -/
def Dev.causeWord (d : Dev) : BitVec 7 :=
  (d.link.cause &&& 0x7E#7) ||| (if d.evt.released.isEmpty then 0#7 else 1#7)

/-- HATN_N is low while an enabled cause is set; high-impedance from the power-fail latch, in HOLD and
during reset (R385). -/
def Dev.hatnLow (d : Dev) : Bool :=
  decide (d.causeWord &&& (d.reg 0x28).truncate 7 ≠ 0#7) &&
  decide (d.pwr.mode ≠ .failing ∧ d.pwr.mode ≠ .hold ∧ d.pwr.mode ≠ .reset)

/-- ALARM_N is low while any PIN_LATCH is set, or a raise in HOLD asserted it (12_events_tamper R312, R317). -/
def Dev.alarmLow (d : Dev) : Bool :=
  d.tam.ledger.any (fun e => e.2.pin) ||
  d.bak.alarms.any (fun a => decide (0 < a.2.count) && d.bak.policy.any (fun p => p.1 == a.1 && p.2.1))

/-- E_RES in microjoules for V_RES in mV: half of 800 uF times (V^2 - 25 V^2), 0 below 5.0 V (10_power R236). -/
def eRes (mv : Nat) : Rat := if mv < 5000 then 0 else (((mv * mv - 25000000 : Nat) : Rat)) / 2500

/-- The reservoir holds at least 4 mJ (R219, R236). -/
def reserveOk (mv : Nat) : Bool := decide (35000000 ≤ mv * mv)

/-- DEV_SEAL (R383). -/
def Dev.sealWord (d : Dev) : Nat :=
  flagAt 0 (!d.sealOpen) + flagAt 1 d.tam.freeze + flagAt 2 d.tam.sealPin

end Sys2Proof.Machine
end

