-- ==== Sys2Proof/Machine/EventLog.lean ====
section
/-! DEFINITION. Event records, knots and host notifications (12_events_tamper R293 to R305). -/

namespace Sys2Proof.Machine

/-! ## Origins and codes -/

/-- ORIGIN words (R294). -/
def orgLane (n : Nat) : Nat := n
def orgElem (e : Nat) : Nat := 0x4000 + e
def orgStrait (s : Nat) : Nat := 0x5000 + s
def orgIsle (n : Nat) : Nat := 0x8000 + n
def orgDev : Nat := 0xC000
def orgPort (p : Nat) : Nat := 0xD000 + p

/-- Whether reports of a code join knots (R296, 13_keys R346). -/
def isKnotCode (c : Nat) : Bool :=
  decide (c ∈ [0x002, 0x020, 0x021, 0x022, 0x072, 0x080, 0x081, 0x082, 0x083, 0x087, 0x090, 0x0A2, 0x0A8, 0x0AA])

/-- EV_POLL_MISSED opens quietly (R296). -/
def isQuietCode (c : Nat) : Bool := c == 0x081

/-- Eight detail bytes. -/
def det8 (l : List Byte) : List Byte := sliceB l 0 8

/-! ## Notifications (R304, R305) -/

/-- Place an entry in the notification queue of 128; tamper entries go ahead of all others; a full queue
drops the entry and counts it. -/
def Dev.notify (d : Dev) (n : Notice) : Dev :=
  d.mapEvt (fun e =>
    if 128 ≤ e.queue.length + e.released.length then
      { e with dropped := satU 32 (e.dropped + 1), drops := satU 32 (e.drops + 1) }
    else if n.kind = 4 then
      { e with queue := e.queue.takeWhile (fun x => x.kind == 4) ++ [n] ++ e.queue.dropWhile (fun x => x.kind == 4) }
    else { e with queue := e.queue ++ [n] })

/-! ## Records (R293, R295) -/

/-- The SEQ after one (R295): from 0xFFFF_FFFF to 1. -/
def seqAfter (q : Nat) : Nat := if 0xFFFFFFFF ≤ q then 1 else q + 1

/-- Log a record: it takes the next SEQ and waits in the running state; during steps 1 to 6 of a power-up it
is held without a SEQ (16_startup R395). -/
def Dev.logRec (d : Dev) (r : EventRec) : Dev :=
  if d.evt.holding then d.mapEvt (fun e => { e with held := e.held ++ [r] })
  else
    let q := seqAfter d.run.evtSeq
    d.mapRun (fun s => { s with evtSeq := q, unwritten := s.unwritten ++ [{ r with seq := q }] })

/-- Log an Immediate record with a time of its own (R293), and notify it (R304). -/
def Dev.logAt (d : Dev) (secs tick code origin : Nat) (detail : List Byte) (flags : Nat) : Dev :=
  let r : EventRec := { seq := 0, secs := secs, tick := tick, code := code, flags := flags, origin := origin,
                        count := 1, first := secs, last := secs, detail := det8 detail }
  let d := d.logRec r
  if d.evt.holding then d else d.notify { kind := 1, knot := 0xFFFF, seq := d.run.evtSeq }

/-- Log an Immediate record now. -/
def Dev.logNow (d : Dev) (code origin : Nat) (detail : List Byte) : Dev :=
  d.logAt d.clk.secs d.clk.tick code origin detail 0

/-! ## Reporter sets (R299) -/

/-- Add an index to ascending ranges, merging what touches it. -/
def addRange (x : Nat) : List (Nat × Nat) → List (Nat × Nat)
  | [] => [(x, x)]
  | (lo, hi) :: t =>
    if x + 1 < lo then (x, x) :: (lo, hi) :: t
    else if x + 1 = lo then (x, hi) :: t
    else if x ≤ hi then (lo, hi) :: t
    else if x = hi + 1 then
      match t with
      | (lo2, hi2) :: t2 => if x + 1 = lo2 then (lo, hi2) :: t2 else (lo, x) :: (lo2, hi2) :: t2
      | [] => [(lo, x)]
    else (lo, hi) :: addRange x t

/-- The smallest gap between neighbouring ranges. -/
def minGap : List (Nat × Nat) → Nat
  | (a, b) :: (c, e) :: t => min (c - b) (minGap ((c, e) :: t) + if t.isEmpty then c - b else 0)
  | (_, _) :: [] => 0
  | [] => 0

/-- Merge the first pair of neighbours with a given gap. -/
def mergeGap (g : Nat) : List (Nat × Nat) → List (Nat × Nat)
  | (a, b) :: (c, e) :: t => if c - b = g then (a, e) :: t else (a, b) :: mergeGap g ((c, e) :: t)
  | l => l

/-- Insert an index into an ascending list without repeats. -/
def insertNat (x : Nat) : List Nat → List Nat
  | [] => [x]
  | y :: t => if x < y then x :: y :: t else if x = y then y :: t else y :: insertNat x t

/-- A knot with a reporter added: at most 8 ranges, a ninth merges the two with the smallest gap (R299). -/
def Knot.addReporter (k : Knot) (x : Nat) : Knot :=
  let rs := addRange x k.ranges
  let k := { k with seen := insertNat x k.seen }
  if rs.length ≤ 8 then { k with ranges := rs } else { k with ranges := mergeGap (minGap rs) rs, ovf := true }

/-! ## Knots (R297 to R300) -/

/-- DETAIL of a knot's record (R296): the reporter set for EV_POLL_MISSED and EV_COMMON_CAUSE. -/
def Knot.recDetail (k : Knot) : List Byte :=
  if k.code = 0x081 ∨ k.code = 0x082 then
    let lo := (k.ranges.head?.map Prod.fst).getD 0
    let hi := (k.ranges.getLast?.map Prod.snd).getD 0
    leBytes 2 lo ++ leBytes 2 hi ++ leBytes 2 (satU 16 k.seen.length) ++
      [byteOf (k.ranges.length + flagAt 7 k.ovf),
       byteOf (if k.code = 0x081 then k.qual else sumN ((List.range 32).map (fun p => b2n (bitOf k.ports p))))]
  else k.detail

/-- Close knot entry `i`, logging its record and placing its notification (R298, R304). -/
def Dev.closeKnot (d : Dev) (i : Nat) (early : Bool) : Dev :=
  let k := d.knot i
  let r : EventRec :=
    { seq := 0, secs := k.secs, tick := k.tick, code := k.code,
      flags := b2n k.suspect + 4 * b2n (early || k.early) + 8 * b2n k.cont, origin := k.origin,
      count := satU 16 k.count, first := k.first, last := k.last, detail := k.recDetail }
  let d := d.logRec r
  let q := if d.evt.holding then 0 else d.run.evtSeq
  let d := d.setKnot i { k with state := 2, early := early || k.early, seq := q }
  if d.evt.holding then d else d.notify { kind := 3, knot := i, seq := q }

/-- The entries in a state, ascending. -/
def Dev.knotsIn (d : Dev) (st : Nat) : List Nat := (List.range 256).filter (fun i => (d.knot i).state == st)

/-- The open knot with a key (R297). -/
def Dev.findKnot (d : Dev) (code origin qual : Nat) : Option Nat :=
  (d.knotsIn 1).find? (fun i => (d.knot i).code == code && (d.knot i).origin == origin && (d.knot i).qual == qual)

/-- The element of a list with the least value of a measure, the first of equals. -/
def argMin (f : Nat → Int) : List Nat → Option Nat
  | [] => none
  | x :: t =>
    match argMin f t with
    | none => some x
    | some y => if f y < f x then some y else some x

/-- An entry for a new knot (R300): a FREE one, else the CLOSED one with the lowest SEQ; with 256 OPEN the
open non-suspect knot whose last report is oldest closes early first. -/
def Dev.takeKnot (d : Dev) : Nat × Dev :=
  match (d.knotsIn 0).head? with
  | some i => (i, d)
  | none =>
    let d := match d.knotsIn 2 with
      | [] => (match argMin (fun i => (d.knot i).at1) ((d.knotsIn 1).filter (fun i => !(d.knot i).suspect)) with
               | some i => d.closeKnot i true
               | none => d)
      | _ :: _ => d
    ((argMin (fun i => ((d.knot i).seq : Int)) (d.knotsIn 2)).getD 0, d)

/-- A report that joins or opens a knot (R297), with its reporter, and its time. -/
def Dev.reportKnot (d : Dev) (code origin qual reporter secs tick : Nat) (detail : List Byte) (extra : Nat) : Dev :=
  match d.findKnot code origin qual with
  | some i =>
    let k := d.knot i
    d.setKnot i (Knot.addReporter
      { k with count := satU 32 (k.count + 1), last := secs, at1 := d.clk.runTick,
               detail := if code = 0x090 then det8 detail else k.detail } reporter)
  | none =>
    let (i, d) := d.takeKnot
    let key := (code, origin, qual)
    let k : Knot := Knot.addReporter
      { Knot.free with
        state := 1, quiet := isQuietCode code, cont := decide (key ∈ d.run.contKeys), qual := qual, code := code,
        origin := origin, count := 1, first := secs, last := secs, secs := secs, tick := tick,
        at0 := d.clk.runTick, at1 := d.clk.runTick, detail := det8 detail, extra := extra } reporter
    let d := (d.setKnot i k).mapRun (fun r => { r with contKeys := r.contKeys.filter (fun x => decide (x ≠ key)) })
    if k.quiet || d.evt.holding then d else d.notify { kind := 2, knot := i, seq := 0 }

/-- A report now: an Immediate record or a knot, by its code (R296). -/
def Dev.report (d : Dev) (code origin qual : Nat) (detail : List Byte) : Dev :=
  if isKnotCode code then
    d.reportKnot code origin qual (bitsOf origin 11 0) d.clk.secs d.clk.tick detail 0
  else d.logNow code origin detail

/-- A report of a partner code: the reporter is the partner's index (R299). -/
def Dev.reportPartner (d : Dev) (code port qual idx : Nat) (detail : List Byte) (extra : Nat) : Dev :=
  d.reportKnot code (orgPort port) qual idx d.clk.secs d.clk.tick detail extra

/-- The window of a knot in seconds (R297, R425): a tamper source's entry, else entry 0. -/
def Dev.knotWindow (d : Dev) (k : Knot) : Nat :=
  if k.code = 0x090 then
    let isle := if k.origin < 0xC000 then some (bitsOf k.origin 11 0) else none
    let w := ((d.srcEntry k.qual isle).map (fun e => u8 e 4)).getD 0
    if w = 0 then d.knotWin0 else w
  else d.knotWin0

/-- Close the knots whose window or one-hour limit has passed (R298); suspect knots never close here. -/
def Dev.expireKnots (d : Dev) : Dev :=
  d.forEach (d.knotsIn 1) (fun i d =>
    let k := d.knot i
    if k.suspect then d
    else if (d.knotWindow k * 16000 : Nat) ≤ (d.clk.runTick : Int) - k.at1 then d.closeKnot i false
    else if 3600 * 16000 ≤ (d.clk.runTick : Int) - k.at0 then
      (d.closeKnot i false).mapRun (fun r => { r with contKeys := r.contKeys ++ [(k.code, k.origin, k.qual)] })
    else d)

/-- Release queued entries until NOTIFY_CAP have been released in the device second (R305). -/
def Dev.releaseNotices (d : Dev) : Dev :=
  let used := if d.evt.relSec = d.clk.secs then d.evt.relN else 0
  let n := min (d.notifyCap - used) d.evt.queue.length
  d.mapEvt (fun e =>
    { e with released := e.released ++ e.queue.take n, queue := e.queue.drop n, relSec := d.clk.secs, relN := used + n })

/-- NOTIFY_READ returns and removes up to 32 released entries; when room returns after drops, one overflow
entry is placed and EV_NOTIFY_OVERFLOW logged once (R305). -/
def Dev.takeNotices (d : Dev) (n : Nat) : List Notice × Dev :=
  let got := d.evt.released.take n
  let d := d.mapEvt (fun e => { e with released := e.released.drop n })
  if d.evt.drops ≠ 0 ∧ d.evt.queue.length + d.evt.released.length < 128 then
    let c := d.evt.drops
    let d := d.mapEvt (fun e => { e with drops := 0 })
    (got, (d.notify { kind := 5, knot := 0xFFFF, seq := c }).logNow 0x095 orgDev (leBytes 4 c))
  else (got, d)

/-- An event record's 32 bytes (R293). -/
def EventRec.bytes (r : EventRec) : List Byte :=
  leBytes 4 r.seq ++ leBytes 4 r.secs ++ leBytes 2 r.tick ++ leBytes 2 (r.code + 4096 * r.flags) ++
  leBytes 2 r.origin ++ leBytes 2 (satU 16 r.count) ++ leBytes 4 r.first ++ leBytes 4 r.last ++ det8 r.detail

/-- A notification entry's 8 bytes (R305). -/
def Notice.bytes (n : Notice) : List Byte :=
  [byteOf n.kind, 0#8] ++ leBytes 2 n.knot ++ leBytes 4 n.seq

end Sys2Proof.Machine
end

