-- ==== Sys2Proof/Machine/Draw.lean ====
section
/-! DEFINITION. The draw arbiter (10_power R237 to R245). -/

namespace Sys2Proof.Machine

/-- W: 2 quanta while the charger withholds (R237). -/
def Dev.withheld (d : Dev) : Nat := if d.pwr.charging then 2 else 0

/-- P, the pool in quanta (R237). -/
def Dev.pool (d : Dev) : Nat := (d.budget - d.baseline) / 25 - d.withheld

/-- Quanta held. -/
def heldQ (l : List Draw) : Nat := sumN (l.map (fun g => g.k))

/-- Long requests and grants: classes 2 to 6 with more than 1,600 ticks (R240). -/
def Draw.long (r : Draw) : Bool := decide (2 ≤ r.cls) && decide (1600 < r.d)

/-- Aged: classes 2 to 6, considered at 1,600 boundaries without a grant (R242). -/
def Draw.aged (r : Draw) : Bool := decide (2 ≤ r.cls) && decide (1600 ≤ r.seen)

/-- The place of a requester in the order of R241: table order, ports in port order. -/
def Requester.order : Requester → Nat
  | .lastGasp => 0 | .reserveWrite => 1 | .tamperPort p => 2 + p | .tamperDisplay => 40 | .save => 41 | .journal => 42
  | .job n => 43 + n | .port p => 70000 + p | .scanner => 70040 | .rtd => 70041 | .housekeeping => 70042

/-- Requests of one requester: the security block files for every job, the store controller for saves and
journal transactions (R240). -/
def Requester.same (a b : Requester) : Bool :=
  match a, b with
  | .job _, .job _ => true
  | .save, .journal | .journal, .save => true
  | _, _ => decide (a = b)

/-- Whether a requester has a request outstanding, pending or granted (R240). -/
def Dev.outstanding (d : Dev) (w : Requester) : Bool :=
  d.pwr.reqs.any (fun r => r.who.same w) || d.pwr.grants.any (fun r => r.who.same w)

/-- Whether a requester has a pending request. -/
def Dev.waiting (d : Dev) (w : Requester) : Bool := d.pwr.reqs.any (fun r => decide (r.who = w))

/-- The grant a requester holds. -/
def Dev.grantOf (d : Dev) (w : Requester) : Option Draw := d.pwr.grants.find? (fun r => decide (r.who = w))

/-- Whether a requester's grant was made at the boundary that started the running tick. -/
def Dev.grantedNow (d : Dev) (w : Requester) : Bool :=
  (d.grantOf w).any (fun g => decide (g.until_ = d.clk.runTick + g.d))

/-- File a request in the running tick. A requester with one outstanding files no second (R240); a request
of classes 3 to 5 brings DOZE back to RUN within the tick (R246). -/
def Dev.file (d : Dev) (w : Requester) (cls k dur : Nat) : Dev :=
  if d.outstanding w then d
  else d.mapPwr (fun p =>
    { p with reqs := p.reqs ++ [{ who := w, cls := cls, k := k, d := dur, filed := d.clk.runTick, seen := 0, until_ := 0 }],
             mode := if decide (3 ≤ cls ∧ cls ≤ 5) && decide (p.mode = .doze) then .run else p.mode })

/-- Withdraw a requester's pending request (R241). -/
def Dev.withdraw (d : Dev) (w : Requester) : Dev :=
  d.mapPwr (fun p => { p with reqs := p.reqs.filter (fun r => decide (r.who ≠ w)) })

/-- Return a requester's grant early or drop it with its activity. -/
def Dev.giveBack (d : Dev) (w : Requester) : Dev :=
  d.mapPwr (fun p => { p with grants := p.grants.filter (fun r => decide (r.who ≠ w)) })

/-- Queue order (R241): class, then filing tick, then requester. -/
def Draw.before (a b : Draw) : Bool :=
  decide (a.cls < b.cls) || (a.cls == b.cls && (decide (a.filed < b.filed) ||
    (a.filed == b.filed && decide (a.who.order ≤ b.who.order))))

/-- Insert a request in queue order. -/
def insertDraw (r : Draw) : List Draw → List Draw
  | [] => [r]
  | x :: t => if r.before x then r :: x :: t else x :: insertDraw r t

/-- The pending requests in queue order. -/
def queueOrder (l : List Draw) : List Draw := l.foldr insertDraw []

/-- Whether a request's own quanta conditions hold (R242). -/
def fits (pool cap : Nat) (grants : List Draw) (r : Draw) : Bool :=
  let lg := grants.filter Draw.long
  decide (heldQ grants + r.k ≤ pool) &&
  (!r.long || ((cap == 0 || decide (heldQ (lg.filter (fun g => g.cls == r.cls)) + r.k ≤ cap)) &&
               decide (heldQ lg + r.k + 16 ≤ pool)))

/-- One pass over requests in queue order: grants what fits and is admitted; answers the grants and the
requests left. `pend01` tells whether a class 0 or 1 request that is not in this list stays pending. -/
def grantPass (pool : Nat) (cap : Nat → Nat) (now : Nat) (pend01 : Bool) :
    List Draw → List Draw → List Draw → List Draw × List Draw
  | [], grants, left => (grants, left)
  | r :: t, grants, left =>
    let blocked := decide (2 ≤ r.cls) && (pend01 || left.any (fun x => decide (x.cls < 2)))
    if !blocked && fits pool (cap r.cls) grants r then
      grantPass pool cap now pend01 t (grants ++ [{ r with until_ := now + r.d }]) left
    else grantPass pool cap now pend01 t grants (left ++ [{ r with seen := r.seen + 1 }])

/-- The arbiter at a boundary (R241, R242): grants that end return first, then the two passes in queue order. A request filed
by the work of the boundary itself is first considered at the next one. -/
def Dev.arbitrate (d : Dev) : Dev :=
  let now := d.clk.runTick
  let grants := d.pwr.grants.filter (fun g => decide (now < g.until_))
  let q := queueOrder (d.pwr.reqs.filter (fun r => decide (r.filed < now)))
  let first := q.filter (fun r => decide (r.cls < 2) || r.aged)
  let second := q.filter (fun r => !(decide (r.cls < 2) || r.aged))
  let p := d.pool
  let (g1, l1) := grantPass p d.maxQuanta now false first grants []
  let stop01 := l1.any (fun r => decide (r.cls < 2))
  let stopAged := l1.any Draw.aged
  let (g2, l2) := if stopAged then (g1, second.map (fun r => { r with seen := r.seen + 1 }))
                  else grantPass p d.maxQuanta now stop01 second g1 []
  let waits := (g2.filter (fun g => decide (g.until_ = now + g.d))).map (fun g => now - g.filed)
  d.mapPwr (fun w =>
    { w with reqs := l1 ++ l2 ++ w.reqs.filter (fun r => decide (now ≤ r.filed)), grants := g2, maxWait := waits.foldl max w.maxWait })

/-- RTD lanes of the live image (02_lanes R36). -/
def Dev.rtdLanes (d : Dev) : List Nat := (List.range 192).filter (fun n => laneMode (d.laneWord n) == 4)

/-- The sum of k_max over the requesters of the live image (R240, R244). -/
def Dev.sumKmax (d : Dev) : Nat :=
  36 + 10 + 12 + 2 + cdiv d.rtdLanes.length 16 +
  sumN ((List.range 32).map (fun p => if d.poModule p = 0 then 0 else d.poDraw p))

/-- SUBSCRIBED as the pool stands (R244). -/
def Dev.subscribedNow (d : Dev) : Bool := decide (d.sumKmax + 16 ≤ d.pool)

/-- Update SUBSCRIBED, raising attention at a change (R244). -/
def Dev.updSubscr (d : Dev) : Dev :=
  let v := d.subscribedNow
  if v = d.pwr.subscr then d else (d.mapPwr (fun p => { p with subscr := v })).cause 5

/-- RUN or DOZE by whether classes 3 to 5 hold or request anything (R246). -/
def Dev.runOrDoze (d : Dev) : Dev :=
  let busy (r : Draw) : Bool := decide (3 ≤ r.cls ∧ r.cls ≤ 5)
  if d.pwr.mode = .run ∨ d.pwr.mode = .doze then
    d.mapPwr (fun p => { p with mode := if p.reqs.any busy || p.grants.any busy then .run else .doze })
  else d

end Sys2Proof.Machine
end

