-- ==== Sys2Proof/Machine/TamperOps.lean ====
section
/-! DEFINITION. Tamper sources: ledger keys, policy, raising and clearing (12_events_tamper R306 to R310). -/

namespace Sys2Proof.Machine

/-- The ledger key of a source: device source s at s, isle source s of isle n at 256 + 8n + (s - 0x20). -/
def tamKey (src : Nat) (isle : Option Nat) : Nat :=
  match isle with
  | none => src
  | some n => 256 + 8 * n + (src - 0x20)

def keyIsle (key : Nat) : Option Nat := if key < 256 then none else some ((key - 256) / 8)
def keySource (key : Nat) : Nat := if key < 256 then key else 0x20 + (key - 256) % 8

/-- ORIGIN of a source (R306, R307). -/
def keyOrigin (key : Nat) : Nat := match keyIsle key with | none => orgDev | some n => orgIsle n

/-- Whether a source exists (R306, R307). -/
def srcExists (src : Nat) : Bool := decide (1 ≤ src ∧ src ≤ 0x0F) || decide (0x20 ≤ src ∧ src ≤ 0x26)

/-- The actions in force of a source: its entry's, or LOG and FLAG; LOG always (R308). -/
def Dev.srcActions (d : Dev) (key : Nat) : Nat :=
  match d.srcEntry (keySource key) (keyIsle key) with
  | some e => (u8 e 2) ||| 1
  | none => 3

/-- The WIPE_SLOT of a source's entry (R308). -/
def Dev.srcWipe (d : Dev) (key : Nat) : Nat :=
  ((d.srcEntry (keySource key) (keyIsle key)).map (fun e => u8 e 3)).getD 0

/-- THRESH_A and THRESH_B of a source (R306, R307): its entry's, else the default. -/
def Dev.srcThresh (d : Dev) (src : Nat) (isle : Option Nat) (defA defB : Nat) : Nat × Nat :=
  match d.srcEntry src isle with
  | some e => (u32 e 8, u32 e 12)
  | none => (defA, defB)

/-- The isles a RELAY action of a source names, and those NEVER_DISCONNECT skips (R312). -/
def Dev.relayIsles (d : Dev) (key : Nat) : List Nat × List Nat :=
  let l := match keyIsle key with
    | some n => [n]
    | none => (List.range 128).filter (fun n => d.ilElec n)
  let l := l.filter (fun n => d.ilRelay n != 0xFFFF)
  (l.filter (fun n => !d.ilNever n), l.filter (fun n => d.ilNever n))

/-- Bytes 2 and 3 of EV_TAMPER: actions executed, and suppressed or deferred (R296, R313). -/
def Dev.actionBytes (d : Dev) (key : Nat) : Nat × Nat :=
  let a := d.srcActions key
  if bitOf a 5 then
    let (go, skip) := d.relayIsles key
    if skip.isEmpty then (a, 0) else (if go.isEmpty then a - 32 else a, 32)
  else (a, 0)

/-- Report EV_TAMPER (R296, R309). -/
def Dev.reportTamper (d : Dev) (key state ex su : Nat) (dur secs tick : Nat) : Dev :=
  d.reportKnot 0x090 (keyOrigin key) (keySource key) (bitsOf (keyOrigin key) 11 0) secs tick
    ([byteOf (keySource key), byteOf state, byteOf ex, byteOf su] ++ leBytes 4 dur) 0

/-- Count a raise in the ledger (R309): COUNT, LAST, FIRST when COUNT was 0. -/
def Ledger.raise (l : Ledger) (secs run : Nat) : Ledger :=
  { l with raised := true, count := satU 32 (l.count + 1), last := secs, first := if l.count = 0 then secs else l.first,
           since := run, quiet := 0 }

/-- A source is raised with the time at which its condition was counted: ledger, report, and the responses of the
coming boundary (R309, R311). -/
def Dev.raiseAt (d : Dev) (key secs tick : Nat) : Dev :=
  let (ex, su) := d.actionBytes key
  let dur := (d.ledger key).dur
  let d := d.upLedger key (fun l => l.raise secs d.clk.runTick)
  let d := d.reportTamper key 1 ex su dur secs tick
  d.mapTam (fun t => { t with fresh := t.fresh ++ [key] })

/-- A source is raised in the running tick. A real raise during a test of the source waits for the end of the
test (R316). -/
def Dev.raiseSrc (d : Dev) (key : Nat) : Dev :=
  if (d.ledger key).raised then d
  else if (d.ledger key).testing then
    d.mapTam (fun t => { t with testReal := if t.testReal.isSome then t.testReal else some (d.clk.secs, d.clk.tick) })
  else d.raiseAt key d.clk.secs d.clk.tick

/-- Whole seconds since the latest raise: ticks of this power-up, device seconds for a raise before it (R309, R310). -/
def Dev.raisedFor (d : Dev) (l : Ledger) : Nat :=
  satU 32 (if l.since = 0 then d.clk.secs - l.last else (d.clk.runTick - l.since) / 16000)

/-- A source clears: DURATION and the report (R309). A clear executes no action. -/
def Dev.clearSrc (d : Dev) (key : Nat) : Dev :=
  if (d.ledger key).raised then
    let l := d.ledger key
    let dur := d.raisedFor l
    let d := d.setLedger key { l with raised := false, dur := dur, quiet := 0 }
    d.reportTamper key 0 0 0 dur d.clk.secs d.clk.tick
  else d

/-- Raise or clear a source by its condition. -/
def Dev.setSrc (d : Dev) (key : Nat) (cond : Bool) : Dev := if cond then d.raiseSrc key else d.clearSrc key

/-- A source whose clear needs consecutive quiet evaluations (R306). -/
def Dev.quietSrc (d : Dev) (key need : Nat) (cond : Bool) : Dev :=
  if cond then (d.upLedger key (fun l => { l with quiet := 0 })).raiseSrc key
  else if (d.ledger key).raised then
    let q := (d.ledger key).quiet + 1
    if need ≤ q then d.clearSrc key else d.upLedger key (fun l => { l with quiet := q })
  else d

/-- Whether any source with an action bit is RAISED (R314). -/
def Dev.anyRaisedWith (d : Dev) (bit : Nat) : Bool :=
  d.tam.ledger.any (fun e => e.2.raised && bitOf (d.srcActions e.1) bit)

end Sys2Proof.Machine
end

