-- ==== Sys2Proof/Machine/StoreOps.lean ====
section
/-! DEFINITION. Tiles and tags, page writes, the TN3003 area, twin records, the journal's queue and the
reserve-guarded queue (09_store R200 to R231). -/

namespace Sys2Proof.Machine

/-! ## The store map (R229, R230) -/

/-- The default map: code, flags (SRAM, PROTECT, host flags), base, tiles (R230). -/
def defaultMap : List (Nat × Nat × Nat × Nat) :=
  [(1, 0x0E, 0x00000000, 2048), (2, 0x0E, 0x00200000, 2048), (3, 0x06, 0x00400000, 64), (4, 0x04, 0x00410000, 64),
   (5, 0x04, 0x00420000, 4), (6, 0x02, 0x00421000, 32), (7, 0x02, 0x00429000, 16), (8, 0x06, 0x0042D000, 8),
   (9, 0x02, 0x00430000, 64), (10, 0x02, 0x006C0000, 544), (11, 0x04, 0x00748000, 272), (12, 0x0A, 0x00440000, 512),
   (13, 0x0A, 0x004C0000, 2048), (14, 0x0A, 0x00800000, 1792), (15, 0x0A, 0x00A00000, 12288),
   (16, 0x18, 0x01600000, 8192), (17, 0x0E, 0x02000000, 32768),
   (32, 0x01, 0x00000000, 1024), (33, 0x01, 0x00100000, 1024), (34, 0x19, 0x00200000, 1024),
   (35, 0x01, 0x00300000, 1024), (36, 0x01, 0x00400000, 4096)]

/-- The regions in force: the live image's, with SIZE in bytes as base and length; without a live image the
default places, with no host access (R203, R231). -/
def Dev.map (d : Dev) : List (Nat × Nat × Nat × Nat) :=
  if d.isLive then d.regions.map (fun (c, f, b, z) => (c, f, b, z * 1024)) else []

/-- A region by its code: flags, base, bytes. The loader keeps regions 1 to 11 where the live map has them; without a live image
they are where the last one had them, and on a device that has had none where the default map places them (R231). -/
def Dev.region (d : Dev) (code : Nat) : Option (Nat × Nat × Nat) :=
  if d.isLive then (d.map.find? (fun r => r.1 == code)).map (fun r => r.2)
  else ((d.store.places ++ defaultMap).find? (fun r => r.1 == code)).map (fun (_, f, b, z) => (f, b, z * 1024))

def Dev.regionBase (d : Dev) (code : Nat) : Nat := ((d.region code).map (fun r => r.2.1)).getD 0
def Dev.regionSize (d : Dev) (code : Nat) : Nat := ((d.region code).map (fun r => r.2.2)).getD 0

/-- The region that holds an address: code and flags. -/
def Dev.regionAt (d : Dev) (sram : Bool) (a : Nat) : Option (Nat × Nat) :=
  (d.map.find? (fun (_, f, b, z) => bitOf f 0 == sram && decide (b ≤ a) && decide (a < b + z))).map (fun r => (r.1, r.2.1))

/-- Whether an MRAM address lies in the TN3003 area (R213). -/
def Dev.inTn (d : Dev) (a : Nat) : Bool := (d.regionAt false a).any (fun r => r.1 == 18)

/-! ## Tiles (R204 to R210) -/

/-- What verifying a tile finds (R206). -/
inductive TileRes where
  | good | bad | torn
  deriving DecidableEq, Repr

/-- The side word of a tile that was never written: a valid tag (R200). -/
def SideWord.fresh : SideWord := { dif := 0, pend := false, page := 0 }

def Dev.side (d : Dev) (t : Nat) : SideWord := tabGet .fresh d.store.side t
def Dev.setSide (d : Dev) (t : Nat) (w : SideWord) : Dev := d.mapStore (fun s => { s with side := tabPut .fresh t w s.side })

/-- The result of R206 for an MRAM tile: its CRC equals the tag where the two do not differ. -/
def Dev.tileRes (d : Dev) (t : Nat) : TileRes :=
  let w := d.side t
  if w.dif = 0 then .good else if w.pend then .torn else .bad

/-- Count and report a failing tile (R210, R232): address with bit 31 for SRAM, region, consumer, more flags. -/
def Dev.tileFailed (d : Dev) (addr region consumer flags : Nat) (torn : Bool) (origin : Nat) : Dev :=
  let firstTime := decide (addr ∉ d.store.badSet)
  let d := d.mapStore (fun s =>
    { s with nBad := if torn then s.nBad else satU 32 (s.nBad + 1), nTorn := if torn then satU 32 (s.nTorn + 1) else s.nTorn,
             lastBad := addr, badSet := if firstTime then addr :: s.badSet else s.badSet })
  if firstTime then
    d.logNow 0x070 origin (leBytes 4 addr ++ [byteOf region, byteOf consumer, byteOf (b2n torn ||| flags), 0#8])
  else d

/-- Verify an MRAM tile for a consumer (R206, R210): a good pending tile loses PENDING; the first failure is
reported. -/
def Dev.verifyTile (d : Dev) (t consumer flags origin : Nat) : TileRes × Dev :=
  match d.tileRes t with
  | .good =>
    let d := if (d.side t).pend then d.setSide t { d.side t with pend := false } else d
    (.good, d.mapStore (fun s => { s with badSet := s.badSet.filter (fun x => decide (x ≠ 1024 * t)) }))
  | r => (r, d.tileFailed (1024 * t) (((d.regionAt false (1024 * t)).map (fun x => x.1)).getD 0) consumer flags
              (decide (r = .torn)) origin)

/-- Verify an SRAM tile (R207): its tag differs from its CRC only where the tag array lists it. -/
def Dev.verifySram (d : Dev) (t consumer flags origin : Nat) : TileRes × Dev :=
  let addr := 1024 * t + 2 ^ 31
  if tabGet 0#32 d.store.sramBad t = 0 then
    (.good, d.mapStore (fun s => { s with badSet := s.badSet.filter (fun x => decide (x ≠ addr)) }))
  else (.bad, d.tileFailed addr (((d.regionAt true (1024 * t)).map (fun x => x.1)).getD 0) consumer flags false origin)

/-! ## The TN3003 code (R213, R214) -/

/-- The positions 1 to 71 that are no powers of two, ascending: the places of the 64 data bits. -/
def dataPos : List Nat := (List.range 72).filter (fun p => decide (p ≠ 0) && !decide (p ∈ [1, 2, 4, 8, 16, 32, 64]))

/-- Exclusive or of the positions of the set data bits: check bits 0 to 6. -/
def hamSyn (v : Nat) : Nat :=
  ((List.range 64).zip dataPos).foldl (fun x (i, p) => if bitOf v i then x ^^^ p else x) 0

/-- Parity of the low `n` bits. -/
def parityN (n v : Nat) : Nat := sumN ((List.range n).map (fun i => b2n (bitOf v i))) % 2

/-- The check byte of a group. -/
def checkByte (v : Nat) : Nat :=
  let c := hamSyn v
  c + 128 * ((parityN 64 v + parityN 7 c) % 2)

/-- Decode a group and its check byte: the corrected data, or none when uncorrectable; and whether a bit was
corrected. -/
def hamDecode (v c : Nat) : Option Nat × Bool :=
  let syn := hamSyn v ^^^ (c % 128)
  let par := (parityN 64 v + parityN 8 c) % 2
  if syn = 0 ∧ par = 0 then (some v, false)
  else if par = 1 then
    if syn = 0 ∨ syn ∈ [1, 2, 4, 8, 16, 32, 64] then (some v, true)
    else match ((List.range 64).zip dataPos).find? (fun x => x.2 == syn) with
      | some (i, _) => (some (v ^^^ 2 ^ i), true)
      | none => (none, false)
  else (none, false)

/-! ## Page writes (R201, R205) -/

/-- Cut a byte string into 8-byte words. -/
def words8 : List Byte → List (List Byte)
  | a :: b :: c :: e :: f :: g :: h :: i :: t => [a, b, c, e, f, g, h, i] :: words8 t
  | _ => []

/-- The addresses of a page write's words: ascending, continuing at the start of the same page (R201). -/
def pageAddrs (pageSize a n : Nat) : List Nat :=
  (List.range n).map (fun i => a / pageSize * pageSize + (a % pageSize + 8 * i) % pageSize)

/-- Write one word, with its check byte in the TN3003 area. -/
def Dev.putWord (d : Dev) (tn : Bool) (a : Nat) (w : List Byte) : Dev :=
  d.mapStore (fun s =>
    { s with mram := memWrite s.mram a w,
             check := if tn then tabPut 0#8 a (byteOf (checkByte (leVal w))) s.check else s.check })

/-- C0 of a changed word (R205, R207): what the CRC of its tile changes by. -/
def crcChange (tileOff : Nat) (old new : List Byte) : Word :=
  crcZero (List.replicate tileOff 0#8 ++ (old.zip new).map (fun x => x.1 ^^^ x.2) ++ List.replicate (1024 - tileOff - 8) 0#8)

/-- What the CRC of a tile changes by when words of it change: address and old bytes, over the new memory. -/
def crcChanges (m : Tab Byte) (olds : List (Nat × List Byte)) : Word :=
  olds.foldl (fun g w => g ^^^ crcChange (w.1 % 1024) w.2 (memRead m w.1 8)) 0

/-- The side word during a page write: PENDING names the page (R205 step 1). -/
def SideWord.begun (w : SideWord) (page : Nat) : SideWord := if w.pend then w else { w with pend := true, page := page }

/-- The side word after a page write that changed a tile's CRC by `c` (R205): the tag follows the change; a torn tile keeps its
tag until its own page is written, which takes the tag anew over the whole tile. -/
def SideWord.written (w : SideWord) (page : Nat) (c : Word) : SideWord :=
  if !w.pend then { w with page := page }
  else if w.page = page then { w with dif := 0, pend := false }
  else { w with dif := w.dif ^^^ c }

/-- One page write in its three steps (R205), remembered as in flight for the rest of the tick (R212). -/
def Dev.pageWrite (d : Dev) (a : Nat) (data : List Byte) : Dev :=
  let tn := d.inTn a
  let ws := (pageAddrs (if tn then 32 else 256) a (data.length / 8)).zip (words8 data)
  let olds := ws.map (fun x => (x.1, memRead d.store.mram x.1 8))
  let t := a / 1024
  let pg := (a % 1024) / 256
  let w0 := d.side t
  let d1 := ws.foldl (fun d x => d.putWord tn x.1 x.2) d
  if tn then d1.mapStore (fun s => { s with flight := some { words := olds, tile := none, side := w0 } })
  else
    (d1.setSide t (w0.written pg (crcChanges d1.store.mram olds))).mapStore (fun s =>
      { s with flight := some { words := olds, tile := some t, side := w0.begun pg } })

/-- A tile before its last page is written, of a write of all its pages: the side word the earlier pages leave, by what they
change the CRC by. -/
def SideWord.threeWritten (w : SideWord) (c : Word) : SideWord :=
  if !w.pend then w else if w.page = 3 then { w with dif := w.dif ^^^ c } else { w with dif := 0, pend := false }

/-- The 8-byte words of a part of a tile as a memory holds them. -/
def tileWords (m : Tab Byte) (a n : Nat) : List (Nat × List Byte) := (List.range n).map (fun i => (a + 8 * i, memRead m (a + 8 * i) 8))

/-- Whole tiles written, each page by page (R205), the last page in flight for the rest of the tick (R212). -/
def Dev.putTiles (d : Dev) (l : List (Nat × List Byte)) : Dev :=
  d.mapStore (fun s =>
    let m := l.foldl (fun m x => memWrite m (1024 * x.1) x.2) s.mram
    { s with
      mram := m,
      side := l.foldl (fun g x =>
        let w := tabGet .fresh g x.1
        tabPut .fresh x.1 { w with dif := if w.pend then 0 else w.dif, pend := false, page := 3 } g) s.side,
      flight := l.getLast?.map (fun x =>
        let a := 1024 * x.1
        { words := tileWords s.mram (a + 768) 32, tile := some x.1,
          side := ((tabGet .fresh s.side x.1).threeWritten (crcChanges m (tileWords s.mram a 96))).begun 3 }) })

/-- The pages a span touches, with the bytes written to each. -/
def spanPages (a : Nat) (data : List Byte) : List (Nat × List Byte) :=
  let first := min data.length (256 - a % 256)
  let rest := data.drop first
  (a, data.take first) ::
    (List.range (cdiv rest.length 256)).map (fun i => (a + first + 256 * i, (rest.drop (256 * i)).take 256))

/-- Write bytes as one page write per page touched, in ascending address (R223). -/
def Dev.writeSpan (d : Dev) (a : Nat) (data : List Byte) : Dev := (spanPages a data).foldl (fun d p => d.pageWrite p.1 p.2) d

/-! ## Twin records as values (R215 to R218) -/

/-- The newest valid SEQ of a twin record. -/
def Twin.newest {α : Type} (t : Twin α) : Option Nat :=
  match t.a.filter (fun c => c.good), t.b.filter (fun c => c.good) with
  | some x, some y => some (if serialNewer y.seq x.seq then y.seq else x.seq)
  | some x, none => some x.seq
  | none, some y => some y.seq
  | none, none => none

/-- The SEQ and the copy (A: true) of the next write (R217). -/
def Twin.nextCopy {α : Type} (t : Twin α) : Nat × Bool :=
  let s := t.newest.getD 0
  let q := (s + 1) % 2 ^ 32
  let toA := q % 2 == 0
  let va := (t.a.filter (fun c => c.good)).isSome
  let vb := (t.b.filter (fun c => c.good)).isSome
  if (toA && va && !vb) || (!toA && vb && !va) then ((s + 2) % 2 ^ 32, !toA) else (q, toA)

/-- A completed twin write (R217). -/
def Twin.write {α : Type} (t : Twin α) (x : α) : Twin α :=
  let (q, toA) := t.nextCopy
  let c : Option (Copy α) := some { seq := q, data := x, good := true }
  if toA then { t with a := c } else { t with b := c }

/-- An interrupted twin write leaves its copy invalid (R217). -/
def Twin.cut {α : Type} (t : Twin α) (x : α) : Twin α :=
  let (q, toA) := t.nextCopy
  let c : Option (Copy α) := some { seq := q, data := x, good := false }
  if toA then { t with a := c } else { t with b := c }

/-- The selected copy (R218): the newer of two valid, A of two with equal SEQ. -/
def Twin.read {α : Type} (t : Twin α) : Option α :=
  match t.a.filter (fun c => c.good), t.b.filter (fun c => c.good) with
  | some x, some y => some (if serialNewer y.seq x.seq then y.data else x.data)
  | some x, none => some x.data
  | none, some y => some y.data
  | none, none => none

/-- Two valid copies with the same SEQ and different payloads (R218). -/
def Twin.conflict {α : Type} [DecidableEq α] (t : Twin α) : Bool :=
  match t.a, t.b with
  | some x, some y => x.good && y.good && x.seq == y.seq && decide (x.data ≠ y.data)
  | _, _ => false

/-! ## Twin records in MRAM (R215) -/

/-- One tile of a copy: header and payload (R215). -/
def twTile (part parts seq record : Nat) (payload : List Byte) : List Byte :=
  let p := sliceB payload 0 1008
  ascii "TW" ++ [byteOf part, byteOf parts] ++ leBytes 4 seq ++ leBytes 2 record ++ leBytes 2 (min payload.length 1008) ++
  leBytes 4 (crc32c (payload.take 1008)).toNat ++ p

/-- Whether a stored tile is a valid tile of a record (R215). -/
def Dev.twValid (d : Dev) (t part parts record : Nat) : Bool :=
  let b := memRead d.store.mram (1024 * t) 1024
  decide (d.tileRes t = .good) && decide (b.take 2 = ascii "TW") && (u8 b 2 == part) && (u8 b 3 == parts) &&
  (u16 b 8 == record) && ((u32 b 12) == (crc32c (sliceB b 16 (u16 b 10))).toNat)

/-- SEQ of a valid copy of a record that starts at tile `t`. -/
def Dev.twSeq (d : Dev) (t parts record : Nat) : Option Nat :=
  let q := u32 (memRead d.store.mram (1024 * t) 16) 4
  if (List.range parts).all (fun i => d.twValid (t + i) i parts record &&
      u32 (memRead d.store.mram (1024 * (t + i)) 16) 4 == q) then some q else none

/-- The first tiles of the copies A and B of a record of a twin region (R215). -/
def Dev.copyTiles (d : Dev) (code tile0 : Nat) : Nat × Nat :=
  let base := d.regionBase code / 1024
  (base + tile0, base + d.regionSize code / 2048 + tile0)

/-- Write one copy of a record: SEQ and copy (A: true), payload by tile. -/
def Dev.putCopy (d : Dev) (code tile0 record : Nat) (dst : Nat × Bool) (payload : List (List Byte)) : Dev :=
  let (a, b) := d.copyTiles code tile0
  let t := if dst.2 then a else b
  d.putTiles (payload.zipIdx.map (fun x => (t + x.2, twTile x.2 payload.length dst.1 record x.1)))

/-- The copies of a record as the region holds them: SEQ where valid. -/
def Dev.twCopies (d : Dev) (code tile0 record parts : Nat) : Twin Unit :=
  let (a, b) := d.copyTiles code tile0
  let c (q : Option Nat) : Option (Copy Unit) := q.map (fun s => { seq := s, data := (), good := true })
  { a := c (d.twSeq a parts record), b := c (d.twSeq b parts record) }

/-- Write a record of a twin region to the copy R217 gives: the record's first tile within a copy, its number and its
payload by tile. -/
def Dev.twWrite (d : Dev) (code tile0 record : Nat) (payload : List (List Byte)) : Dev :=
  d.putCopy code tile0 record (d.twCopies code tile0 record payload.length).nextCopy payload

/-- Cut a byte string into the payloads of `k` tiles (R215). -/
def tilePayloads : Nat → List Byte → List (List Byte)
  | 0, _ => []
  | k + 1, l => l.take 1008 :: tilePayloads k (l.drop 1008)

/-! ## Records held as values with their tiles (R215 to R218) -/

/-- Tiles from one on all verify good (R206). -/
def Dev.tilesGood (d : Dev) (t n : Nat) : Bool := (List.range n).all (fun i => decide (d.tileRes (t + i) = .good))

/-- A record whose copies count as valid only while their tiles verify good (R215). -/
def Dev.checked {α : Type} (d : Dev) (code tile0 parts : Nat) (r : Twin α) : Twin α :=
  let (a, b) := d.copyTiles code tile0
  let mark (c : Option (Copy α)) (t : Nat) : Option (Copy α) := c.map (fun x => { x with good := x.good && d.tilesGood t parts })
  { a := mark r.a a, b := mark r.b b }

/-- One write of such a record: the value and its tiles (R217). -/
def Dev.putRecord {α : Type} (d : Dev) (code tile0 record : Nat) (r : Twin α) (x : α) (payload : List (List Byte))
    (put : Twin α → Store → Store) : Dev :=
  let t := d.checked code tile0 payload.length r
  (d.mapStore (put (t.write x))).putCopy code tile0 record t.nextCopy payload

/-- The tiles of a record are verified as it is read; the detail tells whether the other copy is used or both failed (R206,
R210). -/
def Dev.verifyCopies {α : Type} (d : Dev) (code tile0 parts consumer : Nat) (r : Twin α) : Dev :=
  let (ta, tb) := d.copyTiles code tile0
  let t := d.checked code tile0 parts r
  let one (d : Dev) (c other : Option (Copy α)) (t0 : Nat) : Dev :=
    if c.isNone then d
    else (List.range parts).foldl (fun d i => (d.verifyTile (t0 + i) consumer (if other.any (fun x => x.good) then 2 else 4) orgDev).2) d
  one (one d r.a t.b ta) r.b t.a tb

/-- Count and log a conflict of two copies (R218). -/
def Dev.conflict (d : Dev) (tileA seq : Nat) : Dev :=
  (d.mapStore (fun s => { s with nConf := satU 32 (s.nConf + 1) })).logNow 0x071 orgDev (leBytes 4 (1024 * tileA) ++ leBytes 4 seq)

/-- Two valid copies with one SEQ and different payloads: A stands, and B is rewritten from it with the next SEQ (R218). -/
def Dev.settleCopies {α : Type} [DecidableEq α] (d : Dev) (code tile0 record parts : Nat) (r : Twin α)
    (payload : α → List (List Byte)) (put : Twin α → Store → Store) : Dev :=
  if (d.checked code tile0 parts r).conflict then
    match r.a with
    | some x =>
      let q := (x.seq + 1) % 2 ^ 32
      ((d.conflict (d.copyTiles code tile0).1 x.seq).mapStore (put { r with b := some { x with seq := q } })).putCopy code tile0 record
        (q, false) (payload x.data)
    | none => d
  else d

/-- A copy found bad or torn is rewritten from the valid one (R208, R217). -/
def Dev.mendCopies {α : Type} (d : Dev) (code tile0 record parts : Nat) (r : Twin α)
    (payload : α → List (List Byte)) (put : Twin α → Store → Store) : Dev :=
  let t := d.checked code tile0 parts r
  match t.a, t.b with
  | some x, some y =>
    if x.good = y.good then d
    else d.putRecord code tile0 record r (if x.good then x.data else y.data) (payload (if x.good then x.data else y.data)) put
  | _, _ => d

/-! ## Queues -/

/-- Queue a journal transaction (R221). -/
def Dev.journal (d : Dev) (pages : List (Nat × List Byte)) (job : Option Nat) : Dev :=
  d.mapStore (fun s => { s with jqueue := s.jqueue ++ [{ pages := pages, job := job }] })

/-- Queue transactions of up to 17 pages each; the job belongs to the last. -/
def Dev.journalSpan (d : Dev) (a : Nat) (data : List Byte) (job : Option Nat) : Dev :=
  d.journal (spanPages a data) job

/-- File a reserve-guarded write: only one runs at a time (R219). -/
def Dev.guarded (d : Dev) (w : RgWrite) : Dev :=
  let k := match w with | .sleepSave => 16 | _ => 2
  (d.mapStore (fun s => { s with rgq := s.rgq ++ [w] })).file .reserveWrite 0 40 k

/-- The running state as captured now (R224, R225), with what the outstanding slices of frame F and the close of the
running frame use (01_archipelago R13, R22, 06_billing R156). -/
def Dev.capture (d : Dev) : Running :=
  { d.run with
    capS := d.clk.secs, capT := d.clk.tick, capRun := d.clk.runTick, fastF := d.clk.fastF, slowF := d.clk.slowF,
    fastN := d.clk.fast, slowN := d.clk.slow, deadN := d.deadPct, closeNow := d.link.closeNow, newOff := d.clk.newOff,
    queue := (d.store.jqueue.filter (fun t => t.job.isNone)).map (fun t => t.pages), mStraits := d.straits, mElems := d.elems,
    mLanes := d.lanes }

/-- The next SAVE_SEQ (R225). -/
def Dev.nextSave (d : Dev) : Nat := (d.store.saveSeq + 1) % 2 ^ 32

end Sys2Proof.Machine
end

