-- ==== Sys2Proof/Machine/Records.lean ====
section
/-! DEFINITION. What the device keeps in the twin regions PARAMS, CALIB, ACCUM and TAMPER, in SEAL, LASTGASP and JOURNAL: values
with the tiles that hold them (09_store R219 to R225, R230). Payloads that the spec gives no layout are the model's (log 76). -/

namespace Sys2Proof.Machine

/-! ## PARAMS and CALIB (R230) -/

/-- PARAMS record 0: legal and binding digest. -/
def Dev.liveRecord (d : Dev) : Option (List Byte × List Byte) := (d.checked 6 0 1 d.store.liveRec).read
def livePayload (x : List Byte × List Byte) : List (List Byte) := [x.1 ++ x.2]
def Dev.putLiveRecord (d : Dev) (x : List Byte × List Byte) : Dev :=
  d.putRecord 6 0 0 d.store.liveRec x (livePayload x) (fun t s => { s with liveRec := t })

/-- PARAMS record 1: lane and the ferry that stands in, none for a failed lane. -/
def Dev.standRecord (d : Dev) : List (Nat × Option Nat) := ((d.checked 6 1 1 d.store.standRec).read).getD []
def standPayload (l : List (Nat × Option Nat)) : List (List Byte) :=
  [l.flatMap (fun x => [byteOf x.1, byteOf (x.2.getD 0xFF)])]
def Dev.putStandRecord (d : Dev) (l : List (Nat × Option Nat)) : Dev :=
  d.putRecord 6 1 1 d.store.standRec l (standPayload l) (fun t s => { s with standRec := t })

/-- PARAMS record 2: for each plan whether its second tile is the active one, and which tiles hold a calendar. -/
def Dev.calRecord (d : Dev) : List (Bool × Bool × Bool) := ((d.checked 6 2 1 d.store.calRec).read).getD []
def calPayload (l : List (Bool × Bool × Bool)) : List (List Byte) :=
  [l.map (fun x => byteOf (flagAt 0 x.1 + flagAt 1 x.2.1 + flagAt 2 x.2.2))]
def Dev.putCalRecord (d : Dev) (l : List (Bool × Bool × Bool)) : Dev :=
  d.putRecord 6 2 2 d.store.calRec l (calPayload l) (fun t s => { s with calRec := t })

/-- PARAMS record 3: local offset, its schedule, LAST_CLOSED of each isle. -/
def Dev.timeRecord (d : Dev) : Option (Int × List (Nat × Int) × Tab Nat) := (d.checked 6 3 1 d.store.timeRec).read
def timePayload (x : Int × List (Nat × Int) × Tab Nat) : List (List Byte) :=
  [leBytes 2 (x.1 % 65536).toNat ++ [byteOf x.2.1.length, 0#8] ++
    x.2.1.flatMap (fun c => leBytes 4 c.1 ++ leBytes 2 (c.2 % 65536).toNat) ++
    (List.range 128).flatMap (fun n => leBytes 4 (tabGet 0 x.2.2 n))]
def Dev.putTimeRecord (d : Dev) (x : Int × List (Nat × Int) × Tab Nat) : Dev :=
  d.putRecord 6 3 3 d.store.timeRec x (timePayload x) (fun t s => { s with timeRec := t })

/-- The calibration record: legal digest and the LK values (07_legal_readout R164, R165), 8 tiles. -/
def Dev.calibRecord (d : Dev) : Option (List Byte × Tab Word) := (d.checked 7 0 8 d.store.calibRec).read
def calibPayload (x : List Byte × Tab Word) : List (List Byte) :=
  tilePayloads 8 (x.1 ++ lkAddrs.flatMap (fun a => leBytes 4 (tabGet 0#32 x.2 a ^^^ regReset a).toNat))
def Dev.putCalibRecord (d : Dev) (x : List Byte × Tab Word) : Dev :=
  d.putRecord 7 0 0 d.store.calibRec x (calibPayload x) (fun t s => { s with calibRec := t })

/-- The records of PARAMS and CALIB are read at power-up: their tiles are verified, a conflict is settled (R206, R218). -/
def Dev.readParams (d : Dev) : Dev :=
  let s := d.store
  let d := ((((d.verifyCopies 6 0 1 0 s.liveRec).verifyCopies 6 1 1 0 s.standRec).verifyCopies 6 2 1 0 s.calRec).verifyCopies 6 3 1 0
    s.timeRec).verifyCopies 7 0 8 0 s.calibRec
  let d := d.settleCopies 6 0 0 1 s.liveRec livePayload (fun t s => { s with liveRec := t })
  let d := d.settleCopies 6 1 1 1 s.standRec standPayload (fun t s => { s with standRec := t })
  let d := d.settleCopies 6 2 2 1 s.calRec calPayload (fun t s => { s with calRec := t })
  let d := d.settleCopies 6 3 3 1 s.timeRec timePayload (fun t s => { s with timeRec := t })
  d.settleCopies 7 0 0 8 s.calibRec calibPayload (fun t s => { s with calibRec := t })

/-! ## Saves (R225) -/

/-- The payload of a tile of a save: tile 256 as R225 gives it, the rest bytes whose layout the spec leaves open. -/
def SaveImg.payload (x : SaveImg) (t : Nat) : List Byte :=
  let free (n : Nat) : List Byte := (List.range n).map (fun i => Config.saveByte x.seq t i)
  if t = 256 then
    leBytes 4 x.seq ++ [byteOf x.kind, 0#8, 0#8, 0#8] ++ leBytes 4 x.run.capS ++ leBytes 2 x.run.capT ++ leBytes 2 x.run.off ++ free 992
  else free 1008

/-- The payloads of the 272 tiles of a save. -/
def SaveImg.payloads (x : SaveImg) : List (List Byte) := (List.range 272).map x.payload

/-- The periodic copies that are valid: each of their tiles verifies good (R215, R228). -/
def Dev.accumNow (d : Dev) : Twin SaveImg := d.checked 10 0 272 d.store.accum

/-- A complete twin write of a periodic save (R217, R226). -/
def Dev.putSave (d : Dev) (x : SaveImg) : Dev :=
  (d.putRecord 10 0 0 d.store.accum x x.payloads (fun t s => { s with accum := t })).mapStore (fun s =>
    { s with saveSeq := x.seq, svTime := x.run.capS, svSeq := x.seq })

/-- An interrupted write of a periodic save leaves its copy invalid (R217). -/
def Dev.cutSave (d : Dev) (x : SaveImg) : Dev :=
  d.mapStore (fun s => { s with accum := (d.accumNow).cut x })

/-- A tile of the last-gasp save: the header of R215 with TAG "LG" and SAVE_SEQ (R225). -/
def lgTile (x : SaveImg) (t : Nat) : List Byte := ascii "LG" ++ (twTile t 272 x.seq 0 (x.payload t)).drop 2

/-- The last-gasp or SLEEP-entry save is written to the LASTGASP region, tile 256 last (R225, R227). -/
def Dev.putGasp (d : Dev) (x : SaveImg) : Dev :=
  let base := d.regionBase 11 / 1024
  let order := ((List.range 272).filter (fun t => decide (t ≠ 256))) ++ [256]
  (d.putTiles (order.map (fun t => (base + t, lgTile x t)))).mapStore (fun s =>
    { s with gasp := some x, saveSeq := x.seq, svTime := x.run.capS, svSeq := x.seq })

/-- The last-gasp save, valid while its archipelago tiles are (R228). -/
def Dev.gaspNow (d : Dev) : Option SaveImg :=
  d.store.gasp.filter (fun _ => d.tilesGood (d.regionBase 11 / 1024 + 256) 16)

/-- The isles whose two tiles of the last-gasp save fail (R228). -/
def Dev.gaspBadIsles (d : Dev) : List Nat :=
  (List.range 128).filter (fun n => !d.tilesGood (d.regionBase 11 / 1024 + 2 * n) 2)

/-- The newest valid save of the running state: the periodic copies and the last gasp, by SAVE_SEQ (R228). -/
def Dev.newestSave (d : Dev) : Option SaveImg :=
  let t := d.accumNow
  let l := [t.a, t.b].filterMap (fun c => (c.filter (fun x => x.good)).map (fun x => x.data))
  (l ++ d.gaspNow.toList).foldl (fun best x =>
    match best with
    | none => some x
    | some y => some (if serialNewer x.seq y.seq then x else y)) none

/-- The tiles of the working SRAM that hold running state are verified as a save writes them (R207). -/
def Dev.verifyWork (d : Dev) : Dev :=
  let b := d.regionBase 32 / 1024
  let l := (d.store.sramBad.map (fun e => e.1)).filter (fun t => decide (b ≤ t ∧ t < b + d.regionSize 32 / 1024))
  d.forEach l (fun t d => (d.verifySram t 0 0 (if t - b < 256 then orgIsle ((t - b) / 2) else orgDev)).2)

/-! ## The seal ring (R219) -/

/-- The record in force: the valid one with the newest SEQ. -/
def Tamper.sealRec (t : Tamper) : Option (Bool × Nat) :=
  t.sealRing.foldl (fun best r =>
    match best, r with
    | some x, some y => some (if serialNewer y.2 x.2 then y else x)
    | none, r => r
    | best, none => best) none

/-- A seal-state record goes to tile SEQ mod 4 of the ring. -/
def Dev.putSeal (d : Dev) (shut : Bool) : Dev :=
  let q := ((d.tam.sealRec.map (fun r => r.2)).getD 0 + 1) % 2 ^ 32
  (d.mapTam (fun t => { t with sealRing := t.sealRing.set (q % 4) (some (shut, q)) })).putTiles
    [(d.regionBase 5 / 1024 + q % 4, twTile 0 1 q 0 [byteOf (b2n shut)])]

/-- At power-up the records whose tiles fail are gone, each failure reported (R206, R209). -/
def Dev.loadSeal (d : Dev) : Dev :=
  let b := d.regionBase 5 / 1024
  let l := (List.range 4).filter (fun i => ((d.tam.sealRing.getD i none).isSome) && !d.tilesGood (b + i) 1)
  let d := d.forEach l (fun i d => (d.verifyTile (b + i) 0 0 orgDev).2)
  d.mapTam (fun t => { t with sealRing := t.sealRing.zipIdx.map (fun x => if x.2 ∈ l then none else x.1) })

/-! ## The tamper ledger (12_events_tamper R309) -/

/-- A ledger entry as its record holds it: the words of the ledger view. -/
def Ledger.stored (l : Ledger) : List Byte :=
  leBytes 4 (flagAt 0 l.raised + flagAt 1 l.flagged + flagAt 2 l.pin + flagAt 3 l.disp + 16 * l.test) ++ leBytes 4 l.count ++
  leBytes 4 l.first ++ leBytes 4 l.last ++ leBytes 4 l.dur ++ leBytes 4 l.testAt

/-- The payload of TAMPER record `r`: 42 entries, or FREEZE in record 31. -/
def Dev.tamperRecord (d : Dev) (r : Nat) : List Byte :=
  if r = 31 then [byteOf (b2n d.tam.freeze)]
  else (List.range 42).flatMap (fun i => (d.ledger (42 * r + i)).stored)

/-- Ledger changes and FREEZE are written in the open slices of their frame (R309, R312). -/
def Dev.flushTamper (d : Dev) : Dev :=
  if decide (736 ≤ d.off) && d.isLive && (!d.tam.dirty.isEmpty || d.tam.freeze != d.tam.keptFz) then
    let l := d.tam.dirty ++ (if d.tam.freeze != d.tam.keptFz then [31] else [])
    let d := d.forEach l (fun r d => d.twWrite 9 r r [d.tamperRecord r])
    d.mapTam (fun t => { t with kept := t.ledger, keptFz := t.freeze, dirty := [] })
  else d

/-- A twin record of a region is present: one of its copies is valid (R218). -/
def Dev.recordHeld (d : Dev) (code tile0 record parts : Nat) : Bool :=
  let t := d.twCopies code tile0 record parts
  t.a.isSome || t.b.isSome

/-- The tiles of a twin record are verified as it is read (R206, R210). -/
def Dev.verifyRecord (d : Dev) (code tile0 record parts origin : Nat) : Dev :=
  let (a, b) := d.copyTiles code tile0
  let t := d.twCopies code tile0 record parts
  let one (d : Dev) (t0 : Nat) (other : Bool) : Dev :=
    (List.range parts).foldl (fun d i => (d.verifyTile (t0 + i) 0 (if other then 2 else 4) origin).2) d
  one (one d a t.b.isSome) b t.a.isSome

/-- The payload of a stored copy, by tile. -/
def Dev.twPayload (d : Dev) (t parts : Nat) : List (List Byte) :=
  (List.range parts).map (fun i =>
    let b := memRead d.store.mram (1024 * (t + i)) 1024
    sliceB b 16 (u16 b 10))

/-- Two valid copies of a twin record with one SEQ and different payloads: B is rewritten from A (R218). -/
def Dev.settleRecord (d : Dev) (code tile0 record parts : Nat) : Dev :=
  let (a, b) := d.copyTiles code tile0
  match d.twSeq a parts record, d.twSeq b parts record with
  | some x, some y =>
    let p := d.twPayload a parts
    if x = y ∧ p ≠ d.twPayload b parts then (d.conflict a x).putCopy code tile0 record ((x + 1) % 2 ^ 32, false) p else d
  | _, _ => d

/-- A twin record is read: its tiles are verified and a conflict is settled. -/
def Dev.readRecord (d : Dev) (code tile0 record parts origin : Nat) : Dev :=
  (d.verifyRecord code tile0 record parts origin).settleRecord code tile0 record parts

/-- A copy of a twin record that is bad or torn is rewritten from the valid one; an empty copy stays (R208). -/
def Dev.mendRecord (d : Dev) (code tile0 record parts : Nat) : Dev :=
  let (a, b) := d.copyTiles code tile0
  let t := d.twCopies code tile0 record parts
  if t.a.isSome && t.b.isNone && !d.tilesGood b parts then d.putCopy code tile0 record t.nextCopy (d.twPayload a parts)
  else if t.b.isSome && t.a.isNone && !d.tilesGood a parts then d.putCopy code tile0 record t.nextCopy (d.twPayload b parts)
  else d

/-- The ledger as the TAMPER region gives it at power-up; an absent record is as never written (R209). -/
def Dev.loadTamper (d : Dev) : Dev :=
  let l := ((d.tam.kept.map (fun (e : Nat × Ledger) => ledgerRecord e.1)) ++ (if d.tam.keptFz then [31] else [])).dedup
  let d := d.forEach l (fun r d => d.readRecord 9 r r 1 orgDev)
  let gone := l.filter (fun r => !d.recordHeld 9 r r 1)
  d.mapTam (fun t =>
    let kept := t.kept.filter (fun e => decide (ledgerRecord e.1 ∉ gone))
    let fz := t.keptFz && decide (31 ∉ gone)
    { t with kept := kept, keptFz := fz, freeze := fz, dirty := [],
             ledger := kept.foldl (fun l e => tabPut .init e.1 { e.2 with testing := false, since := 0, quiet := 0 } l) [] })

/-! ## The journal's tiles (R220) -/

/-- The header tile of a transaction in a STATE. -/
def JEntry.header (e : JEntry) (state : Nat) : List Byte :=
  leBytes 4 state ++ leBytes 4 e.seq ++ ascii "TJ" ++ [byteOf e.pages.length, 0#8] ++ leBytes 4 e.seq ++
  sliceB (e.pages.flatMap (fun p => leBytes 4 p.1)) 0 1008

/-- Body tile `k`: OLD and NEW of pages 2k and 2k + 1. -/
def JEntry.body (e : JEntry) (k : Nat) : List Byte :=
  sliceB (((e.pages.drop (2 * k)).take 2).flatMap (fun p => p.2.1 ++ p.2.2.1)) 0 1024

/-- Tiles of the ring. -/
def Dev.ringTiles (d : Dev) : Nat := max 1 (d.regionSize 3 / 1024)

/-- The store tile of the `i`-th tile of a transaction, counted from its header. -/
def Dev.ringTile (d : Dev) (e : JEntry) (i : Nat) : Nat := d.regionBase 3 / 1024 + (e.pos + i) % d.ringTiles

/-- Body tiles, then the header tile: a transaction is prepared (R221). -/
def Dev.putJournal (d : Dev) (e : JEntry) : Dev :=
  let n := cdiv e.pages.length 2
  d.putTiles ((List.range n).map (fun k => (d.ringTile e (1 + k), e.body k)) ++ [(d.ringTile e 0, e.header e.state)])

/-- STATE_WORD is written alone, as one word that no tag covers (R220). -/
def Dev.putState (d : Dev) (e : JEntry) (state : Nat) : Dev :=
  d.mapStore (fun s => { s with mram := memWrite s.mram (1024 * d.ringTile e 0) (leBytes 4 state ++ leBytes 4 e.seq) })

/-- Whether the images of page `i` of a transaction are readable: its body tile verifies good (R222). -/
def Dev.bodyGood (d : Dev) (e : JEntry) (i : Nat) : Bool := d.tilesGood (d.ringTile e (1 + i / 2)) 1

end Sys2Proof.Machine
end

