-- ==== Sys2Proof/Machine/VaultOps.lean ====
section
/-! DEFINITION. The vault's shared operations (13_keys R320 to R336): attributes of slots, the KDF, use
counting, derivation, invalidation with orphaning, and the session's end. -/

namespace Sys2Proof.Machine

/-! ## Attributes of slots (R322, R323, R329) -/

/-- A slot exists for a command: slots 0 to 2 always, the others while the live KEY_POLICY defines them; slot 2
is refused while a live policy leaves it undefined (R322). -/
def Dev.slotExists (d : Dev) (k : Nat) : Bool :=
  decide (k < 64) && (if d.isLive then d.kpDefined k else decide (k ≤ 2))

/-- USAGE, ATTR, PARENT and LABEL of a slot: built in for slots 0 to 2 (R323), the live policy's where it
defines the slot, else as stored with its material (R329). -/
def Dev.slotAttrs (d : Dev) (k : Nat) : Nat × Nat × Nat × Nat :=
  if k = 0 then (0x02, 0x80, 0, 0) else if k = 1 then (0x01, 0x80, 0, 1) else if k = 2 then (0x10, 0x80, 0, 2)
  else if d.isLive && d.kpDefined k then (d.kpUsage k, d.kpAttr k, d.kpParent k, d.kpLabel k)
  else let s := d.slot k; (s.usage, s.attr, s.parent, s.label)

def Dev.slUsage (d : Dev) (k : Nat) : Nat := (d.slotAttrs k).1
def Dev.slAttr (d : Dev) (k : Nat) : Nat := (d.slotAttrs k).2.1
def Dev.slParent (d : Dev) (k : Nat) : Nat := (d.slotAttrs k).2.2.1
def Dev.slLabel (d : Dev) (k : Nat) : Nat := (d.slotAttrs k).2.2.2
def Dev.slLimited (d : Dev) (k : Nat) : Bool := bitOf (d.slAttr k) 0
def Dev.slExpires (d : Dev) (k : Nat) : Bool := bitOf (d.slAttr k) 1
def Dev.slLegal (d : Dev) (k : Nat) : Bool := bitOf (d.slAttr k) 2
/-- Derived: LABEL not 0; installed: LABEL 0 and not slot 0 (R322). -/
def Dev.slDerived (d : Dev) (k : Nat) : Bool := d.slLabel k != 0
def Dev.slInstalled (d : Dev) (k : Nat) : Bool := d.slLabel k == 0 && k != 0
/-- SIGN and AGREE slots hold P-256 keys (R322). -/
def Dev.slP256 (d : Dev) (k : Nat) : Bool := bitOf (d.slUsage k) 0 || bitOf (d.slUsage k) 4
def Dev.slLive (d : Dev) (k : Nat) : Bool := decide ((d.slot k).state = .live)
/-- COUNT_LIMIT in force. -/
def Dev.slLimit (d : Dev) (k : Nat) : Nat := if d.isLive && d.kpDefined k then d.kpLimit k else (d.slot k).limit

def SlotState.code : SlotState → Nat
  | .empty => 0 | .live => 1 | .orphaned => 2 | .spent => 3 | .expired => 4

/-- Whether `k` is a descendant of `s`: its chain of PARENT fields passes through it (R323). Parents are lower. -/
def Dev.descends (d : Dev) (s : Nat) : Nat → Nat → Bool
  | 0, _ => false
  | f + 1, k => if k = 0 then false else let p := d.slParent k; p == s || d.descends s f p

/-- The descendants of a slot that hold or held material, ascending. -/
def Dev.descendants (d : Dev) (s : Nat) : List Nat := (List.range 64).filter (fun k => k != s && d.descends s 64 k)

/-! ## KDF and keys (R320, R325, R426) -/

/-- The 12 serial bytes, byte j holding serial bits 8j + 7 to 8j (R426). -/
def serial12 : List Byte := leBytes 12 Config.serial.toNat

/-- The KDF: `bits` of K(1) ‖ K(2) … (R320). -/
def kdf (kin label ctx : List Byte) (bits : Nat) : List Byte :=
  ((List.range (cdiv bits 128)).flatMap (fun i =>
    Config.cmac kin (beBytes 4 (i + 1) ++ label ++ [0#8] ++ ctx ++ beBytes 4 bits))).take (bits / 8)

/-- The order of P-256. -/
def p256n : Nat := 0xFFFFFFFF00000000FFFFFFFFFFFFFFFFBCE6FAADA7179E84F3B9CAC2FC632551

/-- The number of big-endian bytes. -/
def beVal (l : List Byte) : Nat := leVal l.reverse

/-- The root in force: the test root with debug enabled (R343), else X xor Y (R332). -/
def Dev.root (d : Dev) : Option (List Byte) :=
  if d.vault.debug then some Config.testRoot
  else d.vault.shares.map (fun (x, y) => (x.zip y).map (fun p => p.1 ^^^ p.2))

/-- The key a slot holds. -/
def Dev.slotKey (d : Dev) (k : Nat) : Option (List Byte) := if k = 0 then d.root else (d.slot k).key

/-- The legal digest in force, empty without a live image (R325). -/
def Dev.legalDigest (d : Dev) : List Byte := (d.img.live.map (fun l => l.legal)).getD []

/-- The derived key of a slot for a GENERATION under its parent's key (R325). -/
def Dev.deriveKey (d : Dev) (k gen : Nat) (kin : List Byte) : List Byte :=
  let label := ascii "TLK" ++ [byteOf (d.slLabel k)]
  let ctx := serial12 ++ [byteOf k] ++ leBytes 4 gen ++ (if d.slLegal k then d.legalDigest else [])
  if d.slP256 k then beBytes 32 (beVal (kdf kin label ctx 320) % (p256n - 1) + 1) else kdf kin label ctx 256

/-- Change a slot's state with its view's stamp and cause (R347). -/
def Dev.setSlotState (d : Dev) (k : Nat) (st : SlotState) (cause origin : Nat) : Dev :=
  d.upSlot k (fun s =>
    { s with state := st, chgS := d.clk.secs, chgT := d.clk.tick, cause := cause, origin := origin,
             key := if st = .live ∨ st = .spent then s.key else none, working := if st = .live then s.working else false })

/-- Count a use of a slot (R326). -/
def Dev.useSlot (d : Dev) (k : Nat) : Dev :=
  d.upSlot k (fun s => { s with uses := satU 24 (s.uses + 1), working := true, mask := d.vault.draw })

/-- A COUNT_LIMITED slot whose counter has reached its limit becomes SPENT (R326). -/
def Dev.spendSlot (d : Dev) (k : Nat) : Dev :=
  if d.slLimited k && d.slLive k && decide (d.slLimit k ≤ (d.slot k).uses) then d.setSlotState k .spent 7 0x7F else d

/-- Make a slot LIVE with material, GENERATION and USES 0, storing its attributes (R329). -/
def Dev.makeLive (d : Dev) (k gen : Nat) (key : List Byte) (cause : Nat) : Dev :=
  let (u, a, p, l) := d.slotAttrs k
  let limit := d.slLimit k
  let (iv, d) := d.drbg 12
  (d.upSlot k (fun s =>
    { s with usage := u, attr := a, parent := p, label := l, gen := gen, uses := 0, limit := limit,
             key := some key, iv := iv, mask := d.vault.draw })).setSlotState k .live cause 0x7F

/-- Derived slots that are EMPTY under a parent: to be derived at the next boundary (R325). -/
def Dev.emptyChildren (d : Dev) (p : Nat) : List Nat :=
  (List.range 64).filter (fun k => d.slotExists k && d.slDerived k && d.slParent k == p && k != 0 &&
    decide ((d.slot k).state = .empty))

/-- A slot became LIVE: its EMPTY derived children derive at the next boundary (R325). -/
def Dev.queueChildren (d : Dev) (p : Nat) : Dev :=
  d.mapVault (fun v => { v with derive := v.derive ++ (d.emptyChildren p).filter (fun k => decide (k ∉ v.derive)) })

/-- Derive a slot when its parent is LIVE, counting one use of the parent (R325). -/
def Dev.deriveSlot (d : Dev) (k gen cause : Nat) : Dev :=
  let p := d.slParent k
  match d.slotKey p with
  | some kin =>
    if d.slLive p then
      (((d.makeLive k gen (d.deriveKey k gen kin) cause).useSlot p).spendSlot p).queueChildren k
    else d
  | none => d

/-- The derivations of a boundary (R325). -/
def Dev.runDerivations (d : Dev) : Dev :=
  let l := d.vault.derive
  let d := d.mapVault (fun v => { v with derive := [] })
  d.forEach l (fun k d => if (d.slot k).state = .empty then d.deriveSlot k (d.slot k).gen 1 else d)

/-! ## Sessions (R339 to R341) -/

/-- The session ends, logged with its reason; LK values not yet frozen go with a METROLOGY session (R163, R341). -/
def Dev.endSession (d : Dev) (reason : Nat) : Dev :=
  match d.vault.session with
  | none => d
  | some s =>
    let d := d.mapVault (fun v => { v with session := none, leaving := false })
    let d := if s.role = 1 then
        d.mapLink (fun l => { l with shadow := l.shadow.filter (fun e => decide ((regAcc e.1).1 ≠ .lk)) }) else d
    d.logNow 0x0A7 orgDev [byteOf s.role, byteOf reason]

/-- The vault slot of a role's key (R323). -/
def roleSlot (role : Nat) : Nat := 3 + role

/-! ## Invalidation (R335) -/

/-- The slots a job's operation uses: SIGN_READING and ATTEST slot 1, CRYPTO its slot, KEY_INSTALL slot 2 and its
target, KEY_RENEW its target and the parent. -/
def Dev.jobSlots (d : Dev) (j : Job) : List Nat :=
  if j.op = 0x20 ∨ j.op = 0x69 then [1]
  else if j.op = 0x67 then [u8 j.args 0]
  else if j.op = 0x64 then [2, u8 j.args 0]
  else if j.op = 0x65 then [d.slParent (u8 j.args 0), u8 j.args 0]
  else []

/-- End the running operations that use any of some slots: ST_KEY_ORPHANED at step 3, requests withdrawn. -/
def Dev.endOps (d : Dev) (ks : List Nat) : Nat × Dev :=
  let hit (j : Job) : Bool := decide (j.phase = .running) && (d.jobSlots j).any (fun k => decide (k ∈ ks)) &&
    (match j.op with | 0x64 => decide (2 ∈ ks) || decide (u8 j.args 0 ∈ ks)
                     | _ => true)
  let n := (d.link.jobs.filter hit).length
  let ws := (d.link.jobs.filter hit).map (fun j => j.num)
  (n, (d.mapLink (fun l =>
        { l with jobs := l.jobs.map (fun j => if hit j then { j with fin := some (.keyOrphaned, 0, []) } else j) })).mapPwr
      (fun p => { p with reqs := p.reqs.filter (fun r => match r.who with
                                                       | .job n => decide (n ∉ ws)
                                                       | _ => true) }))

/-- Invalidate slot `s` at the boundary: cause 4 host, 5 WIPE, 8 expiry, 10 policy (R335, R347). With debug enabled nothing
is written to the vault, and its slots stand (R343). -/
def Dev.invalidate (d : Dev) (s cause : Nat) : Dev :=
  let old := (d.slot s).state
  let ds := (d.descendants s).filter (fun k =>
    decide ((d.slot k).state = .live ∨ (d.slot k).state = .spent))
  let new : SlotState := if cause = 8 then .expired else .empty
  let d := d.setSlotState s new cause 0x7F
  let d := d.forEach ds (fun k d => d.setSlotState k .orphaned 6 s)
  let (n, d) := d.endOps (s :: ds)
  let d := d.logNow 0x0A3 orgDev
    ([byteOf s, byteOf old.code, byteOf new.code, byteOf cause] ++ leBytes 2 ds.length ++ leBytes 2 n)
  let d := match d.vault.session with
    | some x => if roleSlot x.role ∈ s :: ds then d.endSession 3 else d
    | none => d
  let mask : BitVec 64 := 1#64 <<< s
  if d.vault.debug then d else (d.mapBak (fun b => { b with wipe := b.wipe ||| mask })).guarded (.slots mask)

/-- The invalidations latched for this boundary: only the ancestor of two related ones, in ascending slot order
(R313, R335, R336). -/
def Dev.runInvalidations (d : Dev) : Dev :=
  let l := d.vault.inval
  let d := d.mapVault (fun v => { v with inval := [] })
  let slots := (List.range 64).filter (fun k => l.any (fun x => x.1 == k))
  let top := slots.filter (fun k => !slots.any (fun a => a != k && d.descends a 64 k))
  d.forEach top (fun k d => d.invalidate k (((l.find? (fun x => x.1 == k)).map (fun x => x.2.1)).getD 4))

/-- Zero the working copies whose last operation has ended (R333). -/
def Dev.dropCopies (d : Dev) : Dev :=
  let used := (d.link.jobs.filter (fun j => decide (j.phase = .running))).flatMap (fun j => d.jobSlots j)
  d.forEach ((d.vault.slots.filter (fun e => e.2.working && decide (e.1 ∉ used))).map (fun e => e.1))
    (fun k d => d.upSlot k (fun s => { s with working := false }))

/-! ## The VAULT region (R330) -/

/-- The storage key: the KDF over the root; empty without a root. -/
def Dev.storageKey (d : Dev) : List Byte :=
  (d.root.map (fun r => kdf r (ascii "TLK" ++ [0xFF#8]) (serial12 ++ leBytes 4 d.vault.rootSeq) 256)).getD []

/-- The record of a slot, 120 bytes. A slot without material holds 0 in KEY_LENGTH, IV, KEY and TAG. -/
def Dev.slotRecord (d : Dev) (k : Nat) : List Byte :=
  let s := d.slot k
  let key := if k = 0 then none else s.key
  leBytes 1 s.state.code ++ [byteOf s.usage, byteOf s.attr, byteOf s.parent, byteOf s.label, byteOf s.origin,
    byteOf ((key.map List.length).getD 0), 0#8] ++ leBytes 4 s.gen ++ leBytes 4 s.uses ++ leBytes 4 s.limit ++ leBytes 4 0 ++
  (match key with
   | some m => sliceB s.iv 0 12 ++
       sliceB (Config.gcmEnc d.storageKey (sliceB s.iv 0 12) ([byteOf k] ++ leBytes 4 s.gen) (sliceB m 0 32)) 0 48
   | none => List.replicate 60 0#8) ++ List.replicate 36 0#8

/-- The payload of a vault record by its primary tile. -/
def Dev.vaultPayload (d : Dev) (t : Nat) : List Byte :=
  let share (x : List Byte) : List Byte := x ++ leBytes 4 d.vault.resplit
  if t = 0 then leBytes 4 (tabGet 0 d.vault.seqs 0) ++ leBytes 4 d.vault.rootSeq ++ leBytes 4 d.vault.resplit ++ leBytes 8 d.vault.mono
  else if t = 1 then sliceB (d.vault.authM.getD []) 0 64 ++ sliceB (d.vault.authO.getD []) 0 64
  else if t < 10 then (List.range 8).flatMap (fun i => d.slotRecord (8 * (t - 2) + i)) ++ List.replicate 48 0#8
  else match d.vault.shares with
    | some (x, y) => if t = 16 then share x else share y
    | none => []

/-- A record is written: primary, then mirror, both with the SEQ after the one in force. With debug enabled only the header,
which holds the monotonic counter, is (R343). -/
def Dev.putVault (d : Dev) (ts : List Nat) : Dev :=
  let ts := if d.vault.debug then ts.filter (fun t => t == 0) else ts
  let base := d.regionBase 4 / 1024
  let d := d.mapVault (fun v => { v with seqs := ts.foldl (fun q t => tabPut 0 t ((tabGet 0 q t + 1) % 2 ^ 32) q) v.seqs })
  let tile (t : Nat) : List Byte := twTile 0 1 (tabGet 0 d.vault.seqs t) t (d.vaultPayload t)
  d.putTiles (ts.flatMap (fun t => [(base + t, tile t), (base + 32 + t, tile t)]))

/-- The tiles of the slot records. -/
def slotTileNos : List Nat := (List.range 8).map (fun i => i + 2)

/-- Both copies of a vault record fail their tile check (R334). -/
def Dev.vaultLost (d : Dev) (t : Nat) : Bool :=
  let base := d.regionBase 4 / 1024
  decide (tabGet 0 d.vault.seqs t ≠ 0) && !d.tilesGood (base + t) 1 && !d.tilesGood (base + 32 + t) 1

/-- The vault as its region gives it at power-up: failing tiles are reported, and a record without a valid copy is as never
written (09_store R206, R209). -/
def Dev.loadVault (d : Dev) : Dev :=
  let base := d.regionBase 4 / 1024
  let ts := d.vault.seqs.map (fun e => e.1)
  let d := d.forEach (ts ++ ts.map (fun t => t + 32)) (fun t d => if d.tilesGood (base + t) 1 then d else (d.verifyTile (base + t) 0 0 orgDev).2)
  let d := if d.vaultLost 1 then d.mapVault (fun v => { v with authM := none, authO := none }) else d
  d.forEach ((List.range 64).filter (fun k => d.vaultLost (2 + k / 8))) (fun k d => d.setSlot k .init)

/-- New shares of a root (R331, R332). -/
def Dev.splitRoot (d : Dev) (root : List Byte) : Dev :=
  let (r, d) := d.drbg 32
  d.mapVault (fun v => { v with shares := some (r, (root.zip r).map (fun p => p.1 ^^^ p.2)) })

/-- Generate a root with ROOT_SEQ + 1 and derive slots 1 and 2 (R331, R334). -/
def Dev.makeRoot (d : Dev) : Dev :=
  let (root, d) := d.drbg 32
  let d := d.splitRoot root
  let d := d.mapVault (fun v => { v with rootSeq := v.rootSeq + 1, rootOk := true })
  let d := d.setSlotState 0 .live 1 0x7F
  let d := (d.deriveSlot 1 (d.slot 1).gen 1)
  let d := (d.deriveSlot 2 (d.slot 2).gen 1)
  d.logNow 0x0A0 orgDev (leBytes 4 d.vault.rootSeq)

end Sys2Proof.Machine
end

