-- ==== Sys2Proof/Machine/LinkOps.lean ====
section
/-! DEFINITION. The host link's shared operations (15_host_link R369 to R379): framing, the checks in the order of
R372, the response, plain and shadowed writes, mailbox commands and jobs. -/

namespace Sys2Proof.Machine

/-- The command byte (R370): OP, reserved bits 4:2 and 6, QUAD, SESSION. -/
def linkCmd (l : Link) (op : Nat) : Nat :=
  op + 4 * (l.rsv.toNat % 8) + flagAt 5 l.quad + 64 * (l.rsv.toNat / 8) + flagAt 7 l.session

/-- The bytes the request CRC covers (R369): command, address and length most significant byte first, payload. -/
def linkFrame (l : Link) (op addr len : Nat) (payload : List Byte) : List Byte :=
  byteOf (linkCmd l op) :: (beBytes 4 addr ++ beBytes 2 len ++ payload)

/-- The request CRC is right. -/
def linkCrcOk (l : Link) (op addr len : Nat) (payload : List Byte) : Bool :=
  decide (crc32c (linkFrame l op addr len (payload ++ l.trailer)) = l.crc)

/-- The session trailer is accepted (13_keys R340): CTR above the last, and the tag. -/
def trailerOk (l : Link) (s : Session) (op addr len : Nat) (payload : List Byte) : Bool :=
  let ctr := u32 l.trailer 0
  l.trailer.length == 12 && decide (s.ctr < ctr) &&
  decide (sliceB l.trailer 4 8 = (Config.cmac s.key (linkFrame l op addr len payload ++ leBytes 4 ctr)).take 8)

/-- A refused session transaction: the third in one session closes it (R340, R341). -/
def Dev.sessionRefused (d : Dev) : Dev :=
  match d.vault.session with
  | none => d
  | some s =>
    let d := d.mapVault (fun v => { v with session := some { s with bad := s.bad + 1 } })
    if 3 ≤ s.bad + 1 then d.endSession 4 else d

/-- The response is sent, and HL_LAST reports it (R373, R383). -/
def Dev.respond (d : Dev) (cmd : Nat) (st : Status) (payload : List Byte) : Dev :=
  d.mapLink (fun k =>
    { k with resp := some { status := st, payload := payload }, lastSt := st.code, lastCmd := cmd, lastTxn := d.clk.runTick })

/-- The bytes of a response on the link, from Sync on (R369): status, length most significant byte first, payload, and the CRC
over these, least significant byte first. -/
def Response.frame (r : Response) : List Byte :=
  let b := byteOf r.status.code :: (beBytes 2 r.payload.length ++ r.payload)
  0xA5#8 :: (b ++ leBytes 4 (crc32c b).toNat)

/-- The spans of the address map (R381) but the mailbox. -/
def spans : List (Nat × Nat) :=
  [(0, 0x7FFF), (0x8000, 0x83FF), (0x10000, 0x117FF), (0x20000, 0x20FFF), (0x30000, 0x307FF),
   (0x01000000, 0x017FFFFF), (0x10000000, 0x13FFFFFF), (0x20000000, 0x2003FFFF), (0x20100000, 0x2010FFFF),
   (0x21000000, 0x217FFFFF), (0x2D000000, 0x2D03FFFF), (0x2E000000, 0x2E0003FF), (0x2E400000, 0x2E4017FF),
   (0x2E500000, 0x2E503FFF), (0x2E600000, 0x2E62FFFF), (0x2E800000, 0x2E801FFF), (0x2E900000, 0x2E9BFFFF),
   (0x2EA00000, 0x2EA01FFF), (0x2EC00000, 0x2EFFFFFF), (0x2F000000, 0x2F0018FF), (0x2F100000, 0x2F10007F),
   (0x2F200000, 0x2F20002F), (0x2F300000, 0x2F300033), (0x2F400000, 0x2F400817), (0x2F500000, 0x2F5007FF),
   (0x2F600000, 0x2F6001FF), (0x2F610000, 0x2F617FFF), (0x2F700000, 0x2F707FFF)]

/-- An access of `n` bytes at an address lies inside one span, or starts at the mailbox address (R375, R376, R381). -/
def spanInMap (a n : Nat) : Bool := decide (a = 0x30000000) || spans.any (fun r => decide (r.1 ≤ a ∧ a + (n - 1) ≤ r.2))

/-- The link answers (16_startup R394): it is up, and the device is not held in reset or in HOLD. -/
def Dev.linkLive (d : Dev) : Bool := d.link.up && decide (d.pwr.mode ≠ .reset ∧ d.pwr.mode ≠ .hold)

/-- NAP, SLEEP or a latched power fail (R372, first check). -/
def Dev.linkBusy (d : Dev) : Bool := decide (d.pwr.mode = .nap ∨ d.pwr.mode = .sleep ∨ d.pwr.mode = .failing)

/-- One host transaction through the checks of R372 up to the address map; `shape` is the alignment and length
rule of R375; `body` is the access itself, told whether the transaction belongs to the session. -/
def Dev.transact (d : Dev) (l : Link) (op addr len : Nat) (payload : List Byte) (shape mapped : Bool)
    (body : Bool → Dev → Status × List Byte × Dev) : Dev :=
  let n := if op = 1 ∨ op = 2 then len + l.trailer.length else len
  let cmd := linkCmd l op
  if !d.linkLive then d.mapLink (fun k => { k with resp := none })
  else if d.linkBusy then d.mapLink (fun k => { k with resp := some { status := .busy, payload := [] } })
  else if !linkCrcOk l op addr n payload then
    d.mapLink (fun k => { k with resp := some { status := .denied, payload := [] }, crcErr := satU 16 (k.crcErr + 1) })
  else if l.rsv ≠ 0 ∨ (l.session ∧ (op = 0 ∨ op = 3)) ∨ 4096 < n ∨ shape = false then d.respond cmd .range []
  else if l.session then
    match d.vault.session with
    | none => d.respond cmd .denied []
    | some s =>
      if trailerOk l s op addr n payload then
        let d := d.mapVault (fun v => { v with session := some { s with ctr := u32 l.trailer 0, lastT := d.clk.runTick } })
        if !mapped then d.respond cmd .range []
        else let (st, p, d) := body true d; d.respond cmd st p
      else d.sessionRefused.respond cmd .denied []
  else if !mapped then d.respond cmd .range []
  else let (st, p, d) := body false d; d.respond cmd st p

/-- The role of the session a transaction belongs to, 3 without one. -/
def Dev.roleOf (d : Dev) (sess : Bool) : Nat := if sess then (d.vault.session.map (fun s => s.role)).getD 3 else 3

/-! ## Register writes (R377) -/

/-- The commands of R342's HOST row are refused outside a session while slot 5 is LIVE. -/
def Dev.hostDenied (d : Dev) (sess : Bool) : Bool := d.slLive 5 && !sess

/-- The refusal of one word of a WR to register space, if any (R162, R342, R377). -/
def Dev.wordRefusal (d : Dev) (sess : Bool) (a v : Nat) : Option Status :=
  match (regAcc a).1 with
  | .ro => none
  | .w1c => none
  | .lk =>
    if !d.sealOpen || d.tam.freeze then some .sealed
    else if d.roleOf sess ≠ 1 then some .denied
    else d.regRule a v
  | .rw | .sh =>
    if a = 0x2000 ∧ d.hostDenied sess then some .denied
    else if d.regIgnored a then none
    else d.regRule a v

/-- Accept one word: plain writes wait for the tick boundary, SH and LK values enter the shadow set (R23, R24). -/
def Dev.acceptWord (d : Dev) (a v : Nat) : Dev :=
  match (regAcc a).1 with
  | .ro => d
  | .w1c => d.mapLink (fun k => { k with plain := k.plain ++ [.clear a (wordOf v)] })
  | .rw => if d.regIgnored a then d else d.mapLink (fun k => { k with plain := k.plain ++ [.word a (wordOf v)] })
  | .sh | .lk =>
    d.mapLink (fun k =>
      { k with shadow := (k.shadow.filter (fun e => decide (e.1 < a))) ++
                 (a, wordOf v &&& wordOf (regAcc a).2) :: (k.shadow.filter (fun e => decide (a < e.1))) })

/-- A WR to register space: word by word in ascending address; the first refusal refuses all (R377). -/
def Dev.writeRegs (d : Dev) (sess : Bool) (a : Nat) (ws : List Nat) : Status × List Byte × Dev :=
  let aw := (List.range ws.length).zip ws |>.map (fun x => (a + 4 * x.1, x.2))
  match aw.findSome? (fun x => d.wordRefusal sess x.1 x.2) with
  | some st => (st, [], d)
  | none => (.done, [], aw.foldl (fun d x => d.acceptWord x.1 x.2) d)

/-- A WR transaction to register space. -/
def Dev.wrRegs (d : Dev) (l : Link) (a : Nat) (data : List Byte) : Dev :=
  d.transact l 1 a data.length data (decide (a % 4 = 0 ∧ data.length % 4 = 0))
    (spanInMap a data.length)
    (fun sess d => d.writeRegs sess a (wordsOf data))

/-! ## Jobs (01_archipelago R29) -/

def Dev.findJob (d : Dev) (n : Nat) : Option Job := d.link.jobs.find? (fun j => j.num == n)

def Dev.upJob (d : Dev) (n : Nat) (f : Job → Job) : Dev :=
  d.mapLink (fun k => { k with jobs := k.jobs.map (fun j => if j.num = n then f j else j) })

/-- The next job number: 1 to 65,535 in sequence, held numbers skipped; at most 32 are held (R29). -/
def nextJob (held : List Nat) : Nat → Nat → Nat
  | 0, last => if last < 65535 then last + 1 else 1
  | f + 1, last =>
    let n := if last < 65535 then last + 1 else 1
    if n ∈ held then nextJob held f n else n

/-- A job's completion of this tick (latched at its boundary): status, result word, result. -/
def Dev.finish (d : Dev) (n : Nat) (st : Status) (word : Nat) (result : List Byte) : Dev :=
  d.upJob n (fun j => { j with fin := some (st, word, result) })

/-- Whether a job of some opcode is held and not finished. -/
def Dev.jobRuns (d : Dev) (op : Nat) : Bool := d.link.jobs.any (fun j => j.op == op && decide (j.phase ≠ .finished))

/-- Accept a job (R29, R379): ST_DONE with its number, or ST_BUSY with 32 held. -/
def Dev.acceptJob (d : Dev) (op : Nat) (args : List Byte) (role : Nat) : Status × List Byte × Dev :=
  if 32 ≤ d.link.jobs.length then (.busy, [], d)
  else
    let n := nextJob (d.link.jobs.map (fun j => j.num)) 33 d.link.lastJob
    let j : Job := { num := n, op := op, args := args, role := role, phase := .accepted, stage := 0, needs := [], ready := 0,
                     fin := none, status := .busy, word := 0, result := [], cap := [] }
    (.done, leBytes 2 n, d.mapLink (fun k => { k with jobs := k.jobs ++ [j], lastJob := n }))

/-! ## Mailbox commands (R378, R379, R428) -/

/-- An EXEC: payload OPCODE, two zero bytes, arguments; its length, session and live-image rules; then the
command. -/
def Dev.exec (d : Dev) (l : Link) (op : Nat) (args : List Byte) (lenOk hostRow needLive : Bool)
    (body : Bool → Dev → Status × List Byte × Dev) : Dev :=
  let payload := leBytes 2 op ++ [0#8, 0#8] ++ args
  d.transact l 2 0x30000000 payload.length payload true true (fun sess d =>
    if !lenOk then (.range, [], d)
    else if hostRow && d.hostDenied sess then (.denied, [], d)
    else if needLive && !d.isLive then (.busy, [], d)
    else body sess d)

/-- An EXEC that starts a job. -/
def Dev.execJob (d : Dev) (l : Link) (op : Nat) (args : List Byte) (lenOk hostRow needLive : Bool) : Dev :=
  d.exec l op args lenOk hostRow needLive (fun sess d => d.acceptJob op args (d.roleOf sess))

/-- Owner authority (13_keys R337): the OWNER session of the transaction, or the seal open with no session open. -/
def Dev.ownerOk (d : Dev) (role : Nat) : Bool := role == 0 || (d.sealOpen && d.vault.session.isNone)

end Sys2Proof.Machine
end

