-- ==== Sys2Proof/Machine/Lanes.lean ====
section
/-! DEFINITION. Lanes: the decimation chain, trims, estimated spans, ferry rotation, stand-in and RTD results
(02_lanes R31 to R58). -/

namespace Sys2Proof.Machine

/-! ## The decimation chain (R38 to R43) -/

/-- Add into a chain of four 24-bit integrators. -/
def cicInt (x : Int) : List Int → List Int
  | [] => []
  | a :: t => let y := sext 24 (twos 24 (a + x)); y :: cicInt y t

/-- Four combs: the output and the new delays. -/
def cicComb (x : Int) : List Int → Int × List Int
  | [] => (x, [])
  | a :: t => let (y, r) := cicComb (sext 24 (twos 24 (x - a))) t; (y, x :: r)

/-- Thirty-two modulator bits through the integrators: a set bit counts +1, a clear bit -1. -/
def cicFeed (bits : BitVec 256) (i : List Int) (from_ : Nat) : List Int :=
  (List.range 32).foldl (fun i k => cicInt (if bits.getLsbD (from_ + k) then 1 else -1) i) i

/-- Stage rounding (R39): SAT(RNE(x / 2^n)) to a word of `w` bits. -/
def stageOut (w n : Nat) (x : Int) : Int := satS w (rne ((x : Rat) / (2 ^ n : Nat)))

/-- Push samples into a history of a depth, newest first. -/
def pushH (depth : Nat) (h : List Int) (l : List Int) : List Int := (l.reverse ++ h).take depth

/-- A decimating FIR stage: each second sample gives an output. -/
def firStage (coef : Nat → Int) (taps shift : Nat) : List Int → List Int → List Int × List Int
  | h, a :: b :: t =>
    let h := pushH taps h [a, b]
    let y := stageOut 32 (17 + shift) (firSum coef taps h)
    let (ys, h) := firStage coef taps shift h t
    (y :: ys, h)
  | h, _ => ([], h)

/-- Settling ticks of a response (R41). -/
def respSettle (r : Nat) : Nat :=
  nth [32, 64, 16, 64, 64, 64, 64, 23487, 19577, 23519, 19609, 23519, 19609, 1632, 3232, 352] r 0
/-- Settling ticks of a response's FIR alone: without the integrator's decay or the averager (R41, R42). -/
def firSettle (r : Nat) : Nat :=
  if 13 ≤ r then 32 else if 7 ≤ r ∧ r ≤ 12 then respSettle r - rogoDecay r else respSettle r
/-- Averager length of a DC response (R41). -/
def respAvg (r : Nat) : Nat := nth [1600, 3200, 320] (r - 13) 0
/-- Passband edge of a response in Hz, 0 for a DC response (R41, R95). -/
def respEdge (r : Nat) : Nat := nth [3600, 3600, 3000, 6400, 6000, 1000, 500, 3600, 3600, 6400, 6400, 1000, 1000] r 0
/-- Equal-delay group of a response (R34). -/
def respGroup (r : Nat) : Nat := if r = 2 then 2 else if r = 0 ∨ r = 7 ∨ r = 8 then 0 else 1

/-- The averager's output over its history; the rounding of a fraction is open. -/
def avgOut (r : Nat) (h : List Int) : Int :=
  roundOpen 1 ((sumZ (h.take (respAvg r)) : Rat) / respAvg r)

/-- The shifts' sum S of a settings word (R40). -/
def laneShifts (w : Nat) : Nat := laneShift w 1 + laneShift w 2 + laneShift w 3 + laneShift w 4

/-- The code of density 1.0: 2^(31 - S) (R40). -/
def codeScale (w : Nat) : Rat := pow2 (31 - (laneShifts w : Int))

/-- Rated full scale in codes: a density of 0.8 (R31, R40). -/
def ratedCode (w : Nat) : Rat := 4 / 5 * codeScale w

/-- Whether a response is one of ROGO, or one with an averager (R33, R41). -/
def isRogo (r : Nat) : Bool := decide (7 ≤ r ∧ r ≤ 12)
def isDc (r : Nat) : Bool := decide (13 ≤ r)

/-- One tick of a lane's chain: settings word, state, bits; the stage 4 output and the lane's code. The integrator and the
averager of a response follow the rounded stage 4 output (R39, R42, R43); where the integrator's value falls between two
codes, the one taken is open. -/
def chainStep (w : Nat) (l : LaneSt) (bits : BitVec 256) : LaneSt × Int × Int :=
  let (i, c, out) := (List.range 8).foldl (fun (i, c, out) k =>
      let i := cicFeed bits i (32 * k)
      let (y, c) := cicComb (i.getLastD 0) c
      (i, c, out ++ [stageOut 32 (laneShift w 1) (y * 2048)])) (l.cicI, l.cicC, ([] : List Int))
  let (o2, h2) := firStage stage2Coeff 31 (laneShift w 2) l.h2 out
  let (o3, h3) := firStage stage3Coeff 47 (laneShift w 3) l.h3 o2
  let r := laneResp w
  let h4 := pushH (respTaps r) l.h4 o3
  let y := stageOut 24 (17 + laneShift w 4) (firSum (stage4Coeff r) (respTaps r) h4)
  let l := { l with cicI := i, cicC := c, h2 := h2, h3 := h3, h4 := h4 }
  if isRogo r then
    let g := rogoStep r l.integ y
    ({ l with integ := g }, y, satS 24 (roundOpen 20 (rogoOut r g y)))
  else if isDc r then
    let h := (y :: l.avg).take (respAvg r)
    ({ l with avg := h }, y, avgOut r h)
  else (l, y, y)

/-- The run of identical bits after a tick's bits (R32). -/
def bitRunAfter (l : LaneSt) (bits : BitVec 256) : Bool × Nat :=
  (List.range 256).foldl (fun (b, n) k =>
    let x := bits.getLsbD k
    if x = b then (b, min 1024 (n + 1)) else (x, 1)) (l.lastBit, l.bitRun)

/-! ## Rotation (R48, R49, R57) -/

/-- Ferries in rotation: ENABLED, not standing in, not faulty. -/
def Dev.rotFerries (d : Dev) : List Nat :=
  (List.range 8).filter (fun f => d.ferryEnabled f && (d.lane (192 + f)).standFor.isNone && !(d.lane (192 + f)).faulty)

/-- Lanes in rotation: neither OFF nor failed without stand-in. -/
def Dev.rotLanes (d : Dev) : List Nat :=
  (List.range 192).filter (fun n => laneMode (d.laneWord n) != 0 && !(d.lane n).failed)

/-- Frames of a cycle. -/
def Rotation.frames (r : Rotation) : Nat := 12 * cdiv r.lanes.length r.ferries.length

/-- The frame within the cycle. -/
def Dev.cycleFrame (d : Dev) : Nat := (d.clk.frameNo - d.rot.start) % d.rot.frames

/-- The lane or ferry that serves lane `n`, and its state: the stand-in's samples and trim replace the lane's in every
consumer (R53). -/
def Dev.serving (d : Dev) (n : Nat) : Nat := match (d.lane n).standin with | some f => 192 + f | none => n
def Dev.served (d : Dev) (n : Nat) : LaneSt := d.lane (d.serving n)

/-- The lane a ferry visits in visit `v`, if any (R49). -/
def Rotation.target (r : Rotation) (f v : Nat) : Option Nat :=
  match r.ferries.findIdx? (fun x => x == f) with
  | some i => r.lanes[i + v * r.ferries.length]?
  | none => none

/-- The same while the lane is in rotation: a lane that left it during the cycle is not visited (R49). -/
def Dev.visiting (d : Dev) (f v : Nat) : Option Nat := (d.rot.target f v).filter (fun n => decide (n ∈ d.rotLanes))

/-- The lane a ferry is with now: the one it stands in for, else the one of the running visit. -/
def Dev.ferryLane (d : Dev) (f : Nat) : Option Nat :=
  match (d.lane (192 + f)).standFor with
  | some n => some n
  | none => if d.rot.running then d.visiting f (d.cycleFrame / 12) else none

/-- The visits in progress are abandoned: their lanes are inconclusive (R50). At the end of a visit none is. -/
def Dev.abandonVisits (d : Dev) : Dev :=
  if d.rot.running && decide ((d.clk.frameNo - d.rot.start) % 12 ≠ 0) then
    d.forEach d.rot.ferries (fun f d =>
      match d.visiting f (d.cycleFrame / 12) with
      | some n => d.upLane n (fun l => { l with inconcl := true })
      | none => d)
  else d

/-- Start a rotation cycle at the running frame boundary, when a ferry rotates (R49, R57). -/
def Dev.startCycle (d : Dev) : Dev :=
  let d := d.abandonVisits
  let f := d.rotFerries
  let l := d.rotLanes
  let none_ := f.isEmpty || l.isEmpty
  { d with rot := { d.rot with running := !none_, start := d.clk.frameNo, ferries := if none_ then [] else f,
                               lanes := if none_ then [] else l } }

/-- The settings word a lane or ferry runs with: a ferry keeps those it adopted last (R48). -/
def Dev.settings (d : Dev) (n : Nat) : Nat := if n < 192 then d.laneWord n else (d.lane n).word

/-! ## Delivery of a tick's samples -/

/-- The lane is converting (R58 ACTIVE): its mode is not OFF; an RTD input only while it is excited (R36). -/
def Dev.converting (d : Dev) (n : Nat) : Bool :=
  d.isLive && laneMode (d.settings n) != 0 && (laneMode (d.settings n) != 4 || d.rtdOn)

/-- The gain trim as a factor (R51). -/
def LaneSt.gain (l : LaneSt) : Rat := 1 + (l.gTrim : Rat) / 2 ^ 24

/-! ## Measurements of the rotation (R47, R50, R55) -/

/-- What a unit measures in the running tick: 1 the reference, 2 the input in parallel, 0 nothing. -/
def Dev.measures (d : Dev) (n : Nat) : Nat :=
  let test := match d.rot.testAt with
    | some t => decide (n ∈ d.rot.testing) && decide (1 ≤ d.clk.frameNo - t ∧ d.clk.frameNo - t ≤ 2)
    | none => false
  let k := d.cycleFrame % 12
  if test then 1
  else if !d.rot.running then 0
  else if 192 ≤ n ∧ (n - 192) ∈ d.rot.ferries then
    if k = 1 ∨ k = 2 then 1 else if 4 ≤ k ∧ (d.visiting (n - 192) (d.cycleFrame / 12)).isSome then 2 else 0
  else if 4 ≤ k ∧ (d.rot.ferries.any (fun f => (d.visiting f (d.cycleFrame / 12)).any (fun t => d.serving t == n))) then 2 else 0

/-- The strait whose fundamental a lane carries: its own, or the one of the element that uses it. -/
def Dev.laneStrait (d : Dev) (n : Nat) : Option Nat :=
  match (List.range 16).find? (fun s => d.stConf s && d.stLane s == n) with
  | some s => some s
  | none => ((List.range 192).find? (fun e => d.elKind e == 1 && d.elLaneI e == n)).map (fun e => d.elStrait e)

/-- The lane whose input a unit is measured with. -/
def Dev.inputOf (d : Dev) (n : Nat) : Nat := if n < 192 then n else (d.ferryLane (n - 192)).getD n

/-- The period of the fundamental a unit is measured at, in ticks: the tracked one of its strait, else the nominal one
(R50; log 62). -/
def Dev.measPeriod (d : Dev) (n : Nat) : Rat :=
  match d.laneStrait (d.inputOf n) with
  | some s => if (d.strait s).locked && (d.strait s).period != 0 then ((d.strait s).period : Rat) / 65536
              else if d.stGrid60 s then 800 / 3 else 320
  | none => 320

/-- One tick's code enters the unit's sums: at 16 ticks per cycle against the reference sine, else at the fundamental. -/
def Dev.measure (d : Dev) (n : Nat) (code : Int) : Dev :=
  match d.measures n with
  | 0 => d
  | m =>
    let u : Rat := if m = 1 then ((d.clk.runTick % 16 : Nat) : Rat) / 16
      else (d.clk.runTick : Rat) / (d.lane n).mPer
    d.upLane n (fun l =>
      { l with mDc := l.mDc + code, mC := l.mC + code * Config.cosTurn u, mS := l.mS + code * Config.sinTurn u, mN := l.mN + 1 })

/-- A unit's sums start anew, at a period in ticks. -/
def LaneSt.clearMeas (period : Rat) (l : LaneSt) : LaneSt := { l with mDc := 0, mC := 0, mS := 0, mN := 0, mPer := period }

/-- The reference trim of a unit from its sums (R47): the ratios of what the direct level of 125 mV/g and the sine of
250 mV/g should give, densities 0.2 and 0.4, to what they gave, and the sine's delay in 1/4,096 tick. -/
def refTrim (w : Nat) (l : LaneSt) : Int × Int :=
  let r := laneResp w
  let n : Rat := l.mN
  let dc := l.mDc / n
  let amp2 := 4 * (l.mC * l.mC + l.mS * l.mS) / (n * n)
  let want := 2 / 5 * codeScale w * Config.refSineGain r
  let sine := if amp2 = 0 then 1 else want / ((sqrtInt 25 (amp2 * 2 ^ 40) : Nat) / 2 ^ 20)
  let direct := if dc = 0 then 1 else 1 / 5 * codeScale w * (if isRogo r then rogoGain r / (1 - rogoPole r) else 1) / dc
  let g := roundNear ((Config.refGain r direct sine - 1) * 2 ^ 24)
  let lead := Config.angleTurn l.mC (-l.mS) - Config.refSinePhase r
  (g, if isDc r then 0 else roundNear ((lead - roundNear lead) * 16 * 4096))

/-- A trim beyond the bounds of R53: 0.1 % in gain, 2 microseconds in delay. -/
def trimBad (t : Int × Int) : Bool := decide (16777 < t.1.natAbs) || decide (131 < t.2.natAbs)

/-- The lane's trim against its ferry (R50): the ratio of the fundamental amplitudes, and the lane's lead in 1/4,096 tick;
for RTD and AUX lanes the ratio of the mean codes alone. The ferry's own trim applies to what it measured. None when the
visit is inconclusive: the lane below 1 % of rated full scale, or nothing measured. -/
def visitTrim (w : Nat) (l f : LaneSt) : Option (Int × Int) :=
  if l.mN = 0 ∨ f.mN = 0 then none
  else if 1 ≤ laneMode w ∧ laneMode w ≤ 3 then
    let l2 := (l.mC * l.mC + l.mS * l.mS) / (l.mN * l.mN)
    let f2 := (f.mC * f.mC + f.mS * f.mS) / (f.mN * f.mN)
    if 4 * l2 * 10000 < ratedCode w * ratedCode w ∨ l2 = 0 then none
    else
      let one : Rat := 2 ^ 24 + f.gTrim
      let g : Int := (sqrtNear (f2 / l2 * one * one) : Int) - 2 ^ 24
      let lead := Config.angleTurn l.mC (-l.mS) - Config.angleTurn f.mC (-f.mS)
      some (g, roundNear ((lead - roundNear lead) * l.mPer * 4096) + f.dTrim)
  else
    let lm := l.mDc / l.mN
    let fm := f.mDc / f.mN * f.gain
    if (if lm < 0 then -lm else lm) * 100 < ratedCode w ∨ lm = 0 then none
    else some (roundNear ((fm / lm - 1) * 2 ^ 24), 0)

/-! ## A tick's samples -/

/-- A delivered output enters the lane's histories; AUX lanes hold it (R33, R58). -/
def Dev.deliver (d : Dev) (n : Nat) (code : Int) : Dev :=
  d.upLane n (fun l =>
    let out := (code : Rat) * l.gain
    { l with hist := (code :: l.hist).take 1408, out := (out :: l.out).take 6400,
             held := if laneMode (d.settings n) = 5 then roundOpen 24 out else l.held })

/-- Run one lane's chain for the tick, count over-range and the identical bits (R32), and deliver its output; an RTD lane
delivers its held code instead (R33, R36). -/
def Dev.chainLane (d : Dev) (n : Nat) (bits : BitVec 256) : Dev :=
  if d.converting n then
    let w := d.settings n
    let old := d.lane n
    let (l, y, code) := chainStep w old bits
    let big := decide (7340032 < y.natAbs)
    let odd := d.clk.frameNo % 2 == 1
    let (b, r) := bitRunAfter l bits
    let first := decide (old.bitRun < 1024 ∧ 1024 ≤ r)
    let d := d.setLane n
      { l with
        lastBit := b, bitRun := r, keepI := if first then old.integ else l.keepI, keepA := if first then old.avg else l.keepA,
        ovr := if big then satU 32 (l.ovr + 1) else l.ovr,
        ovrEven := if big && !odd then l.ovrEven + 1 else l.ovrEven,
        ovrOdd := if big && odd then l.ovrOdd + 1 else l.ovrOdd }
    let d := d.measure n code
    if laneMode w = 4 then d else d.deliver n code
  else d

/-- An RTD lane delivers its held code every tick (R33, R36). -/
def Dev.deliverHeld (d : Dev) (n : Nat) : Dev :=
  d.upLane n (fun l => { l with out := ((l.held : Rat) :: l.out).take 6400 })

/-- Deliver the samples of the ending tick from the modulator bits. A converting lane without bits in the input
delivers code 0 (log 5). -/
def Dev.deliverLanes (d : Dev) (bits : List (Nat × BitVec 256)) : Dev :=
  let d := bits.foldl (fun d x => d.chainLane x.1 x.2) d
  let d := d.forEach ((List.range 200).filter (fun n => d.converting n && !(bits.any (fun x => x.1 == n)) &&
      laneMode (d.settings n) != 4)) (fun n d => d.deliver n 0)
  d.forEach ((List.range 192).filter (fun n => d.isLive && laneMode (d.settings n) == 4)) (fun n d => d.deliverHeld n)

/-! ## Estimated spans (R44, R45) -/

/-- Elements that use a lane: as their current lane or through their strait. -/
def Dev.laneElems (d : Dev) (n : Nat) : List Nat :=
  (List.range 192).filter (fun e =>
    ((d.elKind e == 1 || d.elKind e == 2) && d.elLaneI e == n) ||
    (d.elKind e == 1 && d.stConf (d.elStrait e) && d.stLane (d.elStrait e) == n))

/-- Start an estimated span of `k` ticks on a lane: its elements take their mean of the frame that ended, or
zero when the lane was OFF or changed mode (R45). -/
def Dev.startEst (d : Dev) (n k : Nat) (zero : Bool) : Dev :=
  let d := d.upLane n (fun l => { l with estLeft := k, estZero := zero })
  d.forEach (d.laneElems n) (fun e d => d.upElem e (fun x => { x with estP := x.mean }))

/-- A lane's or ferry's chain is reset: whole, or from stage 4 on (R44). -/
def LaneSt.resetChain (l : LaneSt) (whole : Bool) : LaneSt :=
  let l := if whole then { l with cicI := [0, 0, 0, 0], cicC := [0, 0, 0, 0], h2 := [], h3 := [] } else l
  { l with h4 := [], integ := 0, avg := [] }

/-- A change of a lane's entry at a frame boundary (R44): mode or gain resets the chain; a ferry that serves or visits the
lane runs with its settings and is reset with it. The event carries lane and settling count, 4 bytes each (log 63). -/
def Dev.laneChange (d : Dev) (n old new : Nat) : Dev :=
  if old = new then d
  else
    let whole := laneMode old != laneMode new || laneGain old != laneGain new
    let settle := respSettle (laneResp new) + (if whole then 17 else 0)
    let d := d.upLane n (fun l => l.resetChain whole)
    let d := d.forEach ((List.range 8).filter (fun f => d.ferryLane f == some n)) (fun f d =>
      d.upLane (192 + f) (fun l => { l.resetChain whole with word := new }))
    let d := if laneMode new = 0 then d else d.startEst n settle (laneMode old != laneMode new)
    d.logNow 0x010 (orgLane n) (leBytes 4 n ++ leBytes 4 settle)

/-! ## Stand-in and failure (R53 to R57) -/

/-- Ferries standing in. -/
def Dev.standins (d : Dev) : List Nat := (List.range 8).filter (fun f => (d.lane (192 + f)).standFor.isSome)

/-- The twin record of stand-ins and failed lanes (R55). -/
def Dev.saveStandins (d : Dev) : Dev :=
  let l := (List.range 192).filterMap (fun n =>
    if (d.lane n).failed then some (n, none) else (d.lane n).standin.map (fun f => (n, some f)))
  d.putStandRecord l

/-- Ferry `f` stands in for lane `n` from this boundary; a new rotation cycle starts (R53). The event carries lane and
ferry, 2 bytes each (log 63). -/
def Dev.placeStandIn (d : Dev) (n f : Nat) : Dev :=
  let d := d.upLane n (fun l => { l with standin := some f, stuck := false })
  let d := d.upLane (192 + f) (fun l => { l with standFor := some n })
  let d := d.logNow 0x011 (orgLane n) (leBytes 2 n ++ leBytes 2 f)
  d.saveStandins
def Dev.standIn (d : Dev) (n f : Nat) : Dev := (d.placeStandIn n f).startCycle

/-- Lane `n` fails without stand-in from this boundary (R54). The event carries the lane in 2 bytes (log 63). -/
def Dev.failLane (d : Dev) (n : Nat) : Dev :=
  let d := d.upLane n (fun l => { l with failed := true, standin := none, stuck := false })
  let d := d.logNow 0x012 (orgLane n) (leBytes 2 n)
  d.saveStandins

/-- A stuck lane at the frame boundary (R53, R54, R56, R57): the lowest-numbered rotating ferry abandons its visit and
connects with the integrator and averager given, or the lane fails. The FIR settling and 17 ticks more are estimated
from the frame that ended here (R45). -/
def Dev.serveStuck (d : Dev) (n : Nat) (integ : Rat) (avg : List Int) : Dev :=
  match d.rotFerries.head? with
  | none => d.failLane n
  | some f =>
    if 6 ≤ d.standins.length then d.failLane n
    else
      let w := d.laneWord n
      let d := d.upLane (192 + f) (fun x => { x.resetChain true with word := w, integ := integ, avg := avg })
      (d.startEst n (firSettle (laneResp w) + 17) false).standIn n f

/-- A faulty ferry standing in is replaced with the state it served, or its lane fails (R56, R57). -/
def Dev.replaceFerry (d : Dev) (f : Nat) : Dev :=
  let x := d.lane (192 + f)
  match x.standFor with
  | none => d
  | some n =>
    let d := d.upLane (192 + f) (fun l => { l with standFor := none })
    let d := d.upLane n (fun l => { l with standin := none })
    let stuck := decide (1024 ≤ x.bitRun)
    d.serveStuck n (if stuck then x.keepI else x.integ) (if stuck then x.keepA else x.avg)

/-- The lanes and ferries waiting for the frame boundary are served (R53, R56). -/
def Dev.serveLanes (d : Dev) : Dev :=
  let d := d.forEach ((List.range 192).filter (fun n => (d.lane n).stuck)) (fun n d => d.serveStuck n (d.lane n).keepI (d.lane n).keepA)
  d.forEach ((List.range 8).filter (fun f => (d.lane (192 + f)).faulty && (d.lane (192 + f)).standFor.isSome))
    (fun f d => d.replaceFerry f)

/-! ## The frames of a visit (R48, R49) -/

/-- A ferry adopts the settings of the lane it is about to visit and connects to the reference; without a lane it stays as
it is. -/
def Dev.adopt (d : Dev) (f : Nat) : Dev :=
  match d.ferryLane f with
  | some n => d.upLane (192 + f) (fun l => { l.resetChain true with word := d.laneWord n, refBad := false })
  | none => d.upLane (192 + f) (fun l => { l with refBad := false })

/-- The reference trim of a rotating ferry is measured: it is the ferry's own from here on; one beyond the bounds makes the
ferry faulty at the end of its visit (R47, R56). -/
def Dev.ferryTrim (d : Dev) (f : Nat) : Dev :=
  let l := d.lane (192 + f)
  if l.mN = 0 then d
  else
    let t := refTrim l.word l
    if trimBad t then d.upLane (192 + f) (fun l => { l with refBad := true })
    else d.upLane (192 + f) (fun l => { l with gTrim := t.1, dTrim := t.2, trimAt := some d.clk.runTick })

/-- The ferry connects in parallel with its lane and loads the integrator and averager of the unit that serves it (R48). -/
def Dev.connect (d : Dev) (f : Nat) : Dev :=
  match d.ferryLane f with
  | some n =>
    let x := d.served n
    d.upLane (192 + f) (fun l => { l with integ := x.integ, avg := x.avg, h4 := [] })
  | none => d

/-- The frame of a visit that starts at the running boundary (R48); at the end of a cycle its lanes are listed anew (R49). -/
def Dev.visitFrame (d : Dev) : Dev :=
  if !d.rot.running then d
  else
    let d := if d.cycleFrame = 0 ∧ d.rot.start ≠ d.clk.frameNo then d.startCycle else d
    let fs := d.rot.ferries
    let clear (d : Dev) (l : List Nat) : Dev := d.forEach l (fun n d => d.upLane n (LaneSt.clearMeas (d.measPeriod n)))
    match d.cycleFrame % 12 with
    | 0 => d.forEach fs (fun f d => d.adopt f)
    | 1 => clear d (fs.map (· + 192))
    | 3 => (d.forEach fs (fun f d => d.ferryTrim f)).forEach fs (fun f d => d.connect f)
    | 4 => clear d (fs.map (· + 192) ++ fs.flatMap (fun f => ((d.ferryLane f).map (fun n => d.serving n)).toList))
    | _ => d

/-- The frame of a re-test of stood-in lanes that starts at the running boundary (R55): the measurement starts with the
second frame and the verdict falls after the twelfth. A lane within the bounds returns to service with its trim; its ferry
rotates from the next cycle start. -/
def Dev.testFrame (d : Dev) : Dev :=
  match d.rot.testAt with
  | none => d
  | some t =>
    let k := d.clk.frameNo - t
    if k = 1 then d.forEach d.rot.testing (fun n d => d.upLane n (LaneSt.clearMeas 16))
    else if k < 12 then d
    else
      let ok := d.rot.testing.filter (fun n => (d.lane n).standin.isSome && decide ((d.lane n).mN ≠ 0) &&
        !trimBad (refTrim (d.laneWord n) (d.lane n)))
      let d := d.forEach ok (fun n d =>
        let x := refTrim (d.laneWord n) (d.lane n)
        let d := match (d.lane n).standin with
          | some f => d.upLane (192 + f) (fun l => { l with standFor := none })
          | none => d
        d.upLane n (fun l => { l with standin := none, gTrim := x.1, dTrim := x.2, trimAt := some d.clk.runTick, inconcl := false }))
      let d := { d with rot := { d.rot with testAt := none, testing := [] } }
      let d := if ok.isEmpty then d else d.saveStandins
      if d.rot.running then d else d.startCycle

/-! ## Meanings -/

/-- A ferry is faulty: EV_FERRY_FAIL carries the ferry in 2 bytes (R56, log 63). -/
def Dev.failFerry (d : Dev) (f : Nat) : Dev :=
  (d.upLane (192 + f) (fun l => { l with faulty := true })).logNow 0x013 (orgLane (192 + f)) (leBytes 2 f)

/-- LANE_STUCK (R32, R53): with 1,024 identical bits the lane is stuck; its ticks are estimated until a ferry
stands in or the lane fails at the next frame boundary. A stuck ferry is a faulty one (log 64). -/
def execLaneStuck (n : Nat) (s : State) : Host.Outcome State Fault Refusal :=
  onUnit (decide (n < 200)) "lane" s (fun d =>
    if (d.lane n).bitRun < 1024 ∨ (d.lane n).stuck ∨ (d.lane n).failed then d
    else if n < 192 then
      if (d.lane n).standin.isSome then d
      else (d.startEst n (3200 - d.off) false).upLane n (fun l => { l with stuck := true })
    else if (d.lane n).faulty then d else d.failFerry (n - 192))

/-- A conclusive trim takes effect on the unit that serves the lane (R51). -/
def Dev.takeTrim (d : Dev) (n : Nat) (t : Int × Int) : Dev :=
  let d := d.upLane (d.serving n) (fun l => { l with gTrim := t.1, dTrim := t.2, trimAt := some d.clk.runTick, inconcl := false })
  d.upLane n (fun l => { l with inconcl := false, trimAt := some d.clk.runTick })

/-- The visit's verdict on one ferry and its lane (R50, R51, R53, R56). A stand-in that is visited and found out of bounds
is a faulty ferry (log 64). -/
def Dev.visitEnd (d : Dev) (v f : Nat) : Dev :=
  if (d.lane (192 + f)).refBad then d.failFerry f
  else match d.visiting f v with
    | none => d
    | some n =>
      match if (d.lane n).stuck then none else visitTrim (d.laneWord n) (d.served n) (d.lane (192 + f)) with
      | none => d.upLane n (fun l => { l with inconcl := true })
      | some t =>
        if trimBad t then
          if (d.lane n).standin.isNone then (if 6 ≤ d.standins.length then d.failLane n else d.placeStandIn n f)
          else d.failFerry (d.serving n - 192)
        else d.takeTrim n t

/-- The verdicts of the ferries of visit `v`; a new cycle starts when the rotating ferries changed (R49). -/
def Dev.verdicts (d : Dev) (v : Nat) : Dev :=
  let e := d.forEach d.rot.ferries (fun f d => if (d.lane (192 + f)).standFor.isNone then d.visitEnd v f else d)
  if e.rotFerries == d.rot.ferries then e else e.startCycle

/-- The visit that ended with the last tick, at the frame boundary (R51). -/
def Dev.endVisit (d : Dev) : Dev :=
  match d.rot.ending with
  | none => d
  | some v => ({ d with rot := { d.rot with ending := none } }).verdicts v

/-- The visit whose last tick is the running one. -/
def Dev.visitLast (d : Dev) : Option Nat :=
  if d.rot.running && decide (d.off = 3199) && decide (d.cycleFrame % 12 = 11) then some (d.cycleFrame / 12) else none

/-- FERRY_VISIT_END (R51): in the last tick of frame 12v + 11 the visit ends: its conclusive trims take effect at the
boundary, in step 2 before any splice, and faulty lanes and ferries are dealt with there. -/
def execFerryVisitEnd (v : Nat) (s : State) : Host.Outcome State Fault Refusal :=
  .next (s.onDev (fun d =>
    if d.visitLast = some v ∧ (d.pwr.mode = .run ∨ d.pwr.mode = .doze) then { d with rot := { d.rot with ending := some v } }
    else d))

/-- ESTIMATED_SPAN_END (R45): when a lane's estimated span has run out, its elements stop substituting. -/
def execEstimatedSpanEnd (n : Nat) (s : State) : Host.Outcome State Fault Refusal :=
  onUnit (decide (n < 192)) "lane" s (fun d =>
    if (d.lane n).estLeft = 0 then d.upLane n (fun l => { l with estZero := false }) else d)

/-- RTD_REQUEST (R36): in tick-of-second 15,999 one class 6 request of ⌈N/16⌉ quanta for 3,200 ticks. -/
def execRtdRequest (s : State) : Host.Outcome State Fault Refusal :=
  .next (s.onDev (fun d =>
    let n := d.rtdLanes.length
    if d.clk.tick = 15999 ∧ n ≠ 0 then d.file .rtd 6 (cdiv n 16) 3200 else d))

/-- The result of one RTD lane (R36, R37): the averager's output, trimmed; which of two codes a trimmed fraction becomes is
open (log 11). A result within range clears the status bits, another one sets its own. -/
def Dev.rtdResult (d : Dev) (n : Nat) : Dev :=
  let l := d.served n
  let held := roundOpen 24 (avgOut (laneResp (d.laneWord n)) l.avg * l.gain)
  let high := decide (6710886 < held)
  let low := decide (held < 838861)
  d.upLane n (fun x =>
    { x with held := held, heldAt := some d.clk.runTick, rtdOpen := high || (low && x.rtdOpen),
             rtdShort := low || (high && x.rtdShort), rtdStale := (high || low) && x.rtdStale })

/-- An RTD_PAIR element delivers its two codes for the device second, with the gains and offsets in force (03 R65, R77). -/
def Dev.pairCodes (d : Dev) (e : Nat) : Dev :=
  let cs := d.elGain e 0 * (d.lane (d.elLaneI e)).held + d.elOfs e 0
  let cr := d.elGain e 1 * (d.lane (d.elLane2 e)).held + d.elOfs e 1
  d.upElem e (fun x => { x with codeS := some cs, codeR := some cr })

/-- RTD_RESULT (R36): the averager's output at the end of tick-of-second 3,199 is the held code from tick 3,200 on, of
every RTD lane that was excited; the RTD pairs deliver their codes. -/
def execRtdResult (s : State) : Host.Outcome State Fault Refusal :=
  .next (s.onDev (fun d =>
    if d.clk.tick = 3200 ∧ d.rtdDone = true then
      let d := { d.forEach d.rtdLanes (fun n d => d.rtdResult n) with rtdDone := false }
      d.forEach ((List.range 192).filter (fun e => d.elKind e == 3)) (fun e d => d.pairCodes e)
    else d))

/-- The excitation at a tick boundary (R36): it starts with the grant made at tick-of-second 0, a request not granted there
is withdrawn, and it ends at 3,200, where the result waits to be taken. -/
def Dev.excite (d : Dev) (granted : Bool) : Dev :=
  let d := if d.clk.tick = 3200 then { d with rtdOn := false, rtdDone := d.rtdOn }
    else if d.clk.tick = 3201 then { d with rtdDone := false } else d
  if d.clk.tick ≠ 0 then d else if granted then { d with rtdOn := true } else { d.withdraw .rtd with rtdOn := false }

/-- RTD_STALE (R37): the held code is more than 3 s old. -/
def execRtdStale (n : Nat) (s : State) : Host.Outcome State Fault Refusal :=
  onUnit (decide (n < 192)) "lane" s (fun d =>
    let l := d.lane n
    let old := match l.heldAt with
      | some t => decide (48000 < d.clk.runTick - t)
      | none => decide (48000 < d.clk.runTick)
    if laneMode (d.laneWord n) = 4 ∧ old = true then d.upLane n (fun l => { l with rtdStale := true }) else d)

end Sys2Proof.Machine
end

