-- ==== Sys2Proof/Machine/Engines.lean ====
section
/-! DEFINITION. Products, tick-budgeted engines, tick slip and isle tick sums (03_straits_elements R60 to R73,
01_archipelago R26 to R28, R427, 04_isles_windows R83, R84). -/

namespace Sys2Proof.Machine

/-! ## Tick-energy factors (R71) -/

/-- The exponent of the leading binary digit of a positive number. -/
def floorLog2 (x : Rat) : Int :=
  let e : Int := (Nat.log2 x.num.toNat : Int) - Nat.log2 x.den
  if pow2 (e + 1) ≤ x then e + 1 else if pow2 e ≤ x then e else e - 1

/-- A positive number rounded half to even to `n` significant bits. -/
def roundSig (n : Nat) (x : Rat) : Rat :=
  if x ≤ 0 then 0 else let s := pow2 ((n : Int) - 1 - floorLog2 x); (rne (x * s) : Rat) / s

/-- K of a PHASE element, rounded once to 64 significant bits (R71). -/
def Dev.kFactor (d : Dev) (e : Nat) : Rat :=
  roundSig 64 (d.vWeight (d.elStrait e) * d.iWeight e / 16000 / (d.quantumJ (d.elIsle e) * pow2 (-40)))

/-! ## Products of the ending tick (R60 to R70) -/

/-- The interpolated sample `pos`/4,096 ticks behind the newest (R68). -/
def interp (h : List Int) (pos : Int) : Rat :=
  let n := pos.toNat / 4096
  let f := pos.toNat % 4096
  sumQ ((List.range 16).map (fun j => Config.interpTap f j * h.getD (n + j - 7) 0))

/-- v′ from the sample `back` ticks behind the newest: the unit that serves the strait's lane, its gain trim and G_V (R60,
R72, R73). -/
def Dev.vPrime (d : Dev) (s back : Nat) : Rat :=
  let n := d.stLane s
  if (d.lane n).failed then 0 else d.gainV s * (d.served n).gain * ((d.served n).hist.getD back 0 : Int)

/-- v′, v⊥′ and s_V of a strait (R60, R61, R73). -/
def Dev.straitTick (d : Dev) (s : Nat) : Rat × Rat × Rat :=
  let n := d.stLane s
  if (d.lane n).failed then (0, 0, 0)
  else
    let l := d.served n
    let v := d.vPrime s 640
    let c : Rat := ((d.strait s).qcorr.toNat : Rat) / 2 ^ 30
    (v, d.gainV s * l.gain * c * quadPath d.clk.runTick (l.hist.map (fun (x : Int) => (x : Rat))), v * v + d.ofsV s)

/-- τ of an element in 1/4,096 tick (R67). -/
def Dev.tau (d : Dev) (e : Nat) : Int :=
  4 * d.phase e + (d.served (d.elLaneI e)).dTrim - (if d.elKind e = 1 then (d.served (d.stLane (d.elStrait e))).dTrim else 0)

/-- i_d (R69, R72, R73). -/
def Dev.alignedI (d : Dev) (e : Nat) : Rat :=
  let n := d.elLaneI e
  if (d.lane n).failed then 0
  else
    let i := (d.served n).gain * interp (d.served n).hist (640 * 4096 + d.tau e)
    if d.polarity e then -i else i

/-- The lanes an element uses each tick. -/
def Dev.elLanes (d : Dev) (e : Nat) : List Nat :=
  if d.elKind e = 1 then [d.elLaneI e, d.stLane (d.elStrait e)] else [d.elLaneI e]

/-- The products of a PHASE or NEUTRAL element in the running tick (R69, R70, R45, R54). -/
def Dev.products (d : Dev) (e : Nat) : Prod :=
  let ls := d.elLanes e
  let est := ls.filter (fun n => (d.lane n).estLeft ≠ 0)
  let ok := ls.all (fun n => !(d.lane n).failed)
  if est.any (fun n => (d.lane n).estZero) then { Prod.zero with est := true }
  else if !est.isEmpty then { (d.elem e).estP with est := true, metered := ok, void := false, neg := false }
  else
    let id := d.alignedI e
    let gi := d.elGain e 0
    let sI := gi * gi * (id * id) + d.elOfs e 0
    let base : Prod := { Prod.zero with sI := sI, i := gi * id, metered := ok, void := false }
    if d.elKind e = 1 then
      let (v, vq, sV) := d.straitTick (d.elStrait e)
      let p := d.elGain e 1 * v * id + d.elOfs e 1
      let q := d.elGain e 2 * vq * id + d.elOfs e 2
      let neg := d.signAbs e && decide (p < 0)
      { base with p := if neg then -p else p, q := if neg then -q else q, sV := sV, neg := neg }
    else base

/-- The product record of a strait: its s_V (R60). -/
def Dev.straitProd (d : Dev) (s : Nat) : Prod :=
  let l := d.lane (d.stLane s)
  if l.estLeft ≠ 0 ∧ l.estZero = true then { Prod.zero with est := true }
  else { Prod.zero with sV := (d.straitTick s).2.2, metered := true, void := false, est := decide (l.estLeft ≠ 0) }

/-- The PHASE and NEUTRAL elements, ascending. -/
def Dev.tickElems (d : Dev) : List Nat := (List.range 192).filter (fun e => d.elKind e == 1 || d.elKind e == 2)

/-- The configured straits, ascending. -/
def Dev.tickStraits (d : Dev) : List Nat := (List.range 16).filter (fun s => d.stConf s)

/-- Sum two products. -/
def Prod.add (a b : Prod) : Prod :=
  { a with p := a.p + b.p, q := a.q + b.q, sI := a.sI + b.sI, sV := a.sV + b.sV, i := a.i + b.i }

/-- A product divided by a count, 0 for a count of 0. -/
def Prod.div (a : Prod) (n : Nat) : Prod :=
  { a with p := a.p / n, q := a.q / n, sI := a.sI / n, sV := a.sV / n, i := a.i / n }

/-- Window sums run from the tick after the start crossing's tick to the closing tick (04 R94). -/
def Dev.windowAdd (d : Dev) (s : Nat) (sV : Rat) (sI : List (Nat × Rat)) : Dev :=
  d.upStrait s (fun x =>
    let merge (l : List (Nat × Rat)) : List (Nat × Rat) :=
      sI.map (fun e => (e.1, e.2 + ((l.find? (fun y => y.1 == e.1)).map (fun y => y.2)).getD 0))
    let now := d.clk.runTick
    let x := { x with closed := x.closed.map (fun w =>
      if w.closeT = now then { w with sumV := w.sumV + sV, sumI := merge w.sumI, n := w.n + 1 } else w) }
    if x.wStart / 65536 < now then { x with wSumV := x.wSumV + sV, wSumI := merge x.wSumI, wN := x.wN + 1 } else x)

/-- The next output of a strait's tracking filter, for v′ of the running tick (R63). -/
def Dev.trackOut (d : Dev) (s : Nat) (v : Rat) : Rat :=
  let x := d.strait s
  trackCoeff 0 * v + trackCoeff 1 * x.tx.getD 0 0 + trackCoeff 2 * x.tx.getD 1 0 -
    trackCoeff 3 * x.ty.getD 0 0 - trackCoeff 4 * x.ty.getD 1 0

/-- TRACK_MIN in codes (R63). -/
def Dev.trackCodes (d : Dev) (s : Nat) : Rat := ((d.trackMin s * 4096 : Nat) : Rat)

/-- The ending tick passes through a strait's tracking filter and into its window buffer (R63, 04 R92). -/
def Dev.trackTick (d : Dev) (s : Nat) : Dev :=
  let v := d.vPrime s 640
  let y := d.trackOut s v
  let low := decide (y < -(d.trackCodes s / 4))
  d.upStrait s (fun x =>
    { x with tx := [v, x.tx.getD 0 0], ty := [y, x.ty.getD 0 0], armed := x.armed || low, peak := max x.peak y,
             vBuf := (v :: x.vBuf).take 4700 })

/-- Form the products of the ending tick: the tick record, the means of R45, the window sums and the half-cycle
sums. -/
def Dev.formTick (d : Dev) : Dev :=
  let els := d.tickElems.map (fun e => (e, d.products e))
  let sts := d.tickStraits.map (fun s => (192 + s, d.straitProd s))
  let r : TickRec :=
    { t := d.clk.runTick, secs := d.clk.secs, tick := d.clk.tick, prods := els ++ sts, subs := [], doneE := [], missE := [],
      left := (els ++ sts).map Prod.fst }
  let d := { d with ticks := d.ticks ++ [r] }
  let d := els.foldl (fun d x => d.upElem x.1 (fun e =>
    { e with acc := if x.2.void then e.acc else e.acc.add x.2, accN := if x.2.void then e.accN else e.accN + 1 })) d
  let sIof (s : Nat) : List (Nat × Rat) :=
    (els.filter (fun x => d.elStrait x.1 == s)).map (fun x => (x.1, x.2.sI))
  let d := sts.foldl (fun d x =>
    let s := x.1 - 192
    (d.windowAdd s x.2.sV (sIof s)).upStrait s (fun y =>
      { y with half0 := y.half0 + x.2.sV, hn0 := y.hn0 + 1, recent := (x.2.sV :: y.recent).take 1600 })) d
  let d := d.forEach d.tickStraits (fun s d => d.trackTick s)
  let d := d.forEach d.tickElems (fun e d => let i := d.alignedI e; d.upElem e (fun x => { x with iBuf := (i :: x.iBuf).take 4700 }))
  let odd := d.clk.frameNo % 2 == 1
  let d := d.forEach ((List.range 128).filter (fun n => decide (5 ≤ d.ilType n ∧ d.ilType n ≤ 6)))
    (fun n d => d.upIsle n (fun i =>
      if odd then { i with bankO := { i.bankO with nm := i.bankO.nm + 1 } }
      else { i with bankE := { i.bankE with nm := i.bankE.nm + 1 } }))
  d

/-- The strait is configured and its lane converting; the element has a kind and its lanes convert (R79 ACTIVE). -/
def Dev.stActive (d : Dev) (s : Nat) : Bool := d.stConf s && d.converting (d.serving (d.stLane s))
def Dev.elActive (d : Dev) (e : Nat) : Bool :=
  let on (n : Nat) : Bool := d.isLive && laneMode (d.laneWord n) != 0
  match d.elKind e with
  | 1 => on (d.elLaneI e) && d.stActive (d.elStrait e)
  | 2 => on (d.elLaneI e)
  | 3 => on (d.elLaneI e) && on (d.elLane2 e)
  | 4 => d.isLive
  | _ => false

/-- At the end of a frame the elements' means are those of the frame that ended over its 3,200 ticks (R45), and what the
views and flags of that frame tell of lanes, lock and τ is kept for its close (01 R20, R79). -/
def Dev.rollMeans (d : Dev) : Dev :=
  let d := d.forEach d.tickElems (fun e d => d.upElem e (fun x =>
    { x with mean := x.acc.div 3200, acc := .zero, accN := 0, tauN := d.tau e }))
  let d := d.forEach ((List.range 192).filter (fun e => d.elKind e != 0)) (fun e d => d.upElem e (fun x =>
    { x with activeF := d.elActive e, noVF := d.elKind e == 1 && (d.lane (d.stLane (d.elStrait e))).failed }))
  let d := d.forEach d.tickStraits (fun s d => d.upStrait s (fun x =>
    { x with activeF := d.stActive s, lockedF := x.locked, unlocksF := x.unlocks, crossF := x.cross, periodF := x.period }))
  { d with lanes := d.lanes.map (fun (n, l) => (n, { l with failF := l.failed })), run := { d.run with deadF := d.deadPct } }

/-! ## Adding settled ticks to the banks (R83, R84) -/

/-- The parity of the frame that contains a run tick: true for odd (R18). -/
def Dev.oddTick (d : Dev) (t : Nat) : Bool := ((t + d.clk.frameOff) / 3200) % 2 == 1

/-- The bank of a parity. -/
def IsleSt.bank (i : IsleSt) (odd : Bool) : Bank := if odd then i.bankO else i.bankE
def IsleSt.setBank (i : IsleSt) (odd : Bool) (b : Bank) : IsleSt := if odd then { i with bankO := b } else { i with bankE := b }
def Dev.upBank (d : Dev) (n : Nat) (odd : Bool) (f : Bank → Bank) : Dev :=
  d.upIsle n (fun i => i.setBank odd (f (i.bank odd)))

/-- A settled product enters its element's frame sums, or its strait's (R69, R79). Where the frame has ticks without
products, N of the RMS counts the ticks that have them (log 65). -/
def Dev.addProduct (d : Dev) (t key : Nat) (p : Prod) (sub : Bool) : Dev :=
  let odd := d.oddTick t
  if 192 ≤ key then
    d.upStrait (key - 192) (fun s =>
      if p.void then s
      else if odd then { s with sumOdd := s.sumOdd + p.sV, nOdd := s.nOdd + 1 }
      else { s with sumEven := s.sumEven + p.sV, nEven := s.nEven + 1 })
  else
    let k := d.kFactor key
    d.upBank (d.elIsle key) odd (fun b =>
      let x := tabGet .zero b.els key
      { b with
        slip := b.slip || sub, est := b.est || p.est,
        els := tabPut .zero key
          { ep := if p.void then x.ep else x.ep + rne (k * p.p), eq := if p.void then x.eq else x.eq + rne (k * p.q),
            sI := x.sI + p.sI, sV := x.sV + p.sV, n := if p.void then x.n else x.n + 1,
            sub := x.sub || sub, est := x.est || p.est, neg := x.neg || p.neg } b.els })

/-- The isle's sums of a tick enter the banks by direction and quadrant (R83). -/
def Bank.addTick (b : Bank) (p q : Int) (i2 : Rat) : Bank :=
  { b with
    ep := b.ep + p, eq := b.eq + q,
    ap := if 0 ≤ p then b.ap + p else b.ap, am := if p < 0 then b.am - p else b.am,
    q1 := if 0 ≤ p ∧ 0 ≤ q then b.q1 + q else b.q1, q2 := if p < 0 ∧ 0 ≤ q then b.q2 + q else b.q2,
    q3 := if p < 0 ∧ q < 0 then b.q3 - q else b.q3, q4 := if 0 ≤ p ∧ q < 0 then b.q4 - q else b.q4,
    nm := b.nm + 1, isum := b.isum + i2 }

/-- A tick whose elements of isle `n` are all settled enters the isle's bank; unmetered ticks contribute nothing
and are not counted (R84). -/
def Dev.addIsleTick (d : Dev) (r : TickRec) (n : Nat) : Dev :=
  let es := (d.isleElems n).filter (fun e => d.elKind e == 1 || d.elKind e == 2)
  let ps := es.map (fun e => (e, tabGet .zero r.prods e))
  if ps.all (fun x => x.2.metered) then
    let ph := ps.filter (fun x => d.elKind x.1 == 1)
    let p := sumZ (ph.map (fun x => rne (d.kFactor x.1 * x.2.p)))
    let q := sumZ (ph.map (fun x => rne (d.kFactor x.1 * x.2.q)))
    let i := sumQ (ps.map (fun x => x.2.i * d.iWeight x.1))
    d.upBank n (d.oddTick r.t) (fun b => b.addTick p q (i * i))
  else d

/-- Settle the contribution of one key in the record of tick `t`. -/
def Dev.settleKey (d : Dev) (t key : Nat) (p : Prod) (sub : Bool) : Dev :=
  match d.ticks.find? (fun r => r.t == t) with
  | none => d
  | some r =>
    let r := { r with prods := tabPut .zero key p r.prods, subs := if sub then key :: r.subs else r.subs,
                      left := r.left.filter (fun k => decide (k ≠ key)) }
    let d := { d with ticks := d.ticks.map (fun (x : TickRec) => if x.t = t then r else x) }
    let d := d.addProduct t key p sub
    if 192 ≤ key then d
    else
      let n := d.elIsle key
      if r.left.any (fun k => decide (k < 192) && d.elIsle k == n) then d else d.addIsleTick r n

/-! ## Missing runs (R27) -/

/-- The engines a key waits for: element engines, and the strait engine for straits and PHASE elements (R28). -/
def Dev.keyEngines (d : Dev) (key : Nat) : List Nat :=
  if 192 ≤ key then [0] else if d.elKind key = 1 then [0, 1 + key / 24] else [1 + key / 24]

/-- What a key's engines made of a tick. -/
inductive TickSt where
  | waits | done | missing
  deriving DecidableEq, Repr

def tickSt (es : List Nat) (r : TickRec) : TickSt :=
  if es.any (fun e => decide (e ∈ r.missE)) then .missing
  else if es.all (fun e => decide (e ∈ r.doneE)) then .done else .waits

/-- The substitutes of a run's ticks: the mean of both neighbours, the one neighbour that has products, tick k-1 in a
run above 64; beyond the 64th and without neighbours nothing. -/
def substitutes (last next : Option Prod) (pend : List Nat) : List (Nat × Prod × Bool) :=
  let long := decide (64 < pend.length)
  let v : Option Prod :=
    match last, next with
    | some a, some b => if long then some a else some ((a.add b).div 2)
    | some a, none => some a
    | none, some b => some b
    | none, none => none
  ((List.range pend.length).zip pend).map (fun (i, t) =>
    match v with
    | some p => if i < 64 then (t, { p with est := false, neg := false }, true) else (t, .zero, true)
    | none => (t, .zero, true))

/-- Settle what can be settled of a key's outstanding ticks, oldest first: a run waits for the processed tick that ends it
(R27). Answers the settled ticks and the products of the last of them. -/
def resolveRun : Option Prod → List Nat → List (Nat × TickSt × Prod) → List (Nat × Prod × Bool) × Option Prod
  | last, _, [] => ([], last)
  | last, pend, (t, .missing, _) :: rest => resolveRun last (pend ++ [t]) rest
  | last, pend, (t, .done, x) :: rest =>
    let nb := if x.metered then some x else none
    let (out, l) := resolveRun nb [] rest
    (substitutes last nb pend ++ (t, x, false) :: out, l)
  | last, _, (_, .waits, _) :: _ => ([], last)

/-- Apply the settlement of one key. -/
def Dev.resolveKey (d : Dev) (key : Nat) : Dev :=
  let es := d.keyEngines key
  let l := (d.ticks.filter (fun r => decide (key ∈ r.left))).map (fun r => (r.t, tickSt es r, tabGet .zero r.prods key))
  let x := d.elem key
  let (out, last) := resolveRun x.lastP [] l
  let d := d.upElem key (fun y => { y with lastP := last })
  out.foldl (fun d o => d.settleKey o.1 key o.2.1 o.2.2) d

/-- The keys outstanding in any tick, ascending by first appearance. -/
def Dev.openKeys (d : Dev) : List Nat := (d.ticks.flatMap (fun r => r.left)).dedup

/-- Settle every key, and drop the ticks that all engines have dealt with. -/
def Dev.resolveTicks (d : Dev) : Dev :=
  let d := d.forEach d.openKeys (fun k d => d.resolveKey k)
  { d with ticks := d.ticks.filter (fun r => !(r.left.isEmpty && decide (9 ≤ r.doneE.length + r.missE.length))) }

/-! ## Engines (R26) -/

/-- BUDGET of an engine, from the image header (08_structure_image R176). -/
def Dev.engBudget (d : Dev) (k : Nat) : Nat := u16 d.image (0x40 + 2 * k)

/-- Work cycles off the buffered samples, the oldest first; samples of settled ticks cost nothing (R427). Answers
buffer, partial work and the ticks processed. -/
def engineWork (budget : Nat) (known : Nat → Bool) : Nat → Nat → List Nat → Nat → List Nat × Nat × List Nat
  | 0, _, buf, work => (buf, work, [])
  | _, _, [], work => ([], work, [])
  | f + 1, cyc, t :: rest, work =>
    if !known t then engineWork budget known f cyc rest 0
    else if budget ≤ work + cyc then
      let (b, w, done) := engineWork budget known f (work + cyc - budget) rest 0
      (b, w, t :: done)
    else (t :: rest, work + cyc, [])

/-- The isles that have an element served by an engine: element engine k - 1 serves its 24 slots, the strait engine the
elements bound to straits (R28, 03 R74). -/
def Dev.engineIsles (d : Dev) (k : Nat) : List Nat :=
  (((List.range 192).filter (fun e =>
    if k = 0 then d.elKind e == 1 else d.elKind e != 0 && e / 24 == k - 1)).map (fun e => d.elIsle e)).dedup

/-- Report a run of missing ticks (R28), count it (CLK_SLIPS) and flag the isles of the engine in the frames of the run's
first and last tick. -/
def Dev.reportSlip (d : Dev) (k t secs tick n : Nat) : Dev :=
  let d := d.forEach (d.engineIsles k) (fun i d =>
    (d.upBank i (d.oddTick t) (fun b => { b with slip := true })).upBank i (d.oddTick (t + n - 1)) (fun b => { b with slip := true }))
  let d := d.mapClk (fun c => { c with slips := satU 32 (c.slips + 1) })
  d.reportKnot 0x002 orgDev 0 (bitsOf orgDev 11 0) secs tick ([byteOf k, 0#8] ++ leBytes 2 tick ++ leBytes 4 (satU 32 n)) 0

/-- A tick goes missing for an engine: it extends the run or starts one. -/
def EngineSt.miss (e : EngineSt) (t secs tick : Nat) : EngineSt :=
  match e.run with
  | some (k, m) => { e with run := some (k, m + 1) }
  | none => { e with run := some (t, 1), runSecs := secs, runTick := tick }

/-- Mark a tick done or missing for an engine. -/
def Dev.markTick (d : Dev) (t k : Nat) (done : Bool) : Dev :=
  { d with ticks := d.ticks.map (fun r =>
      if r.t = t then (if done then { r with doneE := k :: r.doneE } else { r with missE := k :: r.missE }) else r) }

/-- One engine over the ending tick: its cycles work off the buffer, then the tick's sample is delivered; a full
buffer loses its oldest (R26). -/
def Dev.engineTick (d : Dev) (k stall : Nat) (deliver : Bool) : Dev :=
  let e := d.engine k
  let known (t : Nat) : Bool := d.ticks.any (fun r => r.t == t)
  let (buf, work, done) := engineWork (d.engBudget k) known 5 (12288 - stall) e.buf e.work
  let d := done.foldl (fun d t => d.markTick t k true) d
  let e := { e with buf := buf, work := work }
  let (d, e) := match e.run with
    | some (t, m) => if done.isEmpty then (d, e) else (d.reportSlip k t e.runSecs e.runTick m, { e with run := none })
    | none => (d, e)
  if deliver then
    match e.buf with
    | a :: b :: c :: f :: _ =>
      let r := (d.ticks.find? (fun r => r.t == a))
      let e := match r with
        | some r => e.miss a r.secs r.tick
        | none => e
      (d.markTick a k false).setEngine k { e with buf := [b, c, f, d.clk.runTick], work := 0 }
    | b => d.setEngine k { e with buf := b ++ [d.clk.runTick] }
  else d.setEngine k e

/-- An estimated tick of a lane passes (R45): its frame carries the flag. -/
def Dev.spendEst (d : Dev) : Dev :=
  let odd := d.clk.frameNo % 2 == 1
  { d with lanes := d.lanes.map (fun (n, l) =>
    (n, if l.estLeft = 0 then l
        else { l with estLeft := l.estLeft - 1, estEven := l.estEven || !odd, estOdd := l.estOdd || odd })) }

/-- The ending tick: with `lanes` the converters' samples are delivered, with `on` the tick's products are formed and go
to the engines; the engines work and what can be settled is settled. -/
def Dev.meterTick (d : Dev) (inp : TickInput) (lanes on : Bool) : Dev :=
  let stall (k : Nat) : Nat := ((inp.stalls.find? (fun x => x.1 == k)).map (fun x => x.2)).getD 0
  let d := if lanes then d.deliverLanes inp.bits else d
  let d := if on then d.formTick else d
  let d := if lanes then d.spendEst else d
  let d := (List.range 9).foldl (fun d k => d.engineTick k (stall k) on) d
  d.resolveTicks

/-- A tick of a voltage check frame: the straits' samples alone (10_power R250). -/
def Dev.checkTick (d : Dev) : Dev :=
  d.forEach d.tickStraits (fun s d =>
    let v := (d.straitTick s).2.2
    d.upStrait s (fun x => { x with recent := (v :: x.recent).take 1600 }))

/-! ## Settlement at the isle close and at power fail (R427, R227) -/

/-- Settle one key's ticks below `b` as a run with no later processed tick. -/
def Dev.settleBelow (d : Dev) (b key : Nat) : Dev :=
  let l := (d.ticks.filter (fun r => decide (r.t < b) && decide (key ∈ r.left))).map (fun r => r.t)
  if l.isEmpty then d
  else
    let x := d.elem key
    let out := substitutes x.lastP none l
    let d := d.upElem key (fun y =>
        { y with lastP := (out.getLast?.bind (fun o => if o.2.1.metered then some o.2.1 else none)) })
    out.foldl (fun d o => d.settleKey o.1 key o.2.1 o.2.2) d

/-- The part of an engine's missing run below `b`, with what is still buffered of those ticks, is reported; the
rest is a new run. -/
def Dev.settleEngine (d : Dev) (b k : Nat) : Dev :=
  let e := d.engine k
  let open_ := d.ticks.filter (fun r => decide (r.t < b) && decide (k ∉ r.doneE) && decide (k ∉ r.missE))
  let first := d.ticks.find? (fun r => r.t == b)
  match e.run with
  | some (t0, m) =>
    if t0 < b then
      let n := min m (b - t0) + open_.length
      let later := t0 + m - b
      let d := d.reportSlip k t0 e.runSecs e.runTick n
      d.setEngine k { e with run := if later = 0 then none else some (b, later),
                             runSecs := ((first.map (fun r => r.secs)).getD d.clk.secs),
                             runTick := ((first.map (fun r => r.tick)).getD d.clk.tick) }
    else d
  | none =>
    match open_.head? with
    | some r => d.reportSlip k r.t r.secs r.tick open_.length
    | none => d

/-- Settle every tick below run tick `b` (R427). -/
def Dev.settleTicks (d : Dev) (b : Nat) : Dev :=
  if d.ticks.any (fun r => decide (r.t < b)) || d.engines.any (fun e => e.2.run.any (fun x => decide (x.1 < b))) then
    let d := (List.range 9).foldl (fun d k => d.settleEngine b k) d
    let d := d.forEach d.openKeys (fun k d => d.settleBelow b k)
    { d with ticks := d.ticks.filter (fun r => decide (b ≤ r.t)) }
  else d

end Sys2Proof.Machine
end

