-- ==== Sys2Proof/Machine/Straits.lean ====
section
/-! DEFINITION. Frequency tracking, windows, harmonic analysis, sags, swells and interruptions, waveform capture
(03_straits_elements R62 to R64, 01_archipelago R15, 04_isles_windows R92 to R104). -/

namespace Sys2Proof.Machine

/-! ## Frequency tracking (R62 to R64, R73) -/

/-- The nominal c(f) of a strait (R62). -/
def Dev.nominalC (d : Dev) (s : Nat) : Word := Config.cTable (if d.stGrid60 s then 6000 else 5000)

/-- The running window starts anew at a position in 2^-16 tick. -/
def StraitSt.newWindow (x : StraitSt) (pos : Nat) : StraitSt :=
  { x with wStart := pos, wCount := 0, wSumV := 0, wSumI := [], wN := 0,
           wFlag := x.sag.isSome || x.swell.isSome || x.intr.isSome }

/-- Lock is lost: no frequency, c(f) nominal from the next tick (R62, R63, R73). The running window ends without a record,
also when its last crossing falls into this tick, and a free-running one starts with the tick (log 66). The half-cycle
boundaries run at their fixed spacing from here (04 R100). -/
def Dev.unlock (d : Dev) (s : Nat) : Dev :=
  let c := d.nominalC s
  d.upStrait s (fun x =>
    if x.locked then
      ({ x with locked := false, qual := 0, freq := 0, qnext := some c, unlocks := satU 32 (x.unlocks + 1), halfK := 0 }).newWindow
        (d.clk.runTick * 65536)
    else { x with qual := 0 })

/-- A period qualifies: 231.88 to 376.48 ticks with a filtered peak of TRACK_MIN (R63). -/
def periodOk (p peak trackMin : Nat) : Bool :=
  decide (23188 * 65536 ≤ 100 * p ∧ 100 * p ≤ 37648 * 65536) && decide (trackMin * 4096 ≤ peak)

/-- Whether a strait is configured in a live image. -/
def Dev.strOn (d : Dev) (s : Nat) : Bool := d.isLive && d.stConf s

/-- The filtered signal of the running tick and of the tick before (R63). -/
def Dev.filtered (d : Dev) (s : Nat) : Rat × Rat := (d.trackOut s (d.vPrime s 639), (d.strait s).ty.getD 0 0)

/-- The part of a tick, in 1/65,536, at which a line from `a` to `b` crosses zero (R63). -/
def crossAt (a b : Rat) : Nat := min 65535 ((-a) / (b - a) * 65536).floor.toNat

/-- The counted positive-going crossing of the running tick: its place in the tick and the cycle's filtered peak in whole
codes (R63). -/
def Dev.crossing (d : Dev) (s : Nat) : Option (Nat × Nat) :=
  let (y, z) := d.filtered s
  if d.img.meter && (d.strait s).armed && decide (z < 0 ∧ 0 ≤ y) then some (crossAt z y, (d.strait s).peak.floor.toNat) else none

/-- A counted crossing at position `pos` that ends a cycle of filtered peak `peak` (R63): the fifth qualifying period in a
row locks, any other period unlocks. -/
def Dev.crossed (d : Dev) (s pos peak : Nat) : Dev :=
  let x := d.strait s
  let d := d.upStrait s (fun x => { x with cross := some pos, armed := false, peak := 0 })
  match x.cross with
  | none => d
  | some c =>
    let p := pos - c
    let d := d.upStrait s (fun x => { x with period := satU 32 p })
    if periodOk p peak (d.trackMin s) then
      if x.locked then d.upStrait s (fun x => { x with wCount := x.wCount + 1 })
      else if 4 ≤ x.qual then d.upStrait s (fun x => ({ x with qual := 5, locked := true }).newWindow pos)
      else d.upStrait s (fun x => { x with qual := x.qual + 1 })
    else d.unlock s

/-- ZERO_CROSSING (R63): the tracking filter's counted crossing of the running tick, at `sub`/65,536 of it, ending a cycle
with the filtered peak `peak`. A report that the filter does not give changes nothing (log 7). -/
def execZeroCrossing (s sub peak : Nat) (st : State) : Host.Outcome State Fault Refusal :=
  onUnit (decide (s < 16)) "strait" st (fun d =>
    if d.strOn s && decide (d.crossing s = some (sub, peak)) then d.crossed s (d.clk.runTick * 65536 + sub) peak else d)

/-- TRACKING_TIMEOUT (R63): no counted crossing for 400 ticks unlocks in the 400th tick. -/
def execTrackingTimeout (s : Nat) (st : State) : Host.Outcome State Fault Refusal :=
  onUnit (decide (s < 16)) "strait" st (fun d =>
    match (d.strait s).cross with
    | some c => if d.strOn s && decide (c / 65536 + 400 ≤ d.clk.runTick) then d.unlock s else d
    | none => d)

/-! ## Windows (R15, R64) -/

/-- A locked window's frequency in hertz. -/
def windowHz (cycles : Nat) (len : Rat) : Rat := (cycles : Rat) * 16000 / len

/-- G_I, G_P and G_Q of the elements bound to a strait, as in force in the running tick (01 R20, 04 R94). -/
def Dev.strGains (d : Dev) (s : Nat) : List (Nat × Rat × Rat × Rat) :=
  (d.tickElems.filter (fun e => d.elStrait e == s)).map (fun e => (e, d.elGain e 0, d.elGain e 1, d.elGain e 2))

/-- WINDOW_CLOSE (R15): at the crossing that ends the tenth or twelfth cycle, or 3,200 ticks after the start when
unlocked; a locked close reports the frequency and selects c(f) for the next tick (R62, R64). The first window since the
image went live has number 1 (R97; log 67). -/
def execWindowClose (s : Nat) (st : State) : Host.Outcome State Fault Refusal :=
  onUnit (decide (s < 16)) "strait" st (fun d =>
    let x := d.strait s
    let now := d.clk.runTick
    let cyc := d.winCycles s
    let here := match x.cross with | some c => decide (c / 65536 = now) | none => false
    let due := if x.locked then here && decide (cyc ≤ x.wCount) else decide (x.wStart + 3200 * 65536 ≤ now * 65536)
    if !(d.strOn s && due) then d
    else
      let fin := if x.locked then x.cross.getD (now * 65536) else x.wStart + 3200 * 65536
      let len : Rat := if x.locked then ((fin - x.wStart : Nat) : Rat) / 65536 else 3200
      let w : WinClosed :=
        { frame := d.clk.frameNo, locked := x.locked, flagged := x.wFlag, len := len, secs := d.clk.secs, tick := d.clk.tick,
          seq := (x.wSeq + 1) % 2 ^ 32, sumV := x.wSumV, sumI := x.wSumI, n := x.wN, done := false, elems := [], from_ := x.wStart,
          upto := fin, closeT := now, gains := d.strGains s }
      let hz := windowHz cyc len
      let x := { x with closed := x.closed ++ [w], wSeq := (x.wSeq + 1) % 2 ^ 32 }
      let x := if x.locked then
          { x with freq := satU 32 (roundOpen 3 (hz * 10000)).toNat,
                   qnext := some (Config.cTable (roundNear (hz * 100)).toNat) }
        else x
      d.setStrait s (x.newWindow fin))

/-! ## Single precision -/

/-- Magnitude bits of a binary32 from a fraction `m`/2^23 scaled by 2^e, e at least -126. -/
def f32Bits (e : Int) (m : Nat) : Nat := min 0x7F800000 ((e + 126).toNat * 2 ^ 23 + m)

/-- The binary32 of a number; the spec states no rounding, so the upper neighbour is a free choice. -/
def f32 (x : Rat) : Word :=
  let a := if x < 0 then -x else x
  if a = 0 then 0
  else
    let e := max (-126) (floorLog2 a)
    let m := (roundOpen 5 (a * pow2 (23 - e))).toNat
    wordOf (f32Bits e m + if x < 0 then 2 ^ 31 else 0)

/-- The binary32 of a root. -/
def f32Sqrt (x : Rat) : Word :=
  if x ≤ 0 then 0
  else
    let e := max (-126) (floorLog2 x / 2)
    wordOf (f32Bits e (sqrtInt 6 (x * pow2 (2 * (23 - e)))))

/-! ## Harmonic groups (R92 to R95); a bin holds its component over the square root of 2 of its RMS value -/

def bin (c : Spectrum) (k : Nat) : Rat × Rat := c.getD k (0, 0)

/-- A weighted sum over the bins of group `h` (R94): half weights at the ends. -/
def groupSum (cyc h : Nat) (f : Nat → Rat) : Rat :=
  let lo := cyc * h - cyc / 2
  f lo / 2 + sumQ ((List.range (cyc - 1)).map (fun i => f (lo + 1 + i))) + f (lo + cyc) / 2

/-- G_h squared of a stream. -/
def group2 (cyc h : Nat) (c : Spectrum) : Rat :=
  2 * groupSum cyc h (fun k => (bin c k).1 * (bin c k).1 + (bin c k).2 * (bin c k).2)

/-- P_h and Q_h of a voltage and a current stream. -/
def groupP (cyc h : Nat) (v i : Spectrum) : Rat :=
  2 * groupSum cyc h (fun k => (bin v k).1 * (bin i k).1 + (bin v k).2 * (bin i k).2)
def groupQ (cyc h : Nat) (v i : Spectrum) : Rat :=
  2 * groupSum cyc h (fun k => (bin v k).2 * (bin i k).1 - (bin v k).1 * (bin i k).2)

/-- The highest valid order for passband edges (R95). -/
def orderLimit (f1 : Rat) (edge : Nat) : Nat :=
  ((List.range 64).filter (fun (h : Nat) => h != 0 && decide (((h : Rat) + 1 / 2) * f1 ≤ edge))).getLastD 0

/-- THD squared (R94), over valid orders. -/
def thd2 (cyc lim : Nat) (c : Spectrum) : Rat :=
  sumQ ((List.range 39).map (fun i => if i + 2 ≤ lim then group2 cyc (i + 2) c else 0)) / group2 cyc 1 c

def orders : List Nat := (List.range 63).map (· + 1)

/-- THD as reported: with no fundamental the spec states no ratio, so a free value. -/
def Dev.thdWord (d : Dev) (cyc lim : Nat) (c : Spectrum) : Word × Dev :=
  if group2 cyc 1 c = 0 then let (x, d) := d.fresh; (wordOf x, d) else (f32Sqrt (thd2 cyc lim c), d)

/-- The part of a record that a stream and its window give (R97). -/
def WinClosed.record (w : WinClosed) (f1 scale : Rat) (cyc lim : Nat) (rms : Rat) (c : Spectrum) (thd : Word) : WinRec :=
  { WinRec.init with
    secs := w.secs, tick := w.tick, locked := w.locked, flagged := w.flagged, limit := lim,
    len := satU 32 (w.len * 65536).floor.toNat, f1 := f32 f1, rms := f32Sqrt (scale * scale * rms), thd := thd, seq := w.seq,
    mag := orders.map (fun h => if h ≤ lim then f32Sqrt (scale * scale * group2 cyc h c) else 0) }

/-- The analysis of one element's stream (R94, R95, R98). -/
def Dev.analyseElem (d : Dev) (s : Nat) (w : WinClosed) (v : Spectrum) (e : Nat) (c : Spectrum) : Option ElemWin × Dev :=
  let cyc := d.winCycles s
  let f1 := windowHz cyc w.len
  let phase := d.elKind e == 1
  let edgeI := respEdge (laneResp (d.laneWord (d.elLaneI e)))
  let edgeV := respEdge (laneResp (d.laneWord (d.stLane s)))
  let lim := orderLimit f1 (min edgeI edgeV)
  let (thd, d) := d.thdWord cyc lim c
  let iw := d.iWeight e
  let vi := d.vWeight s * iw
  let sI := ((w.sumI.find? (fun x => x.1 == e)).map (fun x => x.2)).getD 0
  let r := w.record f1 iw cyc lim (sI / w.n) c thd
  let (gi, gp, gq) := ((w.gains.find? (fun x => x.1 == e)).map (fun x => x.2)).getD (1, 1, 1)
  let r := { r with
    mag := orders.map (fun h => if h ≤ lim then f32Sqrt (iw * iw * gi * gi * group2 cyc h c) else 0),
    p := if phase then orders.map (fun h => if h ≤ lim then f32 (vi * gp * groupP cyc h v c) else 0) else [],
    q := if phase then orders.map (fun h => if h ≤ lim then f32 (vi * gq * groupQ cyc h v c) else 0) else [] }
  let x : Option ElemWin :=
    if phase then
      some { elem := e, ph := orders.map (fun h => vi * gp * groupP cyc h v c),
             vi2 := (vi * vi * gi * gi) * (group2 cyc 1 v * group2 cyc 1 c), limit := lim }
    else none
  (x, d.upElem e (fun y => { y with win := r }))

/-- A buffered stream by run tick, its newest sample being that of the last delivered tick; 0 where it holds none. -/
def Dev.stream (d : Dev) (buf : List Rat) (k : Int) : Rat :=
  let back := (d.clk.runTick : Int) - 1 - k
  if 0 ≤ back then buf.getD back.toNat 0 else 0

/-- The transform of a stream over a window: 2,048 equally spaced points from the start crossing, included, to the end
crossing, excluded (R92). -/
def Dev.spectrum (d : Dev) (w : WinClosed) (buf : List Rat) : Spectrum :=
  let a : Rat := (w.from_ : Rat) / 65536
  let len : Rat := ((w.upto - w.from_ : Nat) : Rat) / 65536
  spectrumOf ((List.range 2048).map (fun i => resample (d.stream buf) (a + len * i / 2048)))

/-- The window a window engine has just analysed: closed, without results, its last samples delivered, and at most 64 ticks
old (01 R16). -/
def Dev.analysed (d : Dev) (s seq : Nat) : Option WinClosed :=
  (d.strait s).closed.find? (fun w => !w.done && w.seq == seq && decide (w.closeT + 17 ≤ d.clk.runTick ∧ d.clk.runTick ≤ w.closeT + 64))

/-- The results of a window enter the records (R94, R97). -/
def Dev.windowResults (d : Dev) (s : Nat) (w : WinClosed) : Dev :=
  let v := d.spectrum w (d.strait s).vBuf
  let cyc := d.winCycles s
  let f1 := windowHz cyc w.len
  let lim := orderLimit f1 (respEdge (laneResp (d.laneWord (d.stLane s))))
  let (thd, d) := d.thdWord cyc lim v
  let d := d.upStrait s (fun x => { x with win := w.record f1 (d.vWeight s) cyc lim (w.sumV / w.n) v thd })
  let (es, d) := (d.tickElems.filter (fun e => d.elStrait e == s)).foldl (fun (acc, d) e =>
      let (r, d) := d.analyseElem s w v e (d.spectrum w (d.elem e).iBuf)
      (acc ++ r.toList, d)) (([] : List ElemWin), d)
  d.upStrait s (fun x =>
    { x with closed := x.closed.map (fun y => if y.seq = w.seq then { y with done := true, elems := es } else y) })

/-- WINDOW_ANALYSIS (R92, R97): window engine s mod 4 completes a closed window of strait `s` within 64 ticks; its records
update. -/
def execWindowAnalysis (s eng seq : Nat) (st : State) : Host.Outcome State Fault Refusal :=
  onUnit (decide (s < 16)) "strait" st (fun d =>
    match d.analysed s seq with
    | some w => if d.strOn s && decide (eng = s % 4) then d.windowResults s w else d
    | none => d)

/-! ## Waveform capture (R103, R104) -/

/-- The period in force, in ticks. -/
def Dev.capPeriod (d : Dev) (s : Nat) : Rat :=
  if (d.strait s).locked then ((d.strait s).period : Rat) / 65536 else d.nomPeriod s

/-- A lane's delivered sample as a 24-bit code. -/
def laneCode (x : Rat) : Int := satS 24 (roundOpen 7 x)

/-- The slot of a strait's own capture that is FILLING. -/
def Dev.capFilling (d : Dev) (s : Nat) : Option Nat :=
  (List.range 4).find? (fun c => (d.cap c).state == 1 && (d.cap c).strait == s)

/-- A capture starts in slot `c`: the pre-trigger span stands in the history (R103). -/
def Dev.startCapture (d : Dev) (c s trig time : Nat) : Dev :=
  let p := d.capPeriod s
  let ls := d.capList s
  let pre := (16 * p).ceil.toNat
  let hs := ls.map (fun n => (d.served n).out)
  let have_ := min pre ((hs.map List.length).foldl min 6400)
  let rows := (List.range have_).map (fun i => hs.map (fun h => laneCode (h.getD (have_ - 1 - i) 0)))
  let (ts, tk) := ofTicks time
  let seq := (d.capSeq + 1) % 2 ^ 32
  let slot : CapSlot :=
    { CapSlot.free with state := 1, strait := s, trig := trig, lanes := ls, secs := ts, tick := tk, pre := have_,
                        total := have_, want := have_ + ((64 * p).ceil.toNat - pre), seq := seq, data := rows }
  { d.setCap c slot with capSeq := seq }

/-- The conditions of a strait that started with the running tick take their slot, or the loss of their capture. -/
def Dev.tellConds (d : Dev) (s : Nat) (slot : Option Nat) (lost : Bool) : Dev :=
  let now := d.clk.runTick
  let tell (c : Cond) : Cond := if c.start = now then { c with slot := slot, lost := lost } else c
  d.upStrait s (fun x => { x with sag := x.sag.map tell, swell := x.swell.map tell, intr := x.intr.map tell })

/-- One trigger is served (R103): a strait's own running capture counts it, else the lowest-numbered FREE slot is taken,
else the capture is lost. A condition that only retriggered shows slot 0xFF and no lost capture (R102; log 68). -/
def Dev.serveTrigger (d : Dev) (r : Nat × Nat × Nat) : Dev :=
  let (s, trig, time) := r
  if !d.stCapture s then d
  else match d.capFilling s with
    | some c => d.setCap c { d.cap c with retrig := satU 16 ((d.cap c).retrig + 1) }
    | none =>
      match (List.range 4).find? (fun c => (d.cap c).state == 0) with
      | none => d.tellConds s none true
      | some c => (d.startCapture c s trig time).tellConds s (some c) false

/-- The triggers of the running tick, straits in ascending order (R103). -/
def Dev.serveTriggers (d : Dev) : Dev :=
  let l := d.capReq
  (List.range 16).foldl (fun d s => (l.filter (fun r => r.1 == s)).foldl (fun d r => d.serveTrigger r) d) { d with capReq := [] }

/-- A trigger waits for the end of the running tick. -/
def Dev.trigger (d : Dev) (s trig time : Nat) : Dev := { d with capReq := d.capReq ++ [(s, trig, time)] }

/-- The tick's samples enter the slots that are filling. -/
def Dev.fillCaps (d : Dev) : Dev :=
  (d.forEach (List.range 4) (fun c d =>
    let x := d.cap c
    if x.state = 1 ∧ x.total < x.want then
      d.setCap c { x with data := x.data ++ [x.lanes.map (fun n => laneCode ((d.served n).out.headD 0))], total := x.total + 1 }
    else d)).serveTriggers

/-- CAPTURE_COMPLETE (R103): the post-trigger span is stored. -/
def execCaptureComplete (c : Nat) (st : State) : Host.Outcome State Fault Refusal :=
  onUnit (decide (c < 4)) "capture slot" st (fun d =>
    let x := d.cap c
    if x.state = 1 ∧ x.want ≤ x.total then d.setCap c { x with state := 2 } else d)

/-- A trigger of a strait accepted now would find its own capture or a FREE slot, the triggers that wait counted (log 69). -/
def Dev.slotLeft (d : Dev) (s : Nat) : Bool :=
  (d.capFilling s).isSome || d.capReq.any (fun r => r.1 == s) ||
    decide (((d.capReq.map (fun r => r.1)).dedup.filter (fun t => d.stCapture t && (d.capFilling t).isNone)).length <
      ((List.range 4).filter (fun c => (d.cap c).state == 0)).length)

/-- CAPTURE (R103, opcode 0x0024): a host trigger on a strait with capture enabled, at the device time of the command's tick:
the 640 ticks of R100 are those of a refresh (log 69). -/
def execCapture (l : Link) (args : List Byte) (st : State) : Host.Outcome State Fault Refusal :=
  .next (st.onDev (fun d => d.exec l 0x24 args (args.length == 1) false true (fun _ d =>
    let s := u8 args 0
    if 16 ≤ s ∨ d.strOn s = false ∨ d.stCapture s = false then (.range, [], d)
    else if d.slotLeft s then (.done, [], d.trigger s 8 d.timeTicks) else (.busy, [], d))))

/-- CAPTURE_RELEASE (R103, opcode 0x0025): a COMPLETE slot returns to FREE; a slot that is filling is held. -/
def execCaptureRelease (l : Link) (args : List Byte) (st : State) : Host.Outcome State Fault Refusal :=
  .next (st.onDev (fun d => d.exec l 0x25 args (args.length == 1) false true (fun _ d =>
    let c := u8 args 0
    if 4 ≤ c then (.range, [], d)
    else if (d.cap c).state = 1 then (.busy, [], d)
    else (.done, [], d.setCap c .free))))

/-! ## Sags, swells and interruptions (R100 to R102) -/

/-- Which of the three conditions. -/
inductive CondKind where
  | sag | swell | intr
  deriving DecidableEq, Repr

def CondKind.code : CondKind → Nat | .sag => 0x020 | .swell => 0x021 | .intr => 0x022
def CondKind.bit : CondKind → Nat | .sag => 1 | .swell => 2 | .intr => 4
def CondKind.all : List CondKind := [.sag, .swell, .intr]

def StraitSt.cond (x : StraitSt) : CondKind → Option Cond | .sag => x.sag | .swell => x.swell | .intr => x.intr
def StraitSt.setCond (x : StraitSt) (k : CondKind) (c : Option Cond) : StraitSt :=
  match k with
  | .sag => { x with sag := c }
  | .swell => { x with swell := c }
  | .intr => { x with intr := c }

/-- Whether a condition starts, and ends, at Urms(½) squared (R101). -/
def Dev.condStarts (d : Dev) (s : Nat) (k : CondKind) (u2 : Rat) : Bool :=
  let sq (x : Rat) : Rat := x * x
  match k with
  | .sag => decide (u2 < sq (d.stLevel s 0x10))
  | .swell => decide (sq (d.stLevel s 0x12) < u2)
  | .intr => decide (u2 < sq (d.stLevel s 0x14))
def Dev.condEnds (d : Dev) (s : Nat) (k : CondKind) (u2 : Rat) : Bool :=
  let sq (x : Rat) : Rat := x * x
  let h := d.stLevel s 0x16
  match k with
  | .sag => decide (sq (d.stLevel s 0x10 + h) ≤ u2)
  | .swell => decide (u2 ≤ sq (d.stLevel s 0x12 - h)) && decide (0 ≤ d.stLevel s 0x12 - h)
  | .intr => decide (sq (d.stLevel s 0x14 + h) ≤ u2)

/-- Log the event of a condition that ends in the running tick (R102); `cut` when a power fail ends it. -/
def Dev.endCond (d : Dev) (s : Nat) (k : CondKind) (c : Cond) (cut : Bool) : Dev :=
  let pm := if d.uDin s = 0 then 0 else sqrtInt 8 (c.ext * 1000000 / (d.uDin s * d.uDin s))
  let det := leBytes 4 (satU 32 (d.clk.runTick - c.start)) ++ leBytes 2 (satU 16 pm) ++
    [byteOf (c.slot.getD 0xFF), byteOf (b2n c.lost + 2 * b2n cut)]
  let d := d.upStrait s (fun x => x.setCond k none)
  d.reportKnot k.code (orgStrait s) 0 (bitsOf (orgStrait s) 11 0) c.secs c.tick det 0

/-- One condition at a refresh: the extreme of a running one, its end, or its start. -/
def Dev.refreshCond (d : Dev) (s : Nat) (u2 : Rat) (k : CondKind) : Dev :=
  match (d.strait s).cond k with
  | some c =>
    let c := { c with ext := if k = .swell then max c.ext u2 else min c.ext u2 }
    if d.condEnds s k u2 then d.endCond s k c false else d.upStrait s (fun x => x.setCond k (some c))
  | none =>
    if d.condStarts s k u2 then
      let (ts, tk) := ofTicks (d.timeTicks - 640)
      d.upStrait s (fun x =>
        { x.setCond k (some { secs := ts, tick := tk, start := d.clk.runTick, ext := u2, slot := none, lost := false })
          with wFlag := true })
    else d

/-- Ticks of the fixed spacing: 160 at 50 Hz, the pattern 133, 133, 134 at 60 Hz (R100). -/
def halfSpacing (grid60 : Bool) (k : Nat) : Nat := if grid60 then (if k % 3 = 2 then 134 else 133) else 160

/-- The running tick holds a half-cycle boundary (R100): while locked a counted positive or a negative crossing of the
tracking filter, else the fixed spacing after the last one. -/
def Dev.halfDue (d : Dev) (s : Nat) : Bool :=
  let x := d.strait s
  let now := d.clk.runTick
  if x.halfAt = now then false
  else if x.locked then
    let (y, z) := d.filtered s
    x.cross.any (fun c => c / 65536 == now) || decide (0 < z ∧ y ≤ 0)
  else decide (x.halfAt + halfSpacing (d.stGrid60 s) x.halfK ≤ now)

/-- The sums of half a cycle move on at a boundary. -/
def StraitSt.rollHalf (x : StraitSt) (now : Nat) : StraitSt :=
  { x with half1 := x.half0, hn1 := x.hn0, half0 := 0, hn0 := 0, halfAt := now, halfK := (x.halfK + 1) % 3 }

/-- HALF_CYCLE_REFRESH (R100, R101): at a half-cycle boundary Urms(½) over the last full cycle is tested against the
thresholds; conditions that start at one refresh share one capture trigger. -/
def execHalfCycleRefresh (s : Nat) (st : State) : Host.Outcome State Fault Refusal :=
  onUnit (decide (s < 16)) "strait" st (fun d =>
    if !(d.strOn s && d.stPq s && d.img.meter && d.halfDue s) then d
    else
      let x := d.strait s
      let now := d.clk.runTick
      let n := x.hn0 + x.hn1
      if x.hn1 = 0 ∨ n = 0 then d.upStrait s (fun y => y.rollHalf now)
      else
        let u2 := max 0 (d.vWeight s * d.vWeight s * ((x.half0 + x.half1) / n))
        let d := d.upStrait s (fun y => { y.rollHalf now with urms := u2 })
        let starts := CondKind.all.filter (fun k => ((d.strait s).cond k).isNone && d.condStarts s k u2)
        let d := if starts.isEmpty then d else d.trigger s (sumN (starts.map CondKind.bit)) (d.timeTicks - 640)
        CondKind.all.foldl (fun d k => d.refreshCond s u2 k) d)

end Sys2Proof.Machine
end

