-- ==== Sys2Proof/Machine/Utility.lean ====
section
/-! DEFINITION. Water and heat isles: volume, leaks, temperatures and heat (05_utility_isles R107 to R120). -/

namespace Sys2Proof.Machine

/-- A root to 64 binary places, for the rules that state a real root. -/
def sqrtQ (x : Rat) : Rat := (sqrtFloor (x * 2 ^ 128) : Rat) / 2 ^ 64

/-! ## Temperatures (R115, R116) -/

/-- θ in 0.001 degC of a calibrated code: lane gain, LEAD in milliohms, Pt500 or Pt1000 (R115). -/
def rtdTheta (code : Rat) (gain lead : Nat) (pt500 : Bool) : Int :=
  let r := code * 2500 / ((2 ^ gain * 2 ^ 23 : Nat) : Rat) - (lead : Rat) / 1000
  let r0 : Rat := if pt500 then 500 else 1000
  let a : Rat := 39083 / 10000000
  let b : Rat := 5775 / 10000000000
  let disc := a * a + 4 * b * (1 - r / r0)
  if disc < 0 then 999999 else roundOpen 12 (1000 * (a - sqrtQ disc) / (2 * b))

/-- θ and the fault of one RTD sensor: the code its element delivered for the device second, none before the first; lane and
LEAD (R115, R116). -/
def Dev.rtdSensor (d : Dev) (e lane : Nat) (code : Option Rat) (lead : Nat) : Int × Bool :=
  let l := d.lane lane
  match code with
  | some c => (rtdTheta c (laneGain (d.laneWord lane)) lead (d.elSensor e == 1), l.rtdOpen || l.rtdShort || l.rtdStale || l.failed)
  | none => (0, true)

/-- The two RTD temperatures of an isle (R107, R108): one pair, or two single-lane elements in slot order. -/
def Dev.rtdTemps (d : Dev) (n : Nat) : Int × Int × Bool :=
  match (d.isleElems n).filter (fun e => d.elKind e == 3) with
  | e :: f :: _ =>
    let (s, b) := d.rtdSensor e (d.elLaneI e) (d.elem e).codeS (d.elArg1 e)
    let (r, c) := d.rtdSensor f (d.elLaneI f) (d.elem f).codeS (d.elArg1 f)
    (s, r, b || c)
  | e :: [] =>
    let (s, b) := d.rtdSensor e (d.elLaneI e) (d.elem e).codeS (d.elArg1 e)
    let (r, c) := d.rtdSensor e (d.elLane2 e) (d.elem e).codeR (d.elArg2 e)
    (s, r, b || c)
  | [] => (0, 0, true)

/-- A quantity a partner last reported. -/
def Partner.value (p : Partner) (q : Nat) : Option Int := (p.vals.find? (fun x => x.1 == q)).map (fun x => x.2)

/-- The partner bound to an isle (R107). -/
def Dev.boundPartner (d : Dev) (n : Nat) : Option Nat :=
  (d.partners.find? (fun x => x.2.isle == n && decide (x.2.state ≠ .free))).map (fun x => x.1)

/-- One partner temperature: code 3 supply, 4 return; from a PARTNER element of the isle, else the bound partner. -/
def Dev.partnerTemp (d : Dev) (n q : Nat) : Int × Bool :=
  let named := ((d.isleElems n).find? (fun e => d.elKind e == 4 && d.elArg2 e == q)).map d.elArg1
  match named.orElse (fun _ => d.boundPartner n) with
  | none => (0, true)
  | some i =>
    let p := d.partner i
    match p.value q with
    | none => (0, true)
    | some v => (v, decide (p.state = .silent ∨ p.state = .lost))

/-- Partner temperatures of an isle. -/
def Dev.partnerTemps (d : Dev) (n : Nat) : Int × Int × Bool :=
  let (s, b) := d.partnerTemp n 3
  let (r, c) := d.partnerTemp n 4
  (s, r, b || c)

/-- θ lies outside 2 to 180 degC (R116). -/
def thetaBad (t : Int) : Bool := decide (t < 2000 ∨ 180000 < t)

/-- The temperatures in force, with their fault (R116). -/
def Dev.temps (d : Dev) (n : Nat) : Int × Int × Bool :=
  let (s, r, b) := if d.ilTempSrc n = 1 then d.rtdTemps n else d.partnerTemps n
  (s, r, b || thetaBad s || thetaBad r)

def Dev.heatIsles (d : Dev) : List Nat := (List.range 128).filter (fun n => d.ilType n == 6)
def Dev.utilIsles (d : Dev) : List Nat := (List.range 128).filter (fun n => d.ilType n == 5 || d.ilType n == 6)

/-- At a frame's end the temperatures in force in its last tick are latched for its close (R117). -/
def Dev.latchTemps (d : Dev) : Dev :=
  d.forEach d.heatIsles (fun n d =>
    let (s, r, b) := d.temps n
    d.upIsle n (fun i => { i with util := { i.util with thSF := s, thRF := r, badF := b } }))

/-- The temperatures in force in a frame that a save captures: a power fail may make this tick its last (R117). -/
def Dev.latchNow (d : Dev) : Dev :=
  d.forEach d.heatIsles (fun n d =>
    let (s, r, b) := d.temps n
    d.upIsle n (fun i => { i with util := { i.util with thSN := s, thRN := r, badN := b } }))

/-- The captured temperatures are those of the frame that the power fail cut. -/
def Dev.temperaturesKept (d : Dev) : Dev :=
  d.forEach d.heatIsles (fun n d => d.upIsle n (fun i =>
    { i with util := { i.util with thSF := i.util.thSN, thRF := i.util.thRN, badF := i.util.badN } }))

/-- The utility view of a frame, as its reads and leaks stand at the frame's end (R124). -/
def Utility.viewed (u : Utility) : UtilView :=
  { leak := u.leak, reverse := u.reverse, rebased := u.rebased, base := u.base.getD 0, hours := u.leakRun }
def Dev.latchViews (d : Dev) : Dev :=
  d.forEach d.utilIsles (fun n d => d.upIsle n (fun i => { i with util := { i.util with viewF := i.util.viewed } }))

/-- What a save captures, temperatures included. -/
def Dev.captureNow (d : Dev) : Running := d.latchNow.capture

/-! ## Heat (R117, R118) -/

/-- The k table (R117): the entry that the worked example states, at 70 and 40 degC with the flow sensor in the return pipe;
the other entries are the ROM's. -/
def kTable (pos i j : Nat) : Rat := if pos = 1 ∧ i = 70 ∧ j = 40 then 4150700 else Config.kRom pos i j

/-- k by bilinear interpolation of the ROM table at 1 K spacing (R117). -/
def kFactorAt (pos : Nat) (s r : Int) : Rat :=
  let i := s.toNat / 1000
  let j := r.toNat / 1000
  let x : Rat := ((s.toNat % 1000 : Nat) : Rat) / 1000
  let y : Rat := ((r.toNat % 1000 : Nat) : Rat) / 1000
  (1 - x) * (1 - y) * kTable pos i j + x * (1 - y) * kTable pos (i + 1) j +
  (1 - x) * y * kTable pos i (j + 1) + x * y * kTable pos (i + 1) (j + 1)

/-- k·|Δθ| by sign class: heating part and cooling part, J/m3 (R118). -/
def Dev.heatClass (d : Dev) (n : Nat) (s r : Int) : Rat × Rat :=
  let dt : Rat := ((s - r : Int) : Rat) / 1000
  let m : Rat := (d.ilDtMin n : Rat) / 100
  let k := kFactorAt (d.ilFlowPos n) s r
  if m ≤ dt then (k * dt, 0) else if dt ≤ -m ∧ d.ilCooling n = true then (0, k * -dt) else (0, 0)

/-! ## Leaks (R114) -/

/-- LEAK_RATE and LEAK_HOURS in force in an hour: a splice applies from the next one (R120). -/
def Utility.leakAt (u : Utility) (hour : Nat) : Nat × Nat :=
  (((u.leakPar.filter (fun x => decide (x.1 ≤ hour))).getLast?).map (fun x => x.2)).getD (0, 0)

/-- The isle's entry gives LEAK_RATE and LEAK_HOURS from hour `from_` on (R120). -/
def Dev.syncLeak (d : Dev) (n from_ : Nat) : Dev :=
  let now := (d.ilLeakRate n, d.ilLeakHours n)
  d.upIsle n (fun i =>
    if (i.util.leakPar.getLast?.map (fun x => x.2)) = some now then i
    else { i with util := { i.util with leakPar := i.util.leakPar.filter (fun x => decide (x.1 < from_)) ++ [(from_, now)] } })

/-- An hour contains unmetered frames or a refused delta: it will not qualify (R114). -/
def Utility.spoil (u : Utility) (hour : Nat) : Utility := { u with badHours := insertNat hour u.badHours }

/-- Judge the hour `h` of an isle. -/
def Dev.judgeHour (d : Dev) (n h : Nat) : Dev :=
  let u := (d.isle n).util
  let (rate, hours) := u.leakAt h
  let vol := u.hourVol
  let ok := decide (rate ≠ 0) && decide (h ∉ u.badHours) && decide (((rate * 1000 : Nat) : Rat) ≤ vol)
  let ml := vol.floor.toNat
  let low := if u.leakRun = 0 then ml else min u.leakMin ml
  let det (h m : Nat) : List Byte := leBytes 2 (satU 16 h) ++ leBytes 4 (satU 32 (roundOpen 14 ((m : Rat) / 1000)).toNat)
  let d := d.upIsle n (fun i => { i with util := { i.util with
    hourVol := 0, badHours := i.util.badHours.filter (fun x => decide (h < x)) } })
  if ok then
    let run := u.leakRun + 1
    let starts := !u.leak && decide (max 1 hours ≤ run)
    let d := d.upIsle n (fun i => { i with util := { i.util with leakRun := run, leakMin := low, leak := u.leak || starts } })
    if starts then d.logNow 0x033 (orgIsle n) (det run low) else d
  else
    let d := d.upIsle n (fun i => { i with util := { i.util with leakRun := 0, leakMin := 0, leak := false } })
    if u.leak then d.logNow 0x033 (orgIsle n) (det u.leakRun u.leakMin) else d

/-- Spread a delta over device seconds `t` to `b`, judging each hour whose end the read covers. -/
def Dev.spreadHours (d : Dev) (n : Nat) (rate : Rat) (bad : Bool) : Nat → Nat → Nat → Dev
  | 0, _, _ => d
  | f + 1, t, b =>
    let h := t / 3600
    let e := (h + 1) * 3600
    let add (d : Dev) (k : Nat) : Dev := d.upIsle n (fun i =>
      { i with util := (if bad then i.util.spoil h else { i.util with hourVol := i.util.hourVol + rate * k }) })
    if b < e then add d (b - t) else ((add d (e - t)).judgeHour n h).spreadHours n rate bad f e b

/-! ## Partner reads (R111 to R113, R117) -/

/-- The bank of the frame that holds the running tick; in NAP that frame waits, with the frames before it, for the wake
(10_power R251). -/
def Dev.upNow (d : Dev) (n : Nat) (f : Bank → Bank) : Dev :=
  let k := d.clk.frameNo
  if d.pwr.mode = .nap then
    d.upIsle n (fun i => { i with util := { i.util with asleep := tabPut .zero k (f (tabGet .zero i.util.asleep k)) i.util.asleep } })
  else d.upBank n (k % 2 == 1) f

/-- A bank with what pulses and reads brought its frame asleep. -/
def Bank.join (b a : Bank) : Bank :=
  { b with vol := b.vol + a.vol, rev := b.rev + a.rev, heatJ := b.heatJ + a.heatJ, coolJ := b.coolJ + a.coolJ,
           spread := (match a.spread with | some v => some (b.spread.getD 0 + v) | none => b.spread),
           revNz := b.revNz || a.revNz, revEnd := a.revEnd.orElse (fun _ => b.revEnd) }

/-- What pulses and reads brought a frame asleep enters its bank. -/
def Dev.joinAsleep (d : Dev) (n frame : Nat) : Dev :=
  match tabFind frame (d.isle n).util.asleep with
  | some a =>
    (d.upBank n (frame % 2 == 1) (fun b => b.join a)).upIsle n (fun i =>
      { i with util := { i.util with asleep := i.util.asleep.filter (fun x => x.1 != frame) } })
  | none => d

/-- Heat of an applied delta: with RTD temperatures it waits for the running sums of the close, with partner
temperatures it takes those of the read (R117). -/
def Dev.heatDelta (d : Dev) (n : Nat) (v : Int) : Dev :=
  if d.ilType n ≠ 6 then d
  else if d.ilTempSrc n = 1 then d.upNow n (fun b => { b with spread := some (b.spread.getD 0 + v) })
  else
    let (s, r, bad) := d.partnerTemps n
    if bad || thetaBad s || thetaBad r then d
    else
      let (h, c) := d.heatClass n s r
      d.upNow n (fun b => { b with heatJ := b.heatJ + h * v / 1000000, coolJ := b.coolJ + c * v / 1000000 })

/-- A partner read of an isle's volume register completes (R111, R112). -/
def Dev.volumeRead (d : Dev) (n new : Nat) : Dev :=
  let u := (d.isle n).util
  let now := d.clk.secs
  let setB (d : Dev) : Dev := d.upIsle n (fun i =>
    { i with util := { i.util with base := some new, baseAt := now, rebase := false } })
  let litres (x : Nat) : List Byte := leBytes 4 (satU 32 (x / 1000))
  let refused (code : Nat) (delta : Int) : Dev :=
    (((setB d).spreadHours n 0 true 1200000 (min u.baseAt now) now)).logNow code (orgIsle n)
      (leBytes 8 (twos 64 (satS 64 delta)))
  if u.rebase ∨ u.base = none then
    let d := (setB d).upIsle n (fun i => { i with util := { i.util with rebased := true } })
    let d := d.spreadHours n 0 true 1200000 (if u.base.isSome then min u.baseAt now else now) now
    d.logNow 0x032 (orgIsle n) (litres (u.base.getD 0) ++ litres new)
  else
    let old := u.base.getD 0
    let delta : Int := (new : Int) - old
    if delta < 0 then refused 0x030 delta
    else if 2 * d.ilQmax n * 1000 * (now - u.baseAt) < delta.toNat * 3600 then refused 0x031 delta
    else
      let d := (setB d).upNow n (fun b => { b with vol := b.vol + delta })
      let d := d.heatDelta n delta
      let span := now - u.baseAt
      if span = 0 then d.upIsle n (fun i => { i with util := { i.util with hourVol := i.util.hourVol + delta } })
      else d.spreadHours n ((delta : Rat) / span) false 1200000 u.baseAt now

/-- Reverse volume of a read (R113). -/
def Dev.reverseRead (d : Dev) (n new : Nat) : Dev :=
  let u := (d.isle n).util
  match u.revBase with
  | none => d.upIsle n (fun i => { i with util := { i.util with revBase := some new, reverse := false } })
  | some old =>
    let delta := new - old
    let d := d.upNow n (fun b =>
      { b with rev := if d.ilType n = 5 then b.rev + delta else b.rev, revNz := b.revNz || decide (delta ≠ 0),
               revEnd := some (decide (delta = 0)) })
    d.upIsle n (fun i => { i with util := { i.util with revBase := some new, reverse := decide (delta ≠ 0) } })

/-- The isle's partner is replaced (R112): the first read after it sets the baselines and applies nothing, and what reads of
the running frame applied goes with it (R120); their hours do not qualify. -/
def Dev.rebase (d : Dev) (n : Nat) : Dev :=
  let d := if d.ilVolSrc n = 2 then d.upNow n (fun b =>
      { b with vol := 0, rev := 0, heatJ := 0, coolJ := 0, spread := none, revNz := false, revEnd := none }) else d
  d.upIsle n (fun i =>
    { i with util := { i.util.spoil (d.clk.secs / 3600) with rebase := true, revBase := none, reverse := false } })

/-- A completed read of the partner bound to a utility isle. -/
def Dev.utilityRead (d : Dev) (n : Nat) (vals : List (Nat × Int)) : Dev :=
  let get (q : Nat) : Option Int := (vals.find? (fun x => x.1 == q)).map (fun x => x.2)
  if d.ilVolSrc n = 2 ∧ (d.ilType n = 5 ∨ d.ilType n = 6) then
    let d := match get 1 with | some v => d.volumeRead n v.toNat | none => d
    match get 2 with | some v => d.reverseRead n v.toNat | none => d
  else d

/-! ## The frame of a utility isle (R110, R114, R116 to R118) -/

/-- What a utility isle's close carries: banks in 2^-16 fine LSB for volume, heating, cooling and reverse; and the
device with the isle's heat sums, faults and leak hour brought up to date. `whole`: the hour ends with frame F. -/
def Dev.utilityFrame (d : Dev) (n : Nat) (b : Bank) (hourEnds : Bool) : (Int × Int × Int × Int) × Dev :=
  let u := (d.isle n).util
  let unm := decide (b.nm < 3200)
  let scale (litresPerQ : Nat) (ml : Rat) : Int := roundOpen 11 (ml / ((1000 * litresPerQ : Nat) : Rat) * 2 ^ 40)
  let lpq := if d.ilX10 n then 10 else 1
  let jpq : Rat := if d.ilX10 n then 36000 else 3600
  let heat := d.ilType n == 6
  let bad := heat && u.badF
  let endT := d.run.endS * 16000 + d.run.endT
  let hour := (endT - 1) / 16000 / 3600
  let (kh, kc) := d.heatClass n u.thSF u.thRF
  let (jh, jc, sh, sc, m, noHist) : Rat × Rat × Rat × Rat × Nat × Bool :=
    if !heat then (0, 0, 0, 0, 0, false)
    else if d.ilVolSrc n = 1 then
      (if bad then (0, 0, 0, 0, 0, u.noHist)
       else ((b.vol : Rat) * kh / 1000000, (b.vol : Rat) * kc / 1000000, 0, 0, 0, u.noHist))
    else if d.ilTempSrc n = 1 then
      let sh := if bad || unm then u.sHeat else u.sHeat + kh
      let sc := if bad || unm then u.sCool else u.sCool + kc
      let m := if bad || unm then u.m else u.m + 1
      match b.spread with
      | none => (0, 0, sh, sc, m, u.noHist)
      | some v => if m = 0 then (0, 0, 0, 0, 0, true)
                  else if bad then (0, 0, 0, 0, 0, false)
                  else ((v : Rat) * sh / m / 1000000, (v : Rat) * sc / m / 1000000, 0, 0, 0, false)
    else if bad then (0, 0, 0, 0, 0, u.noHist) else (b.heatJ, b.coolJ, 0, 0, 0, u.noHist)
  let quanta (j : Rat) : Int := roundOpen 10 (j / jpq * 2 ^ 40)
  let d := if bad && !u.sensor then d.logNow 0x034 (orgIsle n) [] else d
  let d := d.upIsle n (fun i =>
    { i with util := { i.util with
        sHeat := sh, sCool := sc, m := m, noHist := noHist, sensor := bad, thS := u.thSF, thR := u.thRF,
        k := if heat && !bad then kFactorAt (d.ilFlowPos n) u.thSF u.thRF else u.k, volF := satU 32 b.vol.toNat,
        fault := if bad then min (5 * (2 ^ 32 - 1)) (i.util.fault + 1) else i.util.fault,
        hourVol := if d.ilVolSrc n = 1 then i.util.hourVol + b.vol else i.util.hourVol,
        badHours := if unm then insertNat hour i.util.badHours else i.util.badHours,
        revNzF := b.revNz, revEndF := b.revEnd } })
  let d := if hourEnds ∧ d.ilVolSrc n = 1 then d.judgeHour n hour else d
  let d := d.upIsle n (fun i => { i with util := { i.util with
    view := if d.ilVolSrc n = 1 then i.util.viewed else i.util.viewF } })
  ((scale lpq b.vol, quanta jh, quanta jc, scale lpq b.rev), d)

end Sys2Proof.Machine
end

