-- ==== Sys2Proof/Machine/Isles.lean ====
section
/-! DEFINITION. The isle close, the isle events slice and the archipelago events slice (01_archipelago R19 to R22,
04_isles_windows R85 to R98, 12_events_tamper R306, R307). -/

namespace Sys2Proof.Machine

/-! ## Slices (R19, R22) -/

/-- The isle engine works: awake, or in the tick in which power fail latched (09_store R227). -/
def Dev.engineOn (d : Dev) : Bool :=
  decide (d.pwr.mode = .run ∨ d.pwr.mode = .doze) || (decide (d.pwr.mode = .failing) && decide (d.pwr.drainAt = some d.clk.runTick))

/-- A slice runs once: frame F has outstanding slices, the offset is the slice's and was not worked. -/
def Dev.sliceDue (d : Dev) (o : Nat) : Bool := d.engineOn && d.run.open_ && d.off == o && decide (d.run.off ≤ o)

/-- The slice offset reached. -/
def Dev.sliceDone (d : Dev) (o : Nat) : Dev := d.mapRun (fun r => { r with off := o })

/-- The bank of frame F is the odd one. -/
def Dev.oddF (d : Dev) : Bool := d.run.frame % 2 == 1

/-- Run tick of the first tick of frame F+1. -/
def Dev.frameStart (d : Dev) : Nat := d.clk.runTick - d.off

/-! ## Carry (R88, R126) -/

/-- M by MODULUS code (R126). -/
def modulus (code : Nat) : Nat := 10 ^ (9 + code)

/-- One carry of R88: bank value into fine accumulator; the new accumulator and the whole quanta. -/
def Fine.carry (a : Fine) (b : Int) : Fine × Nat :=
  let s : Int := a.r + b
  let f : Int := a.f + s / 65536
  ({ f := f % 2 ^ 24, r := (s % 65536).toNat }, (f / 2 ^ 24).toNat)

/-- Add quanta to a billing register: the register, and whether it wrapped (R126). -/
def BReg.add (m c : Nat) (x : BReg) : BReg × Bool :=
  if m ≤ x.r + c then ({ r := x.r + c - m, w := (x.w + 1) % 65536 }, true) else ({ x with r := x.r + c }, false)

/-- Add quanta to register (t, q) of an isle, logging a wrap (R126). -/
def Dev.addReg (d : Dev) (n t q c : Nat) : Dev :=
  let x := tabGet { r := 0, w := 0 } (d.isle n).regs (16 * t + q)
  let (y, wrapped) := x.add (modulus (d.ilModulus n)) c
  let d := d.upIsle n (fun i => { i with regs := tabPut { r := 0, w := 0 } (16 * t + q) y i.regs })
  if wrapped then d.logNow 0x040 (orgIsle n) ([byteOf q, byteOf t] ++ leBytes 2 y.w) else d

/-- Quantity codes with tariff registers (R125). -/
def hasTariffs (type q : Nat) : Bool :=
  if type = 5 then q == 0 else if type = 6 then decide (q ≤ 1) else decide (q ≤ 8)

/-- Carry a quantity: fine accumulator, tariff register and total (R85 step 6, R88); a tariff above the plan's count receives
nothing (R125). -/
def Dev.carryQty (d : Dev) (n q : Nat) (b : Int) : Dev :=
  let (f, c) := (tabGet { f := 0, r := 0 } (d.isle n).fine q).carry b
  let d := d.upIsle n (fun i => { i with fine := tabPut { f := 0, r := 0 } q f i.fine, quanta := tabPut 0 q c i.quanta })
  if c = 0 then d
  else
    let t := (d.isle n).cfgF.tariff
    let d := if hasTariffs (d.ilType n) q && decide (t < d.plTariffs (d.isle n).cfgF.plan) then d.addReg n (1 + t) q c else d
    d.addReg n 0 q c

/-! ## Electrical close (R85 to R88, R98) -/

/-- Multiply a bank's sums by a ratio, each rounded half to even (R13). -/
def Bank.scaled (b : Bank) (k : Rat) : Bank :=
  let f (x : Int) : Int := rne ((x : Rat) * k)
  { b with ep := f b.ep, eq := f b.eq, ap := f b.ap, am := f b.am, q1 := f b.q1, q2 := f b.q2, q3 := f b.q3, q4 := f b.q4 }

/-- |E| lies below the creep threshold energy of R86, E in 2^-16 fine LSB. -/
def below (e : Int) (thresh nm : Nat) : Bool := decide (e.natAbs * 57600000 < thresh * nm * 2 ^ 40)

/-- Apparent energy of the measured banks (R87); the arithmetic sum scales with the frame (R13). -/
def Dev.apparent (d : Dev) (n : Nat) (b : Bank) (k : Rat) : Nat :=
  if d.ilVector n then sqrtInt 15 ((b.ep * b.ep + b.eq * b.eq : Int) : Rat)
  else
    let ks := (d.isle n).cfgF.ks
    sumN ((d.islePhases n).map (fun e =>
      let x := tabGet .zero b.els e
      let f := ((ks.find? (fun y => y.1 == e)).map (fun y => y.2)).getD (d.kFactor e)
      sqrtInt 16 (k * k * f * f * (max 0 x.sV) * (max 0 x.sI))))

/-- The windows that closed in frame F on the straits of an isle's PHASE elements, with the elements (R98). -/
def Dev.isleWindows (d : Dev) (n : Nat) : List (Nat × WinClosed) :=
  (d.islePhases n).flatMap (fun e =>
    ((d.strait (d.elStrait e)).closed.filter (fun w => w.frame == d.run.frame)).map (fun w => (e, w)))

/-- Counted energy by order, in joules (R98); none when frame F is not attributed. -/
def Dev.attribution (d : Dev) (n : Nat) (creepP : Bool) : Option (List (Nat × Rat)) :=
  let ws := d.isleWindows n
  if ws.isEmpty || creepP || ws.any (fun w => !w.2.locked || w.2.flagged || !w.2.done) then none
  else
    let ev := ws.filterMap (fun w => (w.2.elems.find? (fun x => x.elem == w.1)).map (fun x => (x, w.2.len / 16000)))
    let e (h : Nat) : Rat := sumQ (ev.map (fun x => x.1.ph.getD (h - 1) 0 * x.2))
    let e1 := e 1
    let s1 := sumQ (ev.map (fun x => sqrtQ x.1.vi2 * x.2))
    some ((List.range 62).filterMap (fun i =>
      let h := i + 2
      let x := e h
      let a := if x < 0 then -x else x
      if ev.all (fun y => decide (h ≤ y.1.limit)) && decide (e1 ≠ 0) && decide ((x < 0 ∧ 0 < e1) ∨ (0 < x ∧ e1 < 0)) &&
         decide (s1 / 65536 ≤ a) then some (h, a) else none))

/-- Joules in 2^-16 fine LSB of an isle's quantum. -/
def Dev.fineOf (d : Dev) (n : Nat) (j : Rat) : Int := roundOpen 9 (j / d.quantumJ n * 2 ^ 40)

/-- Energy of the counted orders of a group. -/
def orderSum (l : List (Nat × Rat)) (lo hi : Nat) : Rat :=
  sumQ ((l.filter (fun x => decide (lo ≤ x.1 ∧ x.1 ≤ hi))).map (fun x => x.2))

/-- The isle's element views of frame F: the sums of its bank (R79). -/
def Dev.closeElems (d : Dev) (n : Nat) (b : Bank) (odd : Bool) : Dev :=
  d.forEach (d.isleElems n) (fun e d =>
    let x := tabGet .zero b.els e
    let l := d.lane (d.serving (d.elLaneI e))
    let ovr := if odd then l.ovrOdd else l.ovrEven
    let ms : Rat := if x.n = 0 then 0 else max 0 x.sI / x.n
    d.upElem e (fun y =>
      { y with
        status := flagAt 1 (decide (ovr ≠ 0)) + flagAt 2 x.est + flagAt 3 x.sub + flagAt 4 (d.elem e).noVF + flagAt 5 x.neg,
        irms := satU 32 (sqrtInt 17 (ms * 65536)), ep := x.ep, eq := x.eq, delay := y.tauN, ms := ms }))

/-- Flags and view of an isle's close (R91). -/
def Dev.isleFlags (d : Dev) (n status : Nat) : Dev :=
  d.upIsle n (fun i => { i with status := status, sticky := i.sticky ||| (status ||| 1) })

/-- The close of an electrical isle, steps 1 to 7 (R85). -/
def Dev.closeElec (d : Dev) (n : Nat) : Dev :=
  let odd := d.oddF
  let b0 := (d.isle n).bank odd
  let cfg := (d.isle n).cfgF
  let scaled := decide (d.clk.fastF + d.clk.slowF ≠ 0)
  let k := if scaled then frameRatio d.clk.fastF d.clk.slowF else 1
  let b := if scaled then b0.scaled k else b0
  let some_ := decide (b.nm ≠ 0)
  let crP := some_ && below b.ep cfg.creepP b.nm
  let crQ := some_ && below b.eq cfg.creepQ b.nm
  let s := d.apparent n b k
  let att := if some_ then d.attribution n crP else none
  let hx := att.getD []
  let ap := if crP then 0 else b.ap
  let am := if crP then 0 else b.am
  let q (x : Int) : Int := if crQ then 0 else x
  let sCarried : Int := if crP && crQ then 0 else s
  let si : Int := if 0 ≤ b.ep then sCarried else 0
  let se : Int := if 0 ≤ b.ep then 0 else sCarried
  let banks : List (Nat × Int) :=
    if some_ then
      [(0, ap), (1, am), (2, q b.q1), (3, q b.q2), (4, q b.q3), (5, q b.q4), (6, si), (7, se),
       (8, d.fineOf n (orderSum hx 2 63)), (9, d.fineOf n (orderSum hx 2 13)), (10, d.fineOf n (orderSum hx 14 25)),
       (11, d.fineOf n (orderSum hx 26 63))]
    else []
  let d := d.upIsle n (fun i => { i with quanta := [], carried := if some_ then [ap, am, si] else [0, 0, 0] })
  let d := banks.foldl (fun d x => d.carryQty n x.1 x.2) d
  let noV := (d.islePhases n).any (fun e => (d.elem e).noVF)
  let est := b0.est
  let st := flagAt 1 b0.slip + flagAt 2 est + flagAt 3 (decide (b.nm < 3200)) + flagAt 4 crP + flagAt 5 crQ +
    flagAt 6 (decide (b.ep < 0)) + flagAt 7 att.isNone + flagAt 8 noV + flagAt 9 d.run.cut + flagAt 10 scaled
  let nr := match d.isleNeutral n with | some e => (d.elem e).irms | none => 0
  let qs : Rat := 256 / d.quantumJ n
  let d := d.upIsle n (fun i =>
    { i with
      vEp := b.ep, vEq := b.eq, vS := s, crP := if crP then satU 32 (i.crP + 1) else i.crP,
      crQ := if crQ then satU 32 (i.crQ + 1) else i.crQ,
      disc := if crP then satU 80 (i.disc + b.ep.natAbs) else i.disc, nrms := nr, vNm := b.nm, vUnm := 3200 - b.nm,
      isumMs := if b0.nm = 0 then 0 else b0.isum / b0.nm, amCarr := am, interr := d.run.cut,
      hxNow := { i.hxNow with
        e := hx.foldl (fun t x => tabPut 0 x.1 (tabGet 0 t x.1 + x.2 * qs) t) i.hxNow.e,
        gap := i.hxNow.gap && att.isNone, partl := i.hxNow.partl || att.isNone } })
  d.isleFlags n st

/-- An RTD lane of the isle was estimated in frame F (R45, R91). -/
def Dev.rtdEst (d : Dev) (n : Nat) : Bool :=
  let est (k : Nat) : Bool := let l := d.lane k; if d.oddF then l.estOdd else l.estEven
  ((d.isleElems n).filter (fun e => d.elKind e == 3)).any (fun e => est (d.elLaneI e) || (d.elLane2 e != 0xFF && est (d.elLane2 e)))

/-- The close of a WATER or HEAT isle (R85, R119). -/
def Dev.closeUtil (d : Dev) (n : Nat) : Dev :=
  let odd := d.oddF
  let b := (d.isle n).bank odd
  let hourEnds := decide (d.run.endS % 3600 = 0 ∧ d.run.endT = 0)
  let ((vol, hot, cold, rev), d) := d.utilityFrame n b hourEnds
  let banks : List (Nat × Int) := if d.ilType n = 5 then [(0, vol), (9, rev)] else [(0, hot), (1, cold), (9, vol)]
  let d := d.upIsle n (fun i =>
    { i with quanta := [], carried := if d.ilType n = 5 then [vol, 0, 0] else [hot, cold, 0] })
  let d := banks.foldl (fun d x => d.carryQty n x.1 x.2) d
  let st := flagAt 1 b.slip + flagAt 2 (b.est || d.rtdEst n) + flagAt 3 (decide (b.nm < 3200)) + flagAt 9 d.run.cut
  let d := d.upIsle n (fun i => { i with vNm := b.nm, vUnm := 3200 - b.nm, interr := d.run.cut })
  d.isleFlags n st

/-- The views of frame F that are in place from offset 80 (R79): straits, and what the elements tell of lanes and lock. -/
def Dev.closeStraits (d : Dev) : Dev :=
  let odd := d.oddF
  let d := d.forEach d.tickStraits (fun s d =>
    let l := d.lane (d.stLane s)
    d.upStrait s (fun x =>
      let sum := if odd then x.sumOdd else x.sumEven
      let n := if odd then x.nOdd else x.nEven
      let ms : Rat := if n = 0 then 0 else max 0 sum / n
      let x := { x with ms := ms, vrms := satU 32 (sqrtInt 18 (ms * 65536)), lost := l.failF, vActive := x.activeF,
                        vLocked := x.lockedF, vUnlocks := x.unlocksF, estF := if odd then l.estOdd else l.estEven }
      if odd then { x with sumOdd := 0, nOdd := 0 } else { x with sumEven := 0, nEven := 0 }))
  let d := d.forEach (List.range 128) (fun n d => d.closeElems n ((d.isle n).bank odd) odd)
  d.forEach ((List.range 192).filter (fun e => d.elKind e != 0)) (fun e d => d.upElem e (fun x => { x with vActive := x.activeF }))

/-- The frame counts towards a dead busbar: every configured strait below DEAD_PCT of U_DIN (10_power R247). -/
def Dev.judgeDead (d : Dev) : Dev :=
  let low := d.tickStraits.all (fun s =>
    let x := d.strait s
    decide (d.vWeight s * x.vrms / 256 < (d.run.deadF : Rat) / 100 * d.uDin s))
  d.mapPwr (fun p => { p with deadN := if low then min 5 (p.deadN + 1) else 0, dead := low && (decide (4 ≤ p.deadN) || d.tickStraits.isEmpty) })

/-- The busbar is dead (10_power R247): always, on a device with no configured strait. -/
def Dev.isDead (d : Dev) : Bool := d.pwr.dead || d.tickStraits.isEmpty

/-- The SRAM tiles that hold the running state of an isle (R225, R230). -/
def Dev.workTiles (d : Dev) (n : Nat) : List Nat := let t := d.regionBase 32 / 1024 + 2 * n; [t, t + 1]

/-- The isle's state as a save restores it (R211, R224): what the store keeps outside the running state stays. -/
def IsleSt.fromSave (old cur : IsleSt) : IsleSt :=
  { old with cfgF := cur.cfgF, cfgN := cur.cfgN, hx := cur.hx, hxNow := cur.hxNow, snaps := cur.snaps,
             prof := { old.prof with held := cur.prof.held, seq := cur.prof.seq }, lastClosed := cur.lastClosed }

/-- A running-state tile of the isle that fails at its close restores the isle from the newest valid save; frame F
closes with every tick unmetered, and the running frame keeps its bank (R211). -/
def Dev.restoreTile (d : Dev) (n : Nat) : Dev :=
  let ts := d.workTiles n
  if ts.all (fun t => tabGet 0#32 d.store.sramBad t == 0#32) then d
  else
    let d := ts.foldl (fun d t => (d.verifySram t 0 16 (orgIsle n)).2) d
    let old := ((d.newestSave.map (fun s => tabGet .init s.run.isles n)).getD .init)
    let cur := d.isle n
    let odd := d.oddF
    let d := d.setIsle n (((old.fromSave cur).setBank odd .zero).setBank (!odd) (cur.bank (!odd)))
    d.mapStore (fun s => { s with sramBad := ts.foldl (fun b t => tabPut 0#32 t 0#32 b) s.sramBad })

/-- An hourly record's bytes (R99): orders in 2^-8 quantum, saturating. -/
def HxRec.bytes (r : HxRec) : List Byte :=
  leBytes 4 r.hour ++ (List.range 62).flatMap (fun h => leBytes 4 (satU 32 (tabGet 0 r.e (h + 2)).floor.toNat)) ++
  leBytes 4 (flagAt 0 r.gap + flagAt 1 r.partl)

/-- The profile of 24 records as the isle's twin record in the HXPROF region: 7 tiles (R99, 09_store R230). -/
def Dev.saveHours (d : Dev) (n : Nat) : Dev :=
  d.twWrite 14 (7 * n) n (tilePayloads 7 (((d.isle n).hx.flatMap HxRec.bytes)))

/-- The record of the hour that started at `hour` replaces the oldest of the 24, rounded half to even (R99). -/
def Dev.putHour (d : Dev) (n hour : Nat) (next : HxRec) : Dev :=
  (d.upIsle n (fun i =>
    let r : HxRec := { i.hxNow with hour := hour, e := i.hxNow.e.map (fun x => (x.1, ((rne x.2 : Int) : Rat))) }
    { i with hx := (r :: i.hx).take 24, hxNow := next })).saveHours n

/-- The hour that ended with frame F. -/
def Dev.rollHour (d : Dev) (n : Nat) : Dev := d.putHour n ((d.run.endS + 2 ^ 32 - 3600) % 2 ^ 32) .init

/-- Close frame F for isle `n`: the isle's type decides the calculation; the bank is cleared (R85, R18). -/
def Dev.closeIsle (d : Dev) (n : Nat) : Dev :=
  let d := d.restoreTile n
  let hourEnds := decide (d.run.endS % 3600 = 0 ∧ d.run.endT = 0)
  let d := if d.ilElec n then (let d := d.closeElec n; if hourEnds then d.rollHour n else d) else if d.ilType n = 5 ∨ d.ilType n = 6 then d.closeUtil n else d
  let odd := d.oddF
  if d.ilType n = 0 then d
  else d.upIsle n (fun i => { i.setBank odd .zero with closedS := d.run.endS, closedT := d.run.endT })

/-- ISLE_CLOSE (R85): isle n at offset 80 + n; the start of offset 80 settled frame F's open ticks (R427). -/
def execIsleClose (n : Nat) (st : State) : Host.Outcome State Fault Refusal :=
  onUnit (decide (n < 128)) "isle" st (fun d =>
    if d.sliceDue (80 + n) then
      let d := if n = 0 then d.closeStraits.judgeDead else d
      (d.closeIsle n).sliceDone (81 + n)
    else d)

/-! ## Isle events (12_events_tamper R307) -/

/-- Mean square current of an element in A2. -/
def Dev.elA2 (d : Dev) (e : Nat) : Rat := (d.elem e).ms * d.iWeight e * d.iWeight e
/-- A threshold in mA, squared, in A2. -/
def mA2 (t : Nat) : Rat := ((t : Rat) / 1000) * ((t : Rat) / 1000)
/-- Mean square voltage of a strait in V2. -/
def Dev.stV2 (d : Dev) (s : Nat) : Rat := (d.strait s).ms * d.vWeight s * d.vWeight s
/-- A strait lies below a part of U_DIN. -/
def Dev.stBelow (d : Dev) (s : Nat) (part : Rat) : Bool := decide (d.stV2 s < (part * d.uDin s) * (part * d.uDin s))

/-- PHASE_SEQ: crossings of element j follow those of element 0 by j sixths or thirds of a period within A degrees. -/
def Dev.seqBad (d : Dev) (n a : Nat) : Bool :=
  let es := d.islePhases n
  let div : Nat := if d.ilType n = 3 then 6 else 3
  match es with
  | [] => false
  | e0 :: rest =>
    let s0 := d.strait (d.elStrait e0)
    if !(es.all (fun e => (d.strait (d.elStrait e)).lockedF)) || s0.periodF == 0 then false
    else ((List.range rest.length).zip rest).any (fun (j, e) =>
      match (d.strait (d.elStrait e)).crossF, s0.crossF with
      | some c, some c0 =>
        let ph : Rat := ((((c : Int) - c0) % s0.periodF : Int) : Rat) / s0.periodF
        let diff := ph - ((j + 1 : Nat) : Rat) / div
        let diff := diff - (rne diff : Rat)
        decide ((a : Rat) / 360 < (if diff < 0 then -diff else diff))
      | _, _ => false)

/-- Raise or clear one isle source. -/
def Dev.isleSrc (d : Dev) (n src defA defB : Nat) (cond : Nat → Nat → Bool) : Dev :=
  let (a, b) := d.srcThresh src (some n) defA defB
  d.setSrc (tamKey src (some n)) (cond a b)

/-- The isle-level sources of one isle for frame F (R307). -/
def Dev.isleEvents (d : Dev) (n : Nat) : Dev :=
  let es := d.islePhases n
  let t := d.ilType n
  let i := d.isle n
  if d.ilElec n then
    let d := d.isleSrc n 0x20 0 0 (fun a _ =>
      decide (0 < i.amCarr) && decide (a * i.vNm * 2 ^ 40 ≤ i.amCarr.toNat * 57600000))
    let d := if (t = 2 ∨ t = 4) ∧ (d.isleNeutral n).isSome then
        let big := (es.map d.elA2).foldl max 0
        d.isleSrc n 0x21 100 1000 (fun a b =>
          decide (((a : Rat) / 1000) * ((a : Rat) / 1000) * big < i.isumMs) && decide (mA2 b ≤ big))
      else d
    let d := if 2 ≤ es.length then
        d.isleSrc n 0x22 10 5000 (fun a b =>
          es.any (fun e => decide (d.elA2 e < mA2 a) && !d.stBelow (d.elStrait e) ((d.run.deadF : Rat) / 100)) &&
          es.any (fun e => decide (mA2 b ≤ d.elA2 e) && es.any (fun f => f != e && decide (d.elA2 f < mA2 a) &&
            !d.stBelow (d.elStrait f) ((d.run.deadF : Rat) / 100))))
      else d
    let odd := d.oddF
    let d := d.isleSrc n 0x23 1 0 (fun a _ =>
      (d.isleElems n).any (fun e =>
        let l := d.lane (d.serving (d.elLaneI e))
        decide (max 1 a ≤ (if odd then l.ovrOdd else l.ovrEven))))
    let d := if 2 ≤ es.length then
        d.isleSrc n 0x24 600 0 (fun a _ =>
          let part : Rat := (a : Rat) / 1000
          es.any (fun e => (d.elem e).noVF) ||
          (es.any (fun e => d.stBelow (d.elStrait e) part) && es.any (fun e => !d.stBelow (d.elStrait e) part)))
      else d
    let d := if t = 3 ∨ t = 4 then d.isleSrc n 0x25 30 0 (fun a _ => d.seqBad n a) else d
    d.isleSrc n 0x26 100 0 (fun a _ => bitOf i.status 4 && es.any (fun e => decide (mA2 a ≤ d.elA2 e)))
  else if t = 5 then
    let d := if i.util.revNzF then d.setSrc (tamKey 0x20 (some n)) true else d
    if i.util.revEndF = some true then d.setSrc (tamKey 0x20 (some n)) false else d
  else d

/-- ISLE_EVENTS_SLICE (R307): isle n at offset 336 + n. -/
def execIsleEventsSlice (n : Nat) (st : State) : Host.Outcome State Fault Refusal :=
  onUnit (decide (n < 128)) "isle" st (fun d =>
    if d.sliceDue (336 + n) then (d.isleEvents n).sliceDone (337 + n) else d)

/-! ## Archipelago events (R306, R298, R305) -/

/-- One slow-excursion source: raised outside A to B, cleared by a mean inside both by 1 % (R306). -/
def Dev.slowSrc (d : Dev) (src v defA defB : Nat) : Dev :=
  let (a, b) := d.srcThresh src none defA defB
  if v < a ∨ b < v then d.raiseSrc src
  else if a * 101 ≤ v * 100 ∧ v * 100 ≤ b * 99 then d.clearSrc src else d

/-- The device-level monitors evaluated from the frame's measurements (R306). -/
def Dev.monitors (d : Dev) (m : Monitors) : Dev :=
  let d := [(0x05, 0), (0x07, 1), (0x09, 2), (0x0B, 3)].foldl (fun d (s, i) =>
    if m.glitch.getLsbD i then d else d.clearSrc s) d
  let d := d.slowSrc 0x06 m.vdd33 3050 3550
  let d := d.slowSrc 0x08 m.vddc 770 830
  let d := d.slowSrc 0x0A m.vdd5p 4800 5200
  let d := d.slowSrc 0x0C m.vbat 2200 3650
  let (a, b) := d.srcThresh 0x0D none (twos 32 (-450)) 1100
  let lo := sext 32 a
  let hi := sext 32 b
  let d := if m.die < lo ∨ hi < m.die then d.raiseSrc 0x0D
    else if lo + 20 ≤ m.die ∧ m.die ≤ hi - 20 then d.clearSrc 0x0D else d
  if d.frameInSec = 0 then d.quietSrc 0x0E 5 (decide ((d.srcThresh 0x0E none 5000 0).1 < m.clock)) else d

/-- ARCHIPELAGO_EVENTS_SLICE (R19): offsets 464 to 479, once a frame, the first one after go-live included: monitors,
expiry of knots, release of notifications. -/
def execArchipelagoEventsSlice (m : Monitors) (st : State) : Host.Outcome State Fault Refusal :=
  .next (st.onDev (fun d =>
    if decide (d.pwr.mode = .run ∨ d.pwr.mode = .doze) && decide (464 ≤ d.off ∧ d.off < 480) && decide (d.run.off < 480) then
      (((d.monitors m).expireKnots).releaseNotices).sliceDone 480
    else d))

end Sys2Proof.Machine
end

