-- ==== Sys2Proof/Machine/Relays.lean ====
section
/-! DEFINITION. Relay holds and the commands they queue (06_billing R143, 11_ports_partners R278, R280). -/

namespace Sys2Proof.Machine

/-- The relay is open while any hold is on it (R143). -/
def Dev.relayOpen (d : Dev) (t : Nat) : Bool := d.bak.holds.any (fun h => h.target == t)

/-- Port and output of a RELAY_TARGET that names a port output (08 R182). -/
def targetPort (t : Nat) : Nat := bitsOf t 5 1
def targetOut (t : Nat) : Nat := bitsOf t 0 0
/-- A RELAY_TARGET names a partner. -/
def targetIsPartner (t : Nat) : Bool := bitOf t 15
def targetPartner (t : Nat) : Nat := bitsOf t 11 0

/-- The last known state of a target: the output, or the partner's last read RELAY_STATE. -/
def Dev.relayState (d : Dev) (t : Nat) : Option Bool :=
  if targetIsPartner t then ((d.partner (targetPartner t)).value 11).map (fun v => decide (v ≠ 0))
  else some ((d.port (targetPort t)).out.getD (targetOut t) false)

/-- The port a target's command travels on. -/
def Dev.relayPort (d : Dev) (t : Nat) : Nat :=
  if targetIsPartner t then (d.partner (targetPartner t)).port else targetPort t

/-- Queue a target's command while its state differs; only the latest is kept, and a target that equals the
present state takes its command out of the queue (R278, R280). Class 1 marks a tamper action. -/
def Dev.relayUpdate (d : Dev) (t cls : Nat) : Dev :=
  let p := d.relayPort t
  let rest := (d.port p).relayQ.filter (fun x => x.1 != t)
  if d.relayState t = some (d.relayOpen t) then
    let d := d.upPort p (fun x => { x with relayQ := rest })
    if rest.isEmpty && !targetIsPartner t then (d.withdraw (.port p)).withdraw (.tamperPort p) else d
  else d.upPort p (fun x => { x with relayQ := rest ++ [(t, cls)] })

/-- Place a hold. -/
def Dev.placeHold (d : Dev) (h : Hold) (cls : Nat) : Dev :=
  if h ∈ d.bak.holds then d
  else (d.mapBak (fun b => { b with holds := b.holds ++ [h] })).relayUpdate h.target cls

/-- Release the holds of a target that a test selects. -/
def Dev.releaseHolds (d : Dev) (t : Nat) (f : Hold → Bool) : Dev :=
  (d.mapBak (fun b => { b with holds := b.holds.filter (fun h => !(h.target == t && f h)) })).relayUpdate t 4

/-- Release the demand holds of a target: TRIPPED clears, and each release is logged (R143). -/
def Dev.releaseDemand (d : Dev) (t : Nat) : Dev :=
  let srcs := (d.bak.holds.filter (fun h => h.target == t && h.kind == 1)).map (fun h => h.source)
  let d := d.releaseHolds t (fun h => h.kind == 1)
  srcs.foldl (fun d n =>
    if n < 128 then (d.upIsle n (fun i => { i with dem := { i.dem with tripped := false } })).logNow 0x044 (orgIsle n) []
    else d.logNow 0x044 (match (List.range 128).find? (fun n => d.ilRelay n == t) with | some n => orgIsle n | none => orgDev) []) d

/-- A RELAY_HOLD or RELAY_RELEASE is latched for the next tick boundary (R314, 15_host_link R379). -/
def Dev.relayLater (d : Dev) (t kind : Nat) (release : Bool) : Dev :=
  d.mapLink (fun l => { l with relays := l.relays ++ [(t, kind, release)] })

/-- A latched RELAY_HOLD or RELAY_RELEASE acts: a hold of kind 0 or 1 is placed; the holds of the kind leave (R280, R314). -/
def Dev.relayNow (d : Dev) (x : Nat × Nat × Bool) : Dev :=
  if !x.2.2 then d.placeHold { target := x.1, kind := x.2.1, source := 128 } 4
  else if x.2.1 = 1 then d.releaseDemand x.1
  else d.releaseHolds x.1 (fun h => h.kind == x.2.1)

end Sys2Proof.Machine
end

