-- ==== Sys2Proof/Machine/Billing.lean ====
section
/-! DEFINITION. Calendars, tariffs, demand, load profile, billing-period closes, and time (06_billing R131 to R158,
01_archipelago R13, R14). -/

namespace Sys2Proof.Machine

/-! ## Calendar blocks (R132 to R134) -/

/-- A used season: month, day, week profile. -/
def calSeasons (b : List Byte) : List (Nat × Nat × Nat) :=
  (List.range (min 4 (u8 b 8))).map (fun s => (u8 b (0x10 + 4 * s), u8 b (0x11 + 4 * s), u8 b (0x12 + 4 * s)))
/-- Used SPECIAL entries: year byte, month, day, day profile. -/
def calSpecials (b : List Byte) : List (Nat × Nat × Nat × Nat) :=
  (List.range (min 64 (u8 b 9))).map (fun x =>
    (u8 b (0x260 + 4 * x), u8 b (0x261 + 4 * x), u8 b (0x262 + 4 * x), u8 b (0x263 + 4 * x)))
/-- Used BILL entries: month, day, hour, minute. -/
def calBills (b : List Byte) : List (Nat × Nat × Nat × Nat) :=
  (List.range (min 12 (u8 b 0x0A))).map (fun y =>
    (u8 b (0x360 + 4 * y), u8 b (0x361 + 4 * y), u8 b (0x362 + 4 * y), u8 b (0x363 + 4 * y)))
/-- Day profile of a week profile's weekday, Monday = 0. -/
def calWeek (b : List Byte) (w wd : Nat) : Nat := u8 b (0x20 + 8 * w + wd)
/-- Valid switch points of a day profile: minute, tariff. -/
def calDay (b : List Byte) (dp : Nat) : List (Nat × Nat) :=
  (List.range 12).filterMap (fun i =>
    let x := u16 b (0x60 + 0x20 * dp + 2 * i)
    if bitOf x 15 then some (bitsOf x 10 0, bitsOf x 13 11) else none)
def calActivation (b : List Byte) : Nat := u32 b 4
def calId (b : List Byte) : Nat := u32 b 0

/-- The season in force on a month and day: the latest start not after it, else the latest start of all (R134). -/
def calSeason (b : List Byte) (m dd : Nat) : Nat × Nat × Nat :=
  let later (l : List (Nat × Nat × Nat)) : Nat × Nat × Nat :=
    l.foldl (fun x y => if x.1 * 32 + x.2.1 ≤ y.1 * 32 + y.2.1 then y else x) (0, 0, 0)
  match (calSeasons b).filter (fun s => decide (s.1 * 32 + s.2.1 ≤ m * 32 + dd)) with
  | [] => later (calSeasons b)
  | l => later l

/-- tariff(D, m) of R134, 0 = T1. -/
def calTariff (b : List Byte) (t : DateTime) : Nat :=
  let sp := calSpecials b
  let dp := match sp.find? (fun x => decide (x.1 ≠ 0xFF ∧ x.1 + 2000 = t.year ∧ x.2.1 = t.month ∧ x.2.2.1 = t.day)) with
    | some x => x.2.2.2
    | none => match sp.find? (fun x => decide (x.1 = 0xFF ∧ x.2.1 = t.month ∧ x.2.2.1 = t.day)) with
      | some x => x.2.2.2
      | none => calWeek b (calSeason b t.month t.day).2.2 t.weekday
  (((calDay b dp).filter (fun p => decide (p.1 ≤ t.minute))).getLast?.map (fun p => p.2)).getD 0

/-- A BILL entry names a local date-time (R148). -/
def calBillAt (b : List Byte) (t : DateTime) : Bool :=
  decide (t.second = 0) && (calBills b).any (fun y =>
    decide ((y.1 = 0 ∨ y.1 = t.month) ∧ y.2.1 = t.day ∧ y.2.2.1 = t.minute / 60 ∧ y.2.2.2 = t.minute % 60))

/-- Whether a list ascends strictly. -/
def ascending : List Nat → Bool
  | a :: b :: t => decide (a < b) && ascending (b :: t)
  | _ => true

/-- The checks of R133. -/
def calOk (b : List Byte) (tariffs : Nat) : Bool :=
  let zero (o n : Nat) : Bool := (sliceB b o n).all (fun x => x == 0#8)
  let ns := u8 b 8
  let se := calSeasons b
  let sp := calSpecials b
  let bi := calBills b
  let weeks := se.map (fun s => s.2.2)
  let days := weeks.flatMap (fun w => (List.range 7).map (fun i => calWeek b w i)) ++ sp.map (fun x => x.2.2.2)
  b.length == 1024 && zero 0x0B 5 && decide (1 ≤ ns ∧ ns ≤ 4) && decide (u8 b 9 ≤ 64) &&
  decide (u8 b 0x0A ≤ 12) &&
  (List.range ns).all (fun s => u8 b (0x13 + 4 * s) == 0) &&
  (List.range 8).all (fun w => u8 b (0x27 + 8 * w) == 0) &&
  (List.range 16).all (fun dp => zero (0x60 + 0x20 * dp + 24) 8 &&
    (List.range 12).all (fun i => !bitOf (u16 b (0x60 + 0x20 * dp + 2 * i)) 14)) &&
  decide ((se.map (fun s => s.1 * 32 + s.2.1)).Nodup) &&
  se.all (fun s => decide (1 ≤ s.1 ∧ s.1 ≤ 12 ∧ 1 ≤ s.2.1 ∧ s.2.1 ≤ monthDays 2000 s.1 ∧ s.2.2 ≤ 7)) &&
  days.all (fun dp => decide (dp ≤ 15) &&
    (let l := calDay b dp
     decide ((l.head?.map (fun p => p.1)) = some 0) && ascending (l.map (fun p => p.1)) &&
     l.all (fun p => decide (p.1 ≤ 1439 ∧ p.2 < tariffs)))) &&
  decide ((sp.map (fun x => (x.1, x.2.1, x.2.2.1))).Nodup) && decide (bi.Nodup)

/-! ## The calendars of a plan (R132, R135, 09_store R230) -/

/-- Roles of a plan's two tiles: the active one is the second; the first, the second hold a calendar. -/
def Dev.calRoles (d : Dev) (p : Nat) : Bool × Bool × Bool := d.calRecord.getD p (false, false, false)

def Dev.setCalRoles (d : Dev) (p : Nat) (r : Bool × Bool × Bool) : Dev :=
  let l := (List.range 4).map (fun i => if i = p then r else d.calRoles i)
  d.putCalRecord l

/-- The address of a plan's active or passive tile. -/
def Dev.calAddr (d : Dev) (p : Nat) (passive : Bool) : Nat :=
  let second := if passive then !(d.calRoles p).1 else (d.calRoles p).1
  d.regionBase 8 + 1024 * (2 * p + b2n second)

/-- The block of a CAL_LOAD job that has become active at the boundary it started at, before its transaction is applied, by
the address it is written to: bit 0 of its word tells whether a passive calendar stood there (R135). -/
def Dev.loadedCal (d : Dev) (ad : Nat) : Option (List Byte) :=
  (d.link.jobs.find? (fun j => j.op == 0x18 && decide (j.phase = .running) && j.stage == 4 && j.word / 2 == ad + 1)).map (fun j => j.args.drop 1)

/-- A plan's active or passive calendar; absent when empty or when its tile fails (09 R209). -/
def Dev.calendar (d : Dev) (p : Nat) (passive : Bool) : Option (List Byte) :=
  let (act, a, b) := d.calRoles p
  let second := if passive then !act else act
  let has := if second then b else a
  let ad := d.calAddr p passive
  if !has then none
  else match d.loadedCal ad with
    | some l => some l
    | none => if d.tileRes (ad / 1024) = .good then some (memRead d.store.mram ad 1024) else none

/-- The calendars held are verified before the boundary uses them: PENDING is cleared, a failure is reported (09 R206,
R209, R210). -/
def Dev.checkCals (d : Dev) : Dev :=
  d.forEach (List.range 8) (fun i d =>
    let (_, a, b) := d.calRoles (i / 2)
    if if i % 2 = 1 then b else a then (d.verifyTile (d.regionBase 8 / 1024 + i) 0 0 orgDev).2 else d)

/-- Mark the passive tile of a plan full or empty. -/
def Dev.holdPassive (d : Dev) (p : Nat) (has : Bool) : Dev :=
  let (act, a, b) := d.calRoles p
  d.setCalRoles p (if act then (act, has, b) else (act, a, has))

/-- The passive calendar becomes active, the former one is discarded (R135). -/
def Dev.activateCal (d : Dev) (p : Nat) : Dev :=
  let (act, a, b) := d.calRoles p
  let id := ((d.calendar p true).map calId).getD 0
  let d := d.setCalRoles p (if act then (false, a, false) else (true, false, b))
  d.logNow 0x041 orgDev ([byteOf p, 0#8, 0#8, 0#8] ++ leBytes 4 id)

/-- The CAL_LOAD of a plan that was accepted in the tick before the running boundary: its block replaces the passive calendar
there, its transaction to follow (R135). -/
def Dev.loadingCal (d : Dev) (p : Nat) : Option Job :=
  d.link.jobs.find? (fun j => j.op == 0x18 && decide (j.phase = .running) && j.stage == 4 && j.word == 0 &&
    j.ready == d.clk.runTick && u8 j.args 0 == p)

/-- The plan's due calendar is the one being loaded: it becomes active, the former active and passive ones are discarded. -/
def Dev.activateLoading (d : Dev) (p : Nat) (j : Job) : Dev :=
  let ad := d.calAddr p true
  let (act, a, b) := d.calRoles p
  let d := (d.upJob j.num (fun x => { x with word := 2 * (ad + 1) + b2n (if act then a else b) })).setCalRoles p (if act then (false, true, false) else (true, false, true))
  d.logNow 0x041 orgDev ([byteOf p, 0#8, 0#8, 0#8] ++ leBytes 4 (calId (j.args.drop 1)))

/-- The load of an activated calendar is aborted before its commit: the plan's active calendar is what its tile holds. -/
def Dev.loadAborted (d : Dev) (j : Job) : Dev :=
  if j.word = 0 ∨ j.word % 2 = 1 then d
  else
    let p := u8 j.args 0
    let (act, a, b) := d.calRoles p
    d.setCalRoles p (if act then (act, a, false) else (act, false, b))

/-- Activations due at a local time, while SET is 1 (R135, R398). -/
def Dev.activations (d : Dev) (loc : Nat) : Dev :=
  if !d.clk.set then d
  else d.forEach (List.range 4) (fun p d =>
    let due (b : List Byte) : Bool := decide (calActivation b ≠ 0xFFFFFFFF ∧ calActivation b ≤ loc)
    match d.loadingCal p with
    | some j => if due (j.args.drop 1) then d.activateLoading p j else d
    | none =>
      match d.calendar p true with
      | some b => if due b then d.activateCal p else d
      | none => d)

/-- The tariff of a plan at a local time, and whether it is the plan's default (R131, R134, R398). -/
def Dev.tariffAt (d : Dev) (p loc : Nat) : Nat × Bool :=
  if d.clk.set then
    match d.calendar p false with
    | some b => (calTariff b (dateTime loc), false)
    | none => (d.plDefault p, true)
  else (d.plDefault p, true)

/-- Record registers, plan and tariff for the frame that starts; those of the ending frame become frame F's (R20). -/
def Dev.recordFrame (d : Dev) (loc : Nat) : Dev :=
  d.forEach ((List.range 128).filter (fun n => d.ilType n != 0)) (fun n d =>
    let p := d.rPlan n
    let (t, df) := d.tariffAt p loc
    let c : IsleCfg :=
      { creepP := d.rCreepP n, creepQ := d.rCreepQ n, plan := p, mins := d.rMins n, subint := d.rSubint n,
        warn := d.rWarn n, trip := d.rTrip n, tariff := t, dflt := df,
        ks := (d.islePhases n).map (fun e => (e, d.kFactor e)) }
    d.upIsle n (fun i => { i with cfgF := i.cfgN, cfgN := c }))

/-! ## PARAMS record 3 (09_store R230) -/

def Dev.saveTimeRec (d : Dev) : Dev :=
  let l : Tab Nat := (List.range 128).filterMap (fun n =>
    if (d.isle n).lastClosed = 0 then none else some (n, (d.isle n).lastClosed))
  d.putTimeRecord (d.clk.offset, d.clk.sched, l)

/-! ## Billing-period closes (R148) -/

/-- Record a close of an isle at a device time. -/
def Dev.recordClose (d : Dev) (n secs tick loc : Nat) (manual late : Bool) : Dev :=
  if !manual && decide (loc ≤ (d.isle n).lastClosed) then d
  else (d.upIsle n (fun i =>
    { i with lastClosed := max i.lastClosed loc,
             closes := i.closes ++ [{ secs := secs, tick := tick, localS := loc, manual := manual, late := late }] })).saveTimeRec

/-- The calendar closes of a local time, by the plan in force in frame F (R148). -/
def Dev.calendarCloses (d : Dev) (secs loc : Nat) (late : Bool) : Dev :=
  if !d.clk.set then d
  else
    let t := dateTime loc
    let due := (List.range 4).filter (fun p => ((d.calendar p false).map (fun b => calBillAt b t)).getD false)
    if due.isEmpty then d
    else d.forEach ((List.range 128).filter (fun n => d.ilType n != 0 && decide ((d.isle n).cfgN.plan ∈ due)))
      (fun n d => d.recordClose n secs 0 loc false late)

/-! ## Skipped spans (R154, R158) -/

/-- Minutes of a PROFILE_INTERVAL code (R144). -/
def profMin (c : Nat) : Nat := nth [0, 1, 5, 15, 30, 60] c 0

/-- One local minute of a skipped span: activations due before it, closes, then activations (R155). -/
def Dev.skippedMinute (d : Dev) (secs loc : Nat) (late : Bool) : Dev :=
  ((d.activations (loc - 1)).calendarCloses secs loc late).activations loc

/-- The local minutes from `t` on, before `b`, that a change of offset skips, at one device time (R154). -/
def Dev.walkLocal (d : Dev) (secs : Nat) (late : Bool) : Nat → Nat → Nat → Dev
  | 0, _, _ => d
  | f + 1, t, b => if b ≤ t then d else (d.skippedMinute secs t late).walkLocal secs late f (t + 60) b

/-- The first whole minute at or after a second. -/
def minuteFrom (s : Nat) : Nat := cdiv s 60 * 60

/-! ## Offset changes (R152, R154) -/

/-- Apply one offset at device second `secs`; answers the change in minutes. The local minutes that it skips are processed,
the one at which it takes effect among them (R154, R155). -/
def Dev.applyOffset (d : Dev) (secs : Nat) (o : Int) (late : Bool) : Int × Dev :=
  let old := d.clk.offset
  if o = old then (0, d)
  else
    let at_ (x : Int) : Nat := ((secs : Int) + 60 * x).toNat
    let d := (d.mapClk (fun c => { c with offset := o })).saveTimeRec
    let l0 := minuteFrom (at_ old)
    (o - old, if l0 < at_ o then d.walkLocal secs late ((at_ o - l0) / 60 + 1) l0 (at_ o) else d)

/-- A scheduled offset change takes effect when its time has come (R152, R398). -/
def Dev.dueOffset (d : Dev) (secs : Nat) (late : Bool) : Dev :=
  match d.clk.sched with
  | (t, o) :: rest =>
    if d.clk.set ∧ t ≤ secs then ((d.mapClk (fun c => { c with sched := rest })).applyOffset secs o late).2 else d
  | [] => d

/-- The intervals of isles that end at a local second without being metered: demand intervals give nothing, profile intervals
join the isle's GAP record (R147), with the tariff at the END (log 71). -/
def Dev.gapMinute (d : Dev) (secs loc : Nat) : Dev :=
  let d := d.forEach ((List.range 128).filter (fun n => d.ilType n != 0 && decide (loc % (max 1 (d.isle n).cfgN.mins * 60) = 0)))
    (fun n d => d.upIsle n (fun i => { i with dem := { i.dem with opened := false } }))
  d.forEach ((List.range 128).filter (fun n => d.ilType n != 0 && profMin (d.ilProfile n) != 0 &&
      loc / 60 % profMin (d.ilProfile n) == 0)) (fun n d =>
    let t := (d.tariffAt (d.isle n).cfgN.plan (loc - 1)).1
    d.upIsle n (fun i =>
      let k : Nat := ((i.prof.due.getLast?).map (fun x => x.2.2)).getD 0
      let old := if k = 0 then i.prof.due else i.prof.due.dropLast
      { i with prof := { i.prof with due := old ++ [(secs, 8 + 256 * t, k + 1)], opened := false } }))

/-- The whole minutes of device time from `t` to before `b`, in time order, each with its offset changes; `gaps` for an
outage, whose interval ends are gathered. -/
def Dev.walkDevice (d : Dev) (late gaps : Bool) : Nat → Nat → Nat → Dev
  | 0, _, _ => d
  | f + 1, t, b =>
    if b ≤ t then d
    else
      let d := (((d.dueOffset t late).dueOffset t late).dueOffset t late).dueOffset t late
      let loc := ((t : Int) + 60 * d.clk.offset).toNat
      let d := d.activations (loc - 1)
      let d := if gaps then d.gapMinute t loc else d
      (d.skippedMinute t loc late).walkDevice late gaps f (t + 60) b

/-- The boundaries of the device seconds from `a` to before `b`; what an activation off a whole minute changes is in force at
`b` (R135). -/
def Dev.walkSpan (d : Dev) (a b : Nat) (late gaps : Bool) : Dev :=
  if b ≤ a then d
  else
    let d := d.walkDevice late gaps ((b - a) / 60 + 1) (minuteFrom a) b
    d.activations (((b : Int) + 60 * d.clk.offset).toNat - 1)

/-- All offset changes of the running boundary: the new current offset, then scheduled ones; `late` after a power-up. -/
def Dev.boundaryOffsets (d : Dev) (late : Bool) : List Int × Dev :=
  let secs := d.clk.secs
  let (a, d) := match d.clk.newOff with
    | some o => (let (x, d) := (d.mapClk (fun c => { c with newOff := none })).applyOffset secs o late; ([x], d))
    | none => ([], d)
  (List.range 4).foldl (fun (l, d) _ =>
    match d.clk.sched with
    | (t, o) :: rest =>
      if d.clk.set ∧ t ≤ secs then
        let (x, d) := (d.mapClk (fun c => { c with sched := rest })).applyOffset secs o late
        (l ++ [x], d)
      else (l, d)
    | [] => (l, d)) (a, d)

/-! ## STEP (R14, R151, R153, R154) -/

/-- Whole frames of a step, a tie away from zero (R14). -/
def stepFrames (delta : Int) : Int := roundAway ((delta : Rat) / 3200)

/-- The running TIME_SET job. -/
def Dev.timeJob (d : Dev) : Option Job := d.link.jobs.find? (fun j => j.op == 0x10 && decide (j.phase = .running) && j.fin.isNone)

/-- A TIME_SET ends at the boundary being worked: its final status stands from there, and JOB is set (R151, 01 R29,
15_host_link R385). -/
def Dev.endTimeJob (d : Dev) (n : Nat) (st : Status) : Dev :=
  (d.upJob n (fun j => { j with phase := .finished, fin := none, status := st, word := 0, result := [] })).mapLink
    (fun k => { k with cause := k.cause ||| 4#7 })

/-- Finish the running TIME_SET. -/
def Dev.timeDone (d : Dev) (st : Status) : Dev := match d.timeJob with | some j => d.finish j.num st 0 [] | none => d

/-- Whole intervals of `len` seconds inside the local seconds from `a` to `b`, and the END of the last. -/
def wholeIntervals (a b len : Nat) : Nat × Nat := (b / len - cdiv a len, b / len * len)

/-- Apply a waiting STEP at the frame boundary: answers whether intervals close short (a whole-frame step), the
device time before it, and whether it was forward; `gaps` where no interval runs. -/
def Dev.applyStep (d : Dev) (gaps : Bool) : Bool × Dev :=
  match d.clk.step with
  | none => (false, d)
  | some delta =>
    let q := stepFrames delta
    let rest := delta - 3200 * q
    let first := !d.clk.set
    let t0 := d.timeTicks
    let (s1, k1) := ofTicks ((t0 : Int) + 3200 * q).toNat
    let old := d.clk.secs
    let d := d.mapClk (fun c => { c with
      step := none, set := true, secs := s1, tick := k1,
      slew := if rest = 0 then none else some { advance := decide (0 < rest), total := (rest.natAbs : Rat), ran := 0 } })
    let d := if rest = 0 then (match d.timeJob with | some j => d.endTimeJob j.num .done | none => d) else d
    if q = 0 then (false, d)
    else
      let d := if q < 0 then d.logNow 0x045 orgDev (leBytes 4 old ++ leBytes 4 s1)
        else if first then d else d.walkSpan (cdiv t0 16000) s1 false gaps
      (true, d.forEach ((List.range 128).filter (fun n => d.ilType n != 0)) (fun n d => d.upIsle n (fun i => { i with pStep := true })))

/-! ## Interval ends (R136, R138, R144) -/

/-- Record a demand end of an isle at the running boundary; an interval that ends here ends the one of a trip (R143). -/
def Dev.markDemand (d : Dev) (n : Nat) (short interrupted : Bool) (endS : Nat) : Dev :=
  let c := (d.isle n).cfgN
  let loc := d.local_
  let on := decide (d.clk.tick = 0)
  let subEnd := on && decide (loc % (c.mins * 60 / max 1 c.subint) = 0)
  let whole := on && decide (loc % (c.mins * 60) = 0)
  let aligned := on && decide (loc % (d.rMins n * 60) = 0)
  let m := (d.isle n).dem
  if short || interrupted then
    d.upIsle n (fun i => { i with dem := { i.dem with
      due := some { secs := endS, whole := true, short := true, interrupted := interrupted, cut := true },
      opened := !aligned, cut := false, tripEnd := true } })
  else if subEnd then
    d.upIsle n (fun i => { i with dem := { i.dem with
      due := some { secs := endS, whole := whole, short := whole && m.opened, interrupted := false, cut := false },
      opened := m.opened && !whole, tripEnd := i.dem.tripEnd || whole } })
  else d

/-- Record profile ends of an isle: short or whole, and the whole intervals that a step skipped. An interval that opens at
a short close is short too (R138). -/
def Dev.markProfile (d : Dev) (n : Nat) (short interrupted stepped : Bool) (endS skipFrom : Nat) : Dev :=
  let len := profMin (d.ilProfile n) * 60
  if len = 0 then d
  else
    let loc := d.local_
    let whole := decide (d.clk.tick = 0 ∧ loc % len = 0)
    let cut := short || interrupted
    let flags := flagAt 0 (cut || (d.isle n).prof.opened) + flagAt 1 interrupted + flagAt 2 stepped
    let own : List (Nat × Nat × Nat) := if cut || whole then [(endS, flags, 0)] else []
    let gap : List (Nat × Nat × Nat) :=
      if stepped ∧ skipFrom < d.clk.secs then
        let sh (x : Nat) : Nat := ((x : Int) + 60 * d.clk.offset).toNat
        let (k, e) := wholeIntervals (sh skipFrom) (sh d.clk.secs) len
        let t := (d.tariffAt (d.isle n).cfgN.plan (e - 1)).1
        if k = 0 then [] else [(((e : Int) - 60 * d.clk.offset).toNat, 8 + 256 * t, k)]
      else []
    d.upIsle n (fun i => { i with prof := { i.prof with
      due := i.prof.due ++ own ++ gap, opened := !whole && (cut || i.prof.opened), mark := if stepped ∧ d.clk.secs < endS then some (max endS (i.prof.mark.getD 0)) else i.prof.mark } })

/-- Interval ends at the boundary at which metering resumes: nothing was metered, and what ends there joins the GAP records
of the outage (R147, R158; log 71). -/
def Dev.idleEnds (d : Dev) (back : Bool) (endS : Nat) : Dev :=
  let d := if d.clk.tick = 0 ∧ d.clk.secs % 60 = 0 then d.gapMinute d.clk.secs d.local_ else d
  if back then d.forEach ((List.range 128).filter (fun n => d.ilType n != 0)) (fun n d => d.upIsle n (fun i =>
    { i with prof := { i.prof with mark := some (max endS (i.prof.mark.getD 0)) } }))
  else d

/-- The boundary at which metering resumes after a power-up (R158). -/
def Dev.resuming (d : Dev) : Bool := d.img.resume && !d.img.reloaded

/-- The boundary's evaluation for frame F in the order of R155: step, offsets, interval ends, closes, activations,
and the record for the new frame. `interrupted` for the pending boundary of a power-up (R156). -/
def Dev.evalBoundary (d : Dev) (interrupted : Bool) : Dev :=
  let endS := d.clk.secs
  let idle := d.resuming && !interrupted
  let (stepped, d) := if interrupted then (false, d) else d.applyStep idle
  let (offs, d) := d.checkCals.boundaryOffsets interrupted
  let isles := (List.range 128).filter (fun n => d.ilType n != 0)
  let d := if idle then d.idleEnds (stepped && decide (d.clk.secs < endS)) endS else d.forEach isles (fun n d =>
    let c := (d.isle n).cfgN
    let offShort (mins : Nat) : Bool := offs.any (fun o => decide (o % (max 1 mins : Nat) ≠ 0))
    let cut := (d.isle n).dem.cut
    let changed := !interrupted && decide (c.mins ≠ d.rMins n ∨ c.subint ≠ d.rSubint n)
    let d := d.markDemand n (stepped || offShort c.mins || changed || cut) interrupted endS
    d.markProfile n (stepped || offShort (profMin (d.ilProfile n)) || changed || cut) interrupted stepped endS endS)
  let loc := d.local_
  let d := if d.clk.tick = 0 then d.calendarCloses d.clk.secs loc interrupted else d
  let manual := isles.filter (fun n => bitOf d.link.closeNow n)
  let secs := d.clk.secs
  let tick := d.clk.tick
  let d := d.forEach manual (fun n d => d.recordClose n secs tick loc true interrupted)
  let d := d.mapLink (fun k => { k with closeNow := 0 })
  let d := d.activations loc
  let d := if interrupted then d.forEach isles (fun n d => d.upIsle n (fun i => { i with pFail := true })) else d
  d.recordFrame d.local_

/-! ## Demand slice (R137 to R143) -/

/-- D in quanta per hour of an energy in 2^-16 fine LSB over intervals of `mins` minutes (R137). -/
def demandOf (mins : Nat) (e : Int) : Nat := satU 32 (rne (((60 * e : Int) : Rat) / ((mins * 2 ^ 40 : Nat) : Rat))).toNat

/-- Demand slots of an isle type (R136). -/
def demSlots (elec : Bool) (type : Nat) : List Nat := if elec then [0, 1, 2] else if type = 6 then [0, 1] else [0]

/-- Slot-wise sum. -/
def addSlots (a b : List Int) : List Int := (List.range 3).map (fun j => a.getD j 0 + b.getD j 0)

/-- A sub-interval ends (R137, R138): demands, maximum table, flags. -/
def Dev.closeDemand (d : Dev) (n : Nat) (due : DemEnd) : Dev :=
  let c := (d.isle n).cfgF
  let m := (d.isle n).dem
  let subs := (m.cur :: m.subs).take c.subint
  let e := subs.foldl addSlots [0, 0, 0]
  let ds := (List.range 3).map (fun j => demandOf c.mins (e.getD j 0))
  let put (t : Tab (Nat × Nat)) (k j : Nat) : Tab (Nat × Nat) :=
    let x := ds.getD j 0
    if (tabGet (0, 0) t k).1 < x then tabPut (0, 0) k (x, due.secs) t else t
  let maxT := (demSlots (d.ilElec n) (d.ilType n)).foldl (fun t j => put (put t (4 * (1 + c.tariff) + j) j) j j) m.max
  let since := m.since + 1
  let restart := due.cut
  d.upIsle n (fun i => { i with dem := { i.dem with
    cur := [0, 0, 0], last := ds, lastEnd := due.secs, max := maxT, due := none,
    subs := if restart then [] else subs,
    since := if restart then 0 else since,
    short := if due.whole then due.short else i.dem.short,
    interr := if due.whole then due.interrupted else i.dem.interr,
    partl := if restart then decide (2 ≤ (d.isle n).cfgN.subint) else i.dem.partl && decide (since < c.subint) } })

/-- Demand limits (R140 to R142) with the WARN and TRIP in force. -/
def Dev.demandLimits (d : Dev) (n mins subint warn trip : Nat) : Dev :=
  let m := (d.isle n).dem
  let e := (m.subs.take (subint - 1)).foldl addSlots m.cur
  let run := (List.range 3).map (fun j => demandOf mins (e.getD j 0))
  let e0 := e.getD 0 0
  let reached (t : Nat) : Bool := decide (t ≠ 0) && decide (((t * 10000 * mins * 2 ^ 40 : Nat) : Int) ≤ 60 * e0)
  let det (t f : Nat) : List Byte := leBytes 4 (run.getD 0 0) ++ leBytes 2 t ++ [0#8, byteOf f]
  let d := d.upIsle n (fun i => { i with dem := { i.dem with run := run } })
  if !d.ilElec n then d
  else
    let d := if reached warn && !m.warn then
        ((d.upIsle n (fun i => { i with dem := { i.dem with warn := true } })).cause 4).logNow 0x042 (orgIsle n) (det warn 0)
      else if !reached warn && m.warn then
        (d.upIsle n (fun i => { i with dem := { i.dem with warn := false } })).logNow 0x042 (orgIsle n) (det warn 1)
      else d
    if reached trip then
      let hits := m.hits + 1
      let d := d.upIsle n (fun i => { i with dem := { i.dem with hits := hits } })
      if m.armed ∧ max 1 (d.ilHoldoff n) ≤ hits then
        let t := d.ilRelay n
        let supp := d.ilNever n || t == 0xFFFF
        let d := d.upIsle n (fun i => { i with dem := { i.dem with
          armed := false, tripped := i.dem.tripped || !supp, suppr := supp, tripAt := d.timeTicks, tripEnd := false } })
        let d := d.logNow 0x043 (orgIsle n) (det trip (if supp then 2 else 0))
        if supp then d else d.placeHold { target := t, kind := 1, source := n } 4
      else d
    else d.upIsle n (fun i => { i with dem := { i.dem with hits := 0, armed := true } })

/-- DM_STATUS as the slice leaves it; RECLOSES counts those of the current local day (R139). -/
def Dev.showDemand (d : Dev) (n : Nat) : Dev :=
  d.upIsle n (fun i =>
    let m := i.dem
    let recl := if m.reclDay = d.local_ / 86400 then m.recl else 0
    { i with dem := { m with vStat := b2n m.warn + 2 * b2n m.tripped + 4 * b2n m.short + 8 * b2n m.interr + 16 * b2n m.partl +
                                      32 * b2n m.suppr + 256 * recl } })

/-- The demand slice of an isle (R19, R136 to R142). -/
def Dev.demandSlice (d : Dev) (n warn trip : Nat) : Dev :=
  if d.ilType n = 0 then d
  else
    let d := d.upIsle n (fun i => { i with dem := { i.dem with cur := addSlots i.dem.cur i.carried } })
    let (c, d) := match (d.isle n).dem.due with
      | some due => (if due.cut then (d.isle n).cfgN else (d.isle n).cfgF, d.closeDemand n due)
      | none => ((d.isle n).cfgF, d)
    (d.demandLimits n c.mins c.subint warn trip).showDemand n

/-- DEMAND_SLICE (R137): isle n at offset 208 + n, with the ISLE_ALARM in force. -/
def execDemandSlice (n : Nat) (st : State) : Host.Outcome State Fault Refusal :=
  onUnit (decide (n < 128)) "isle" st (fun d =>
    if d.sliceDue (208 + n) then (d.demandSlice n (d.rWarn n) (d.rTrip n)).sliceDone (209 + n) else d)

/-- Demand control releases its hold at the first frame boundary at which R143's conditions hold. -/
def Dev.reclose (d : Dev) : Dev :=
  d.forEach ((List.range 128).filter (fun n => (d.isle n).dem.tripped)) (fun n d =>
    let m := (d.isle n).dem
    let day := d.local_ / 86400
    let recl := if m.reclDay = day then m.recl else 0
    let delay := d.ilRecDelay n
    if m.tripEnd && decide (delay ≠ 0) && decide (m.tripAt + 960000 * delay ≤ d.timeTicks) && decide (recl < d.ilRecMax n) then
      let d := d.upIsle n (fun i => { i with dem := { i.dem with tripped := false, recl := recl + 1, reclDay := day } })
      (d.releaseHolds (d.ilRelay n) (fun h => h.kind == 1 && h.source == n)).logNow 0x044 (orgIsle n) []
    else d)

/-! ## Profile slice (R144 to R146) -/

/-- A record's bytes (R145). -/
def ProfRec.bytes (r : ProfRec) : List Byte :=
  leBytes 4 r.seq ++ leBytes 4 r.fin ++ leBytes 3 r.ch0 ++ leBytes 3 r.ch1 ++ leBytes 2 r.flags

/-- The isles with a profile, ascending, and the tiles of each (R146). -/
def Dev.profIsles (d : Dev) : List Nat :=
  (List.range 128).filter (fun n => d.ilType n != 0 && d.ilProfile n != 0)
def Dev.profTiles (d : Dev) : Nat := if d.profIsles.isEmpty then 0 else d.regionSize 17 / 1024 / d.profIsles.length

/-- The address of the record with a SEQ of an isle: 62 records behind the header of each tile (R146). -/
def Dev.profAddr (d : Dev) (n seq : Nat) : Nat :=
  let i := (d.profIsles.findIdx? (fun x => x == n)).getD 0
  d.regionBase 17 + 1024 * (d.profTiles * i + (seq / 62) % max 1 d.profTiles) + 32 + 16 * (seq % 62)

/-- Place a record: the oldest tile goes when a new one opens (R146). Answers what the journal is to write. -/
def Dev.putProfile (d : Dev) (n : Nat) (r : ProfRec) : List (Nat × List Byte) × Dev :=
  let s := d.profTiles
  let d := d.upIsle n (fun i =>
    let kept := i.prof.held.filter (fun x => decide (r.seq / 62 < x.seq / 62 + s ∨ r.seq < x.seq))
    { i with prof := { i.prof with held := kept ++ [r], seq := (r.seq + 1) % 2 ^ 32 } })
  let hdr := if r.seq % 62 = 0 then
      [(d.profAddr n r.seq - 32, [byteOf n, 0#8, 0#8, 0#8] ++ leBytes 4 r.seq ++ List.replicate 24 0#8)] else []
  if s = 0 then ([], d) else (hdr ++ [(d.profAddr n r.seq, r.bytes)], d)

/-- Writes of one page that follow each other join. -/
def joinPages : List (Nat × List Byte) → List (Nat × List Byte)
  | (a, x) :: t =>
    match joinPages t with
    | (b, y) :: u => if b = a + x.length ∧ b / 256 = a / 256 then (a, x ++ y) :: u else (a, x) :: (b, y) :: u
    | [] => [(a, x)]
  | [] => []

/-- The records that one profile slice queues, in transactions of up to 17 pages (09_store R221). -/
def Dev.journalRecords (d : Dev) (l : List (Nat × List Byte)) : Dev :=
  let ps := joinPages l
  (List.range (cdiv ps.length 17)).foldl (fun d i => d.journal ((ps.drop (17 * i)).take 17) none) d

/-- The profile slice of an isle: frame F's quanta and flags enter the open interval; recorded ends form records. -/
def Dev.profileSlice (d : Dev) (n : Nat) : Dev :=
  if d.ilType n = 0 ∨ profMin (d.ilProfile n) = 0 then d
  else
    let i := d.isle n
    let q (j : Nat) : Nat := tabGet 0 i.quanta (d.ilChan n j)
    let fl := flagAt 4 (bitOf i.status 3) ||| flagAt 5 (bitOf i.status 1 || bitOf i.status 2) |||
      flagAt 7 (bitOf i.status 10) ||| flagAt 11 i.dem.tripped
    let d := d.upIsle n (fun i => { i with prof := { i.prof with
      q0 := i.prof.q0 + q 0, q1 := i.prof.q1 + q 1, flags := i.prof.flags ||| fl, due := [] } })
    let (ps, d) := i.prof.due.foldl (fun (x : List (Nat × List Byte) × Dev) (fin, flags, gap) =>
      let d := x.2
      let p := (d.isle n).prof
      let late := (match p.mark with | some m => decide (fin ≤ m) | none => false) || !d.clk.set
      let st := flagAt 2 late
      let top := 2 ^ 24 - 1
      let r : ProfRec := if gap ≠ 0 then
          { seq := p.seq, fin := fin, ch0 := min top gap, ch1 := 0, flags := flags ||| st }
        else
          { seq := p.seq, fin := fin, ch0 := min top p.q0, ch1 := min top p.q1,
            flags := flags ||| p.flags ||| st ||| flagAt 6 (decide (top < p.q0 ∨ top < p.q1)) ||| (256 * (d.isle n).cfgF.tariff) }
      let d := d.upIsle n (fun i => { i with prof := { i.prof with
        q0 := if gap = 0 then 0 else i.prof.q0, q1 := if gap = 0 then 0 else i.prof.q1,
        flags := if gap = 0 then 0 else i.prof.flags, mark := if late then i.prof.mark else none } })
      let (l, d) := d.putProfile n r
      (x.1 ++ l, d)) ([], d)
    d.journalRecords ps

/-- PROFILE_SLICE (R144): isle n at offset 480 + n. -/
def execProfileSlice (n : Nat) (st : State) : Host.Outcome State Fault Refusal :=
  onUnit (decide (n < 128)) "isle" st (fun d =>
    if d.sliceDue (480 + n) then (d.profileSlice n).sliceDone (481 + n) else d)

/-! ## Billing close slice (R149, R150) -/

/-- One register pair as the billing view shows it (R130). -/
def regWords (regs : Tab BReg) (t q : Nat) : Nat × Nat :=
  let x := tabGet { r := 0, w := 0 } regs (16 * t + q)
  (x.r % 2 ^ 32, (x.r / 2 ^ 32) % 2 ^ 16 + 65536 * x.w)

/-- The 0x480 bytes of nine tariff blocks. -/
def regBlock (regs : Tab BReg) : List Byte :=
  (List.range 9).flatMap (fun t => (List.range 16).flatMap (fun q =>
    let (lo, hi) := if q < 12 then regWords regs t q else (0, 0)
    leBytes 4 lo ++ leBytes 4 hi))

/-- The 0xD8 bytes of the maximum-demand table. -/
def maxBlock (m : Tab (Nat × Nat)) : List Byte :=
  (List.range 9).flatMap (fun t => (List.range 3).flatMap (fun j =>
    let x := tabGet (0, 0) m (4 * t + j)
    leBytes 4 x.1 ++ leBytes 4 x.2))

/-- The snapshot view's bytes 0x000 to 0x5D7 (R150). -/
def Snapshot.bytes (s : Snapshot) : List Byte :=
  leBytes 4 s.close ++ leBytes 4 s.localS ++ leBytes 4 s.period ++ leBytes 4 s.flags ++ List.replicate 0x70 0#8 ++
  regBlock s.regs ++ maxBlock s.max

/-- Take the snapshot of a recorded close (R149). -/
def Dev.snapshot (d : Dev) (n : Nat) (c : CloseRec) (late : Bool) : Dev :=
  let i := d.isle n
  let s : Snapshot :=
    { close := c.secs, tick := c.tick, localS := c.localS, period := i.period,
      flags := 1 + flagAt 1 c.manual + flagAt 2 (c.late || late) + flagAt 3 i.pStep + flagAt 4 i.pFail,
      regs := i.regs, max := i.dem.max }
  let d := d.upIsle n (fun i =>
    { i with snaps := (s :: i.snaps).take 24, period := (i.period + 1) % 2 ^ 32, pStep := false, pFail := false,
             dem := { i.dem with max := [] } })
  let k := 24 * n + s.period % 24
  d.twWrite 15 (2 * k) k [s.bytes.take 1008, s.bytes.drop 1008]

/-- The billing slice of an isle. -/
def Dev.billingSlice (d : Dev) (n : Nat) (late : Bool) : Dev :=
  let l := (d.isle n).closes
  let d := if l.isEmpty then d else d.upIsle n (fun i => { i with closes := [] })
  l.foldl (fun d c => d.snapshot n c late) d

/-- BILLING_CLOSE_SLICE (R149): isle n at offset 608 + n; the open offsets follow the last. -/
def execBillingCloseSlice (n : Nat) (st : State) : Host.Outcome State Fault Refusal :=
  onUnit (decide (n < 128)) "isle" st (fun d =>
    if d.sliceDue (608 + n) then
      let d := (d.billingSlice n false).sliceDone (609 + n)
      if n = 127 then d.mapRun (fun r => { r with open_ := false }) else d
    else d)

/-! ## Time commands (R151, R152) -/

/-- SLEW_END (R13): the correction is complete; the ratio returns to nominal and the job ends. -/
def execSlewEnd (st : State) : Host.Outcome State Fault Refusal :=
  .next (st.onDev (fun d =>
    match d.clk.slew with
    | some w => if w.total ≤ w.made then (d.mapClk (fun c => { c with slew := none })).timeDone .done else d
    | none => d))

/-- The start of a TIME_SET job (R151, R398): range, the earlier one's end, and the correction. -/
def Dev.startTimeSet (d : Dev) (j : Job) : Dev :=
  let mode := u8 j.args 0
  let delta := sext 64 (u64 j.args 1)
  let top : Int := (2 ^ 32 * 16000 : Nat)
  let tgt : Int := if mode = 1 then (d.timeTicks : Int) - d.off + (if d.off = 0 then 0 else 3200) + 3200 * stepFrames delta
                   else (d.timeTicks : Int) + delta
  if 1 < mode ∨ tgt < 0 ∨ top ≤ tgt ∨ (mode = 0 ∧ (160000 < delta.natAbs ∨ d.clk.set = false)) then d.finish j.num .range 0 []
  else
    let d := match d.link.jobs.find? (fun x => x.op == 0x10 && decide (x.phase = .running) && x.fin.isNone && x.num != j.num) with
      | some x => d.endTimeJob x.num .aborted
      | none => d
    if mode = 1 then d.mapClk (fun c => { c with step := some delta, slew := none })
    else if delta = 0 then (d.mapClk (fun c => { c with step := none, slew := none })).finish j.num .done 0 []
    else d.mapClk (fun c => { c with step := none, slew := some { advance := decide (0 < delta), total := (delta.natAbs : Rat), ran := 0 } })

/-- TIME_SET (R151, opcode 0x0010). -/
def execTimeSet (l : Link) (args : List Byte) (st : State) : Host.Outcome State Fault Refusal :=
  .next (st.onDev (fun d => d.execJob l 0x10 args (args.length == 9) true true))

/-- OFFSET_SET (R152, opcode 0x0011): checks, then the new current offset for the next frame boundary and the
schedule. -/
def execOffsetSet (l : Link) (args : List Byte) (st : State) : Host.Outcome State Fault Refusal :=
  .next (st.onDev (fun d =>
    let k := u8 args 2
    d.exec l 0x11 args (decide (3 ≤ args.length) && args.length == 3 + 6 * k) true true (fun _ d =>
      let ok (o : Int) : Bool := decide (-720 ≤ o ∧ o ≤ 840 ∧ o % 15 = 0)
      let cur := sext 16 (u16 args 0)
      let ch := (List.range k).map (fun i => (u32 args (3 + 6 * i), sext 16 (u16 args (7 + 6 * i))))
      if k ≤ 4 ∧ ok cur ∧ ch.all (fun x => ok x.2) ∧ ascending (d.clk.secs :: ch.map (fun x => x.1)) then
        (.done, [], (d.mapClk (fun c => { c with newOff := some cur, sched := ch })).saveTimeRec)
      else (.range, [], d))))

/-- CLOSE_NOW (R148, opcode 0x001B): a manual close at the next frame boundary for a set of isles. -/
def execCloseNow (l : Link) (args : List Byte) (st : State) : Host.Outcome State Fault Refusal :=
  .next (st.onDev (fun d => d.exec l 0x1B args (args.length == 16) true true (fun _ d =>
    (.done, [], d.mapLink (fun k => { k with closeNow := k.closeNow ||| leVal args })))))

/-- CAL_LOAD (R132, opcode 0x0018). -/
def execCalLoad (l : Link) (args : List Byte) (st : State) : Host.Outcome State Fault Refusal :=
  .next (st.onDev (fun d => d.execJob l 0x18 args (args.length == 1025) true true))

/-- The start of a CAL_LOAD job: the checks of R133, then a journaled write of the passive tile. -/
def Dev.startCalLoad (d : Dev) (j : Job) : Dev :=
  let p := u8 j.args 0
  let b := j.args.drop 1
  if 3 < p ∨ calOk b (d.plTariffs p) = false then d.finish j.num .range 0 []
  else (d.upJob j.num (fun x => { x with stage := 4, word := 0, ready := d.clk.runTick })).journalSpan (d.calAddr p true) b (some j.num)

/-- CAL_CANCEL (R132, opcode 0x0019): the plan's passive calendar becomes empty. -/
def execCalCancel (l : Link) (args : List Byte) (st : State) : Host.Outcome State Fault Refusal :=
  .next (st.onDev (fun d => d.exec l 0x19 args (args.length == 1) true true (fun _ d =>
    let p := u8 args 0
    if 3 < p then (.range, [], d) else (.done, [], d.holdPassive p false))))

/-- CAL_READ (R132, opcode 0x001A): the active or passive block, empty for an empty calendar. -/
def execCalRead (l : Link) (args : List Byte) (st : State) : Host.Outcome State Fault Refusal :=
  .next (st.onDev (fun d => d.exec l 0x1A args (args.length == 2) false true (fun _ d =>
    let p := u8 args 0
    let w := u8 args 1
    if 3 < p ∨ 1 < w then (.range, [], d) else (.done, (d.calendar p (w == 1)).getD [], d))))

/-- PROFILE_READ (R147, opcode 0x0021). -/
def execProfileRead (l : Link) (args : List Byte) (st : State) : Host.Outcome State Fault Refusal :=
  .next (st.onDev (fun d => d.execJob l 0x21 args (args.length == 7) false true))

/-- The result of a PROFILE_READ job (R147, 09 R209): status, result word and result. -/
def Dev.profileResult (d : Dev) (args : List Byte) : Status × Nat × List Byte × Dev :=
  let n := u8 args 0
  let first := u32 args 1
  let count := u16 args 5
  if 128 ≤ n ∨ 256 < count ∨ n ∉ d.profIsles then (.range, 0, [], d)
  else
    let held := (d.isle n).prof.held.filter (fun r => decide (first ≤ r.seq))
    let start := (held.head?.map (fun r => r.seq)).getD (d.isle n).prof.seq
    let want := held.take count
    let tile (r : ProfRec) : Nat := d.profAddr n r.seq / 1024
    let good := want.takeWhile (fun r => decide (d.tileRes (tile r) = .good))
    let d := d.forEach (good.map tile).dedup (fun t d => (d.verifyTile t 1 0 (orgIsle n)).2)
    match want.drop good.length with
    | [] => (.done, start, good.flatMap ProfRec.bytes, d)
    | bad :: _ =>
      let (_, d) := d.verifyTile (tile bad) 1 0 (orgIsle n)
      (.tileBad, bad.seq / 62 * 62, good.flatMap ProfRec.bytes, d)

end Sys2Proof.Machine
end

