-- ==== Sys2Proof/Machine/ImageOps.lean ====
section
/-! DEFINITION. Images as bytes: digests and signatures (08_structure_image R184 to R187), the rejection checks
(R191) and splice records (R193 to R195). -/

namespace Sys2Proof.Machine

/-! ## Slots (R188) -/

/-- Store address of a slot, 0 = A, 1 = B. -/
def slotBase (s : Nat) : Nat := 0x200000 * s

/-- The image bytes of a slot: LENGTH bytes behind a right MAGIC, else the header bytes alone. -/
def Dev.slotBytes (d : Dev) (s : Nat) : List Byte :=
  let h := memRead d.store.mram (slotBase s) 512
  let n := u32 h 8
  if h.take 4 = ascii "TLNI" ∧ n ≤ 1310720 then memRead d.store.mram (slotBase s) n else h

/-- The tiles of a slot that a check or a boot reads: the image's and the splice log's. -/
def Dev.slotTiles (d : Dev) (s : Nat) : List Nat :=
  let n := min 1310720 (u32 (memRead d.store.mram (slotBase s) 512) 8)
  (List.range (cdiv n 1024)).map (fun i => slotBase s / 1024 + i) ++
  (List.range 768).map (fun i => slotBase s / 1024 + 1280 + i)

/-! ## Digests (R184, R185) -/

/-- The bytes of a field of an image. -/
def imgField (b : List Byte) (code i o n : Nat) : List Byte := sliceB (entry b code i) o n

/-- A byte with some bits cleared. -/
def maskByte (l : List Byte) (o m : Nat) : List Byte := [byteOf (u8 l o &&& m)]

/-- The DISPLAY section's bytes from an offset. -/
def imgDisplay (b : List Byte) (o n : Nat) : List Byte := sliceB b (secOff b 9 + o) n

/-- The legal fields, in the order of R184. -/
def legalBytes (b : List Byte) : List Byte :=
  (List.range 16).flatMap (fun s => imgField b 2 s 4 5 ++ imgField b 2 s 0x24 8) ++
  (List.range 192).flatMap (fun e => let x := entry b 3 e
    maskByte x 5 0x03 ++ sliceB x 8 5 ++ sliceB x 0x0E 2 ++ sliceB x 0x14 24) ++
  (List.range 128).flatMap (fun n => let x := entry b 4 n
    sliceB x 0 1 ++ maskByte x 1 0x01 ++ sliceB x 2 1 ++ sliceB x 4 8) ++
  imgDisplay b 0x10 256 ++ imgDisplay b 0x110 520

/-- The lanes that a strait, or a PHASE, NEUTRAL or RTD_PAIR element of an image uses. -/
def usedLanes (b : List Byte) : List Nat :=
  ((List.range 16).map (fun s => u8 (entry b 2 s) 0) ++
   (List.range 192).flatMap (fun e =>
     let x := entry b 3 e
     if 1 ≤ u8 x 0 ∧ u8 x 0 ≤ 3 then [u8 x 2, u8 x 3] else [])).filter (fun l => decide (l < 192))

/-- The G fields, in section order and entry order (R184). -/
def bindBytes (b : List Byte) : List Byte :=
  let used := usedLanes b
  ((List.range 192).filter (fun l => decide (l ∈ used))).flatMap (fun l => entry b 1 l) ++
  (List.range 16).flatMap (fun s => let x := entry b 2 s
    sliceB x 0 1 ++ maskByte x 1 0x01) ++
  (List.range 192).flatMap (fun e => let x := entry b 3 e
    sliceB x 0 5 ++ maskByte x 5 0x0C ++ sliceB x 0x10 4) ++
  (List.range 128).flatMap (fun n => let x := entry b 4 n
    maskByte x 1 0x0A ++ sliceB x 0x1C 8 ++ sliceB x 0x2E 3)

def legalDigestOf (b : List Byte) : List Byte := Config.sha256 (legalBytes b)
def bindDigestOf (b : List Byte) : List Byte := Config.sha256 (bindBytes b)
/-- The base digest: SHA-256 of image bytes 0 to LENGTH - 65 (R185). -/
def baseDigestOf (b : List Byte) : List Byte := Config.sha256 (b.take (u32 b 8 - 64))

/-- The legal statement of R185. -/
def legalStatement (b : List Byte) : List Byte :=
  ascii "TLNL" ++ sliceB b 4 2 ++ [0#8, 0#8] ++ sliceB b 0x0C 4 ++ List.replicate 20 0#8 ++ sliceB b 0x20 32

/-! ## Rejection (R191) -/

/-- Reason, section code and entry index of a failed check. -/
abbrev Reject := Nat × Nat × Nat

/-- The first of entries 0 to n - 1 that breaks a rule. -/
def firstBad (reason sec n : Nat) (ok : Nat → Bool) : Option Reject :=
  ((List.range n).find? (fun i => !ok i)).map (fun i => (reason, sec, i))

/-- A rule of the whole image. -/
def badUnless (reason sec : Nat) (ok : Bool) : Option Reject := if ok then none else some (reason, sec, 0)

/-- The first of several checks that fails. -/
def firstOf (l : List (Option Reject)) : Option Reject := l.findSome? id

/-- Bytes of a list are all zero. -/
def zeros (l : List Byte) (o n : Nat) : Bool := (sliceB l o n).all (fun x => x == 0#8)

/-- Check 1 (R174, R175, R177). -/
def headerOk (b : List Byte) : Bool :=
  let len := u32 b 8
  let want (c : Nat) : Nat :=
    nth [0, 200, 16, 192, 128, 4, 32, 32, 1 + u16 (entry b 8 0) 2, secSize b 9, 8, 64, 1 + u16 (entry b 12 0) 0] c 0
  let secs := (List.range 12).map (· + 1)
  decide (b.take 4 = ascii "TLNI") && u16 b 4 == 1 && u16 b 6 == 512 && decide (len % 64 = 0) &&
  decide (640 ≤ len ∧ len ≤ 1310720) && u32 b 0x18 == 12 &&
  secs.all (fun c =>
    let o := 0xA0 + 16 * (c - 1)
    u8 b o == c && u8 b (o + 1) == 1 && u16 b (o + 2) == entSize c && decide (secOff b c % 64 = 0) &&
    decide (512 ≤ secOff b c ∧ secOff b c + secSize b c ≤ len - 128) && decide (entSize c * secCount b c ≤ secSize b c) &&
    secCount b c == want c) &&
  secs.all (fun x => secs.all (fun y => decide (x = y) || decide (secSize b x = 0 ∨ secSize b y = 0) ||
    decide (secOff b x + secSize b x ≤ secOff b y ∨ secOff b y + secSize b y ≤ secOff b x)))

/-- Isles of types 1 to 4 of an image. -/
def elecIsles (b : List Byte) : List Nat :=
  (List.range 128).filter (fun n => let t := u8 (entry b 4 n) 0; decide (1 ≤ t ∧ t ≤ 4))

/-- Responses allowed for a mode (R33). -/
def respAllowed (mode r : Nat) : Bool :=
  if mode = 1 ∨ mode = 2 then decide (r ≤ 6) else if mode = 3 then decide (7 ≤ r ∧ r ≤ 12)
  else if mode = 4 then r == 13 else if mode = 5 then decide (13 ≤ r) else true

/-- Check 7: a LANE entry (R31, R33, R179). -/
def laneEntryOk (n w : Nat) : Bool :=
  if n < 192 then
    decide (w < 2 ^ 26) && decide (laneMode w ≤ 5) && decide (laneGain w ≤ 5) && respAllowed (laneMode w) (laneResp w)
  else w == 0 || w == 2 ^ 26

def laneOf (b : List Byte) (n : Nat) : Nat := u32 (entry b 1 n) 0

/-- Check 8: a STRAIT entry (R59, R101, R103, R180). -/
def straitEntryOk (b : List Byte) (s : Nat) : Bool :=
  let x := entry b 2 s
  let lane := u8 x 0
  let lvl (o : Nat) : Nat := u16 x o
  zeros x 9 3 && zeros x 0x2C 20 && decide (u8 x 1 < 8) && decide (u16 x 2 < 4096) && decide (u8 x 8 < 64) && (lane == 0xFF ||
    (decide (lane < 192) && laneMode (laneOf b lane) == 1 && decide (u32 x 4 ≠ 0) &&
     (List.range 16).all (fun t => t == s || u8 (entry b 2 t) 0 != lane) &&
     (List.range 192).all (fun e => let y := entry b 3 e
       u8 y 0 == 0 || (u8 y 2 != lane && u8 y 3 != lane)) &&
     decide (u8 x 0x18 ≤ 11) && (List.range (u8 x 0x18)).all (fun i => decide (u8 x (0x19 + i) < 192)) &&
     decide (lvl 0x14 + lvl 0x16 < lvl 0x10) && decide (lvl 0x10 + lvl 0x16 + lvl 0x16 < lvl 0x12)))

/-- At most 4 straits have capture enabled (R103). -/
def captureOk (b : List Byte) : Bool :=
  decide (((List.range 16).filter (fun s => u8 (entry b 2 s) 0 != 0xFF && bitOf (u8 (entry b 2 s) 1) 2)).length ≤ 4)

/-- Check 9: an ELEMENT entry (R34, R65 to R67, R181). -/
def elemEntryOk (b : List Byte) (e : Nat) : Bool :=
  let x := entry b 3 e
  let k := u8 x 0
  let isle := u8 x 1
  let li := u8 x 2
  let l2 := u8 x 3
  let st := u8 x 4
  let mode (l : Nat) : Nat := if l < 192 then laneMode (laneOf b l) else 6
  let used := [li, l2].filter (fun l => l != 0xFF)
  decide (k ≤ 4) && decide (u8 x 5 < 8) && zeros x 6 2 && decide (u8 x 0x0C < 64) && zeros x 0x0D 1 && zeros x 0x2C 20 &&
  decide (-4096 ≤ sext 16 (u16 x 0x0E) ∧ sext 16 (u16 x 0x0E) ≤ 4096) &&
  (decide (isle < 128) || isle == 0xFF) &&
  (if k = 0 then isle == 0xFF
   else isle != 0xFF && used.all (fun l => decide (l < 192)) && !(li == l2 && li != 0xFF) &&
     (List.range 192).all (fun f => let y := entry b 3 f
       f == e || u8 y 0 == 0 || used.all (fun l => u8 y 2 != l && u8 y 3 != l)) &&
     (if k = 1 ∨ k = 2 then (mode li == 2 || mode li == 3) && l2 == 0xFF && decide (u32 x 8 ≠ 0)
      else if k = 3 then li != 0xFF && used.all (fun l => mode l == 4)
      else used.isEmpty && decide (u16 x 0x10 < 4096) && decide (u16 x 0x12 ≤ 11)) &&
     (k != 1 || (decide (st < 16) && u8 (entry b 2 st) 0 != 0xFF &&
       respGroup (laneResp (laneOf b li)) == respGroup (laneResp (laneOf b (u8 (entry b 2 st) 0))))))

/-- A RELAY_TARGET names no absent output (R278). -/
def relayTargetOk (b : List Byte) (t : Nat) : Bool :=
  if t = 0xFFFF then true
  else if bitOf t 15 then decide (t % 0x8000 < 4096)
  else decide (t < 64) && u8 (entry b 6 (targetPort t)) 0 == 4 &&
    !(targetOut t == 1 && u8 (entry b 6 (targetPort t)) 16 == 1)

/-- The field ranges of an ISLE entry (R89, R90, R118, R143, R144, R182). -/
def isleFieldsOk (b : List Byte) (x : List Byte) : Bool :=
  let t := u8 x 0
  decide (t ≤ 6) && decide (u8 x 1 < 16) && decide (u8 x 2 < 4) && decide (u8 x 3 < 4) && decide (u32 x 4 < 2 ^ 24) &&
  decide (u32 x 8 < 2 ^ 24) && demandOk (u8 x 0x0C + 8 * u8 x 0x0D) && decide (u8 x 0x0C < 8 ∧ u8 x 0x0D < 16) &&
  decide (u8 x 0x0E ≤ 5) && decide (u8 x 0x15 ≤ 15) && decide (u8 x 0x16 ≤ 11 ∧ u8 x 0x17 ≤ 11) &&
  (t == 0 || relayTargetOk b (u16 x 0x18)) && zeros x 0x1A 2 && decide (u8 x 0x1C ≤ 2 ∧ u8 x 0x1D ≤ 31 ∧ u8 x 0x1E ≤ 3) &&
  decide (u8 x 0x1F ≤ 2) && decide (u8 x 0x30 ≤ 1) && zeros x 0x31 15 &&
  decide (10 ≤ u16 x 0x2E ∧ u16 x 0x2E ≤ 1000)

/-- The elements of an isle and its sources fit its type (R81, R82, R107). -/
def isleShapeOk (b : List Byte) (n : Nat) : Bool :=
  let x := entry b 4 n
  let t := u8 x 0
  let els := ((List.range 192).map (fun e => entry b 3 e)).filter (fun y => u8 y 0 != 0 && u8 y 1 == n)
  let kind (k : Nat) := els.filter (fun y => u8 y 0 == k)
  let ph := kind 1
  let sts := ph.map (fun y => u8 y 4)
  let grid := sts.map (fun s => bitOf (u8 (entry b 2 s) 1) 0)
  let elec (p neu : Nat) : Bool :=
    decide (ph.length = p) && decide ((kind 2).length ≤ neu) && decide (els.length = ph.length + (kind 2).length) &&
    decide (sts.Nodup) && decide (grid.dedup.length ≤ 1)
  let vol : Bool :=
    if u8 x 0x1C = 1 then u8 (entry b 6 (u8 x 0x1D)) 0 == 3 &&
      (List.range 128).all (fun m => let y := entry b 4 m
        m == n || !(u8 y 0 == 5 || u8 y 0 == 6) || u8 y 0x1C != 1 || u8 y 0x1D != u8 x 0x1D || u8 y 0x1E != u8 x 0x1E)
    else u8 x 0x1C == 2
  let rtd := kind 3
  match t with
  | 0 => els.isEmpty
  | 1 => elec 1 0
  | 2 => elec 2 1
  | 3 => elec 2 0 && bitOf (u8 x 1) 1
  | 4 => elec 3 1
  | 5 => els.isEmpty && vol && u8 x 0x1F == 0
  | _ => vol && decide (ph.length = 0 ∧ (kind 2).length = 0) &&
    (if u8 x 0x1F = 1 then (kind 4).isEmpty &&
       ((decide (rtd.length = 1) && rtd.all (fun y => u8 y 3 != 0xFF)) ||
        (decide (rtd.length = 2) && rtd.all (fun y => u8 y 3 == 0xFF)))
     else u8 x 0x1F == 2 && rtd.isEmpty && decide ((kind 4).length ≤ 2))

/-- Check 10: an ISLE entry. -/
def isleEntryOk (b : List Byte) (n : Nat) : Bool := isleFieldsOk b (entry b 4 n) && isleShapeOk b n

/-- Check 11: a PLAN entry (R183). -/
def planEntryOk (x : List Byte) : Bool :=
  decide (1 ≤ u8 x 0 ∧ u8 x 0 ≤ 8 ∧ u8 x 1 < u8 x 0) && zeros x 2 14

/-- The module parameters of a PORT entry (R268, R273, R277, R278, R281). -/
def portParamOk (m : Nat) (p : List Byte) : Bool :=
  if m = 1 then
    decide (u16 p 0 ≤ 4000 ∧ u8 p 2 ≤ 1 ∧ u8 p 3 ≤ 2 ∧ 1 ≤ u8 p 4 ∧ u8 p 4 ≤ 8 ∧ u8 p 5 < 4 ∧ u16 p 6 ≤ 1000) && zeros p 8 40
  else if m = 2 then
    decide (u16 p 0 ≤ 4000 ∧ u8 p 2 ≤ 1 ∧ u8 p 3 ≤ 2 ∧ u8 p 5 ≤ 3 ∧ u8 p 10 < 4) && zeros p 11 5 &&
    (if u8 p 2 = 1 then decide (1 ≤ u8 p 4 ∧ u8 p 4 ≤ 247) && zeros p 32 16
     else decide (10 ≤ u16 p 6 ∧ u16 p 6 ≤ 2000) && (List.range 4).all (fun i =>
       let y := sliceB p (16 + 8 * i) 8
       u8 y 7 == 0 && (u8 y 0 == 0 || decide (u8 y 0 ≤ 11 ∧ (u8 y 1 = 3 ∨ u8 y 1 = 4) ∧ (u8 y 4 = 1 ∨ u8 y 4 = 2 ∨ u8 y 4 = 4) ∧
         u8 y 5 % 128 ≤ 1))))
  else if m = 3 then
    (List.range 4).all (fun i =>
      decide (u8 p (8 * i) < 4) && zeros p (8 * i + 3) 5 &&
      (!bitOf (u8 p (8 * i)) 0 || decide (2 ≤ u8 p (8 * i + 1) ∧ 2 ≤ u8 p (8 * i + 2)))) && zeros p 32 16
  else if m = 4 then
    decide (u8 p 0 ≤ 1 ∧ u8 p 1 < 64 ∧ 10 ≤ u8 p 2 ∧ 10 ≤ u16 p 4 ∧ u16 p 4 ≤ 1000) && zeros p 3 1 && zeros p 6 42
  else if m = 5 then decide (u8 p 2 ≤ 7 ∧ u8 p 3 ≤ 5) && zeros p 36 12
  else zeros p 0 48

/-- Check 11: a PORT entry (R183, R262, R267). -/
def portEntryOk (x : List Byte) : Bool :=
  let m := u8 x 0
  decide (m ≤ 5) && u8 x 1 == (if m = 0 then 0 else 1) && zeros x 2 2 && zeros x 14 2 &&
  (if m = 0 ∨ m = 3 then u16 x 12 == 0 else decide (1 ≤ u16 x 12 ∧ u16 x 12 ≤ 7)) && portParamOk m (sliceB x 16 48)

/-- Check 11: a PARTNER_POLICY entry (R183). -/
def policyEntryOk (x : List Byte) : Bool := decide (u8 x 0 ≤ 1) && zeros x 6 2 && decide (4 ≤ u8 x 1)

/-- Check 11: EVENT_POLICY (R183, R308). -/
def eventEntryOk (b : List Byte) (i : Nat) : Bool :=
  let x := entry b 8 i
  if i = 0 then decide (1 ≤ u8 x 0 ∧ u8 x 0 ≤ 60 ∧ 1 ≤ u8 x 1 ∧ u8 x 1 ≤ 32) && zeros x 4 12
  else
    let s := u8 x 0
    let hi := u8 x 1
    srcExists s && (hi == 0xFF || (decide (0x20 ≤ s) && decide (hi < 128))) && decide (u8 x 3 < 64) && decide (u8 x 4 ≤ 60) &&
    zeros x 5 3 && !(bitOf (u8 x 2) 7 && decide (u8 x 3 ≤ 1)) && bitOf (u8 (entry b 11 (u8 x 3)) 1) 7 &&
    (List.range i).all (fun j => j == 0 || u16 (entry b 8 j) 0 != u16 x 0)

/-- A quantity of an isle type (R125). -/
def typeHas (t q : Nat) : Bool :=
  if 1 ≤ t ∧ t ≤ 4 then decide (q ≤ 11) else if t = 5 then q == 0 || q == 9
  else if t = 6 then q == 0 || q == 1 || q == 9 else false

/-- A scroll list (R183, R361): its header and items fit. -/
def listOk (b : List Byte) (l : List Byte) : Bool :=
  let c := u8 l 0
  decide (c ≤ 64) && zeros l 2 6 && (List.range 64).all (fun i => zeros l (12 + 8 * i) 4) && (List.range c).all (fun i =>
    let x := sliceB l (8 + 8 * i) 8
    decide (u8 x 3 ≤ 2 ∧ u8 x 2 ≤ 8) &&
    (u8 x 3 == 2 || (decide (u8 x 0 < 128) && typeHas (u8 (entry b 4 (u8 x 0)) 0) (u8 x 1))))

/-- Cells that a list item's value needs (R361). -/
def itemCells (b : List Byte) (x : List Byte) : Nat :=
  if u8 x 3 = 2 then 14 else if u8 x 3 = 1 then 11 else 10 + u8 (entry b 4 (u8 x 0)) 2

/-- Cells that the widest item of a list needs. -/
def listCells (b : List Byte) (l : List Byte) : Nat :=
  ((List.range (u8 l 0)).map (fun i => itemCells b (sliceB l (8 + 8 * i) 8))).foldl max 0

/-- Cell width and height of a SIZE (R361). -/
def cellSize (z : Nat) : Nat × Nat := nth [(12, 20), (20, 40), (32, 64)] z (12, 20)

/-- A strip field's box: x, y, width, height. -/
def fieldBox (f : List Byte) : Nat × Nat × Nat × Nat :=
  let (w, h) := cellSize (u8 f 1)
  (u16 f 2, u16 f 4, w * u8 f 8, h)

/-- The strip layout (R361). -/
def stripOk (b : List Byte) : Bool :=
  let fs := ((List.range 16).map (fun i => imgDisplay b (0x10 + 16 * i) 16)).filter (fun f => u8 f 0 != 0)
  let boxes := fs.map fieldBox
  let width := u16 (imgDisplay b 0 2) 0
  let cells := ((List.range 8).map (fun k => listCells b (imgDisplay b (0x110 + 0x208 * k) 520))).foldl max 0
  (List.range 16).all (fun i => let f := imgDisplay b (0x10 + 16 * i) 16
    zeros f 9 7 && decide (u8 f 0 ≤ 6 ∧ u8 f 1 ≤ 2 ∧ u8 f 6 ≤ 3 ∧ u8 f 7 ≤ 3)) &&
  boxes.all (fun (x, y, w, h) => decide (x + w ≤ width ∧ y + h ≤ 96)) &&
  fs.all (fun f => u8 f 0 != 2 || decide (cells ≤ u8 f 8)) &&
  (List.range boxes.length).all (fun i => (List.range i).all (fun j =>
    let (x, y, w, h) := boxes.getD i (0, 0, 0, 0)
    let (x2, y2, w2, h2) := boxes.getD j (0, 0, 0, 0)
    decide (x + w ≤ x2 ∨ x2 + w2 ≤ x ∨ y + h ≤ y2 ∨ y2 + h2 ≤ y)))

/-- The waveform tables (R353, R354). -/
def waveOk (b : List Byte) : Bool :=
  imgDisplay b 0x1153 1 == [0#8] && (List.range 3).all (fun m =>
    let n := u8 (imgDisplay b (0x1150 + m) 1) 0
    decide (1 ≤ n ∧ n ≤ 64) && (imgDisplay b (0x1160 + 0xC00 * m) 0xC00).zipIdx.all (fun (x, i) =>
      (List.range 4).all (fun j =>
        let c := bitsOf x.toNat (2 * j + 1) (2 * j)
        c != 3 && (c == 0 || decide (4 * (i % 16) + j < n)))))

/-- Check 11: DISPLAY (R183, R353, R354, R361). -/
def displayOk (b : List Byte) : Bool :=
  let h := imgDisplay b 0 16
  secSize b 9 == 13664 && decide (u16 h 0 % 4 = 0 ∧ 4 ≤ u16 h 0 ∧ u16 h 0 ≤ 800) &&
  decide (96 ≤ u16 h 2 ∧ u16 h 2 ≤ 480 ∧ 50 ≤ u8 h 4 ∧ u8 h 4 ≤ 85) && u8 h 5 == 4 && zeros h 6 10 &&
  (List.range 8).all (fun k => listOk b (imgDisplay b (0x110 + 0x208 * k) 520)) &&
  decide (u8 (imgDisplay b 0x110 1) 0 ≠ 0) && stripOk b && waveOk b

/-- Check 11: a KEY_POLICY entry (R322, R323, R326). -/
def keyEntryOk (b : List Byte) (k : Nat) : Bool :=
  let x := entry b 11 k
  let us := u8 x 0
  let at_ := u8 x 1
  let pa := u8 x 2
  let la := u8 x 3
  let has (j : Nat) : Bool := bitOf (u8 (entry b 11 j) 1) 7
  let exact (u a p l : Nat) : Bool := decide (us = u ∧ at_ = a ∧ pa = p ∧ la = l)
  decide (us < 32 ∧ pa < 64) && decide (at_ &&& 0x78 = 0) && zeros x 7 1 &&
  (if k = 0 then exact 0x02 0x80 0 0
   else if k = 1 then exact 0x01 0x80 0 1
   else !has k ||
    (decide (us ∈ [1, 2, 4, 8, 16]) && decide (pa < k) &&
     (if k = 2 then exact 0x10 0x80 0 2 else if k = 3 ∨ k = 5 then exact 0x08 0x80 2 0
      else if k = 4 then exact 0x08 0x84 2 0 else us != 4 || bitOf at_ 0) &&
     (if la = 0 then pa == 2 && has 2 else has pa && u8 (entry b 11 pa) 0 == 2) &&
     (!bitOf at_ 0 || decide (leVal (sliceB x 4 3) ≠ 0))))

/-- The cycles per tick of an element kind (R74). -/
def kindCycles (k : Nat) : Nat := nth [8, 384, 160, 48, 32] k 0

/-- Check 12: the tick budget (R17, R74, R176). -/
def budgetOk (b : List Byte) : Bool :=
  let bud (k : Nat) : Nat := u16 b (0x40 + 2 * k)
  bud 0 == 256 + 720 * ((List.range 16).filter (fun s => u8 (entry b 2 s) 0 != 0xFF)).length &&
  (List.range 8).all (fun e =>
    bud (1 + e) == sumN ((List.range 24).map (fun i => kindCycles (u8 (entry b 3 (24 * e + i)) 0)))) &&
  (List.range 48).all (fun k => decide (bud k ≤ 12288))

/-- The baseline the loader computes (10_power R237). -/
def baselineOf (b : List Byte) : Nat :=
  800 + 2 * (((List.range 192).filter (fun l => laneMode (laneOf b l) != 0)).length +
    ((List.range 8).filter (fun f => bitOf (laneOf b (192 + f)) 26)).length)

/-- Class 4 requests of a PORT entry may be long (R240): its longest frame, output change or data block (11_ports_partners
R267, R278, R281). -/
def portLong (x : List Byte) : Bool :=
  let p := sliceB x 16 48
  let chars (n : Nat) : Bool := decide (1600 < cdiv (16000 * 11 * n) (max 1 (u32 x 4)) + u16 p 0)
  let m := u8 x 0
  if m = 1 then chars 17 else if m = 2 then chars (if u8 p 2 = 1 then 255 else 8)
  else if m = 4 then decide (1600 < 16 * u8 p 2) else m == 5

/-- Check 12: DRAW (R237, R240): a cap below a long requester's k. -/
def drawOk (b : List Byte) : Bool :=
  let cap (c : Nat) : Nat := u16 (entry b 10 (c + 1)) 0
  let rtd := ((List.range 192).filter (fun l => laneMode (laneOf b l) == 4)).length
  let fits (c k : Nat) : Bool := cap c == 0 || decide (k ≤ cap c)
  u32 (entry b 10 0) 0 == baselineOf b && (List.range 7).all (fun c => zeros (entry b 10 (c + 1)) 2 2) &&
  fits 5 12 && fits 6 (cdiv rtd 16) &&
  (List.range 32).all (fun p => !portLong (entry b 6 p) || fits 4 (u16 (entry b 6 p) 12))

/-- PROTECT of a region and the host flags it permits (R229, R230). -/
def regionRule (code : Nat) : Option (Nat × Nat) :=
  if code ∈ [1, 2, 17] then some (6, 8) else if code ∈ [3, 8] then some (6, 0) else if code ∈ [4, 5, 11] then some (4, 0)
  else if code ∈ [6, 7, 9, 10] then some (2, 0) else if code ∈ [12, 13, 14, 15] then some (2, 8)
  else if code ∈ [16, 18] then some (0, 24) else if code ∈ [32, 33, 35, 36] then some (1, 0)
  else if code = 34 then some (1, 24) else none

/-- The size rule of a region, in tiles (R230). -/
def regionSizeOk (b : List Byte) (code tiles : Nat) : Bool :=
  let top (l : List Nat) : Nat := (l.getLast?.map (· + 1)).getD 0
  let conf := (List.range 128).filter (fun n => u8 (entry b 4 n) 0 != 0)
  match code with
  | 3 => decide (16 ≤ tiles)
  | 13 => decide (64 ≤ tiles ∧ tiles % 2 = 0)
  | 14 => decide (14 * top (elecIsles b) ≤ tiles)
  | 15 => decide (96 * top conf ≤ tiles)
  | 16 => true
  | 17 => decide (2 * (conf.filter (fun n => u8 (entry b 4 n) 0x0E != 0)).length ≤ tiles)
  | 18 => decide (tiles ≤ 1024)
  | c => ((defaultMap.find? (fun r => r.1 == c)).map (fun r => r.2.2.2 == tiles)).getD false

/-- Check 15: STORE_MAP (R188, R229 to R231); with an image live, against its places of regions 1 to 11. -/
def Dev.storeMapBad (d : Dev) (b : List Byte) : Option Reject :=
  let rs := regionsOf b
  let ok (i : Nat) : Bool :=
    let (c, f, base, z) := rs.getD i (0, 0, 0, 0)
    let sram := bitOf f 0
    let top := if sram then 8 * 2 ^ 20 else 64 * 2 ^ 20
    (match regionRule c with
     | none => false
     | some (must, may) => decide (f % 8 = must) && decide (f ||| (must + may) = must + may)) &&
    decide (base % 1024 = 0 ∧ base + 1024 * z ≤ top) && regionSizeOk b c z &&
    (!d.isLive || !decide (1 ≤ c ∧ c ≤ 11) || (d.region c).any (fun r => r.2.1 == base && r.2.2 == 1024 * z)) &&
    (c != 1 || base == 0) && (c != 2 || base == 0x200000) &&
    (List.range i).all (fun j =>
      let (c2, f2, b2, z2) := rs.getD j (0, 0, 0, 0)
      c != c2 && (bitOf f2 0 != sram || z == 0 || z2 == 0 || decide (base + 1024 * z ≤ b2 ∨ b2 + 1024 * z2 ≤ base)))
  firstOf [badUnless 15 12 (zeros (entry b 12 0) 2 14),
    (firstBad 15 12 rs.length (fun i => ok i && zeros (entry b 12 (i + 1)) 12 4)).map (fun (r, s, i) => (r, s, i + 1)),
    badUnless 15 12 (((List.range 15).map (· + 1) ++ [32, 33, 34, 35, 36]).all (fun c => rs.any (fun r => r.1 == c)))]

/-- Checks 6 to 12 (R4 and the sections). -/
def sectionsBad (b : List Byte) : Option Reject :=
  let isles := elecIsles b
  firstOf [
    badUnless 6 4 (decide (isles.length ≤ 96)),
    firstBad 7 1 200 (fun n => laneEntryOk n (laneOf b n)),
    firstBad 8 2 16 (straitEntryOk b),
    badUnless 8 2 (captureOk b),
    firstBad 9 3 192 (elemEntryOk b),
    firstBad 10 4 128 (isleEntryOk b),
    firstBad 11 5 4 (fun p => planEntryOk (entry b 5 p)),
    firstBad 11 6 32 (fun p => portEntryOk (entry b 6 p)),
    firstBad 11 7 32 (fun p => policyEntryOk (entry b 7 p)),
    firstBad 11 8 (secCount b 8) (eventEntryOk b),
    badUnless 11 9 (displayOk b),
    firstBad 11 11 64 (keyEntryOk b),
    badUnless 11 11 (bitOf (u8 (entry b 11 2) 1) 7 || (List.range 3).all (fun i => !bitOf (u8 (entry b 11 (3 + i)) 1) 7)),
    badUnless 12 0 (budgetOk b),
    badUnless 12 10 (drawOk b)]

/-- The checks of R191 on a slot, in their order; none when every check passes. -/
def Dev.slotBad (d : Dev) (s : Nat) : Option Reject :=
  let b := d.slotBytes s
  let hash := baseDigestOf b
  let len := u32 b 8
  let sealed := !d.sealOpen
  let record := d.liveRecord
  let authOk (k : Option (List Byte)) (h sig : List Byte) : Bool := (k.map (fun pk => Config.ecdsaVerify pk h sig)).getD false
  if !headerOk b then some (1, 0, 0)
  else firstOf [
    badUnless 2 0 (u16 b 0x0C == 0x9192 && decide (u16 b 0x0E ≤ 0xB0)),
    badUnless 3 0 (d.vault.authM.isSome && d.vault.authO.isSome),
    badUnless 4 0 (authOk d.vault.authO hash (sliceB b (len - 64) 64) &&
      (d.slotTiles s).all (fun t => decide (d.tileRes t = .good))),
    badUnless 5 0 (decide (sliceB b 0x20 32 = legalDigestOf b) &&
      authOk d.vault.authM (Config.sha256 (legalStatement b)) (sliceB b (len - 128) 64)),
    sectionsBad b,
    badUnless 13 0 (!sealed || (record.map (fun r => decide (r.1 = legalDigestOf b))).getD true),
    badUnless 14 0 (!sealed || (record.map (fun r => decide (r.2 = bindDigestOf b))).getD true),
    d.storeMapBad b]

/-- The status of a rejection (R191). -/
def rejectStatus (r : Reject) : Status := if r.1 = 13 ∨ r.1 = 14 then .sealed else .badImage

/-- The result word of a rejection (R190). -/
def rejectWord (r : Reject) : Nat := r.1 + 256 * r.2.1 + 65536 * r.2.2

/-! ## Splice records (R193) -/

def spSeq (r : List Byte) : Nat := u32 r 0x14
def spSection (r : List Byte) : Nat := u8 r 0x18
def spIndex (r : List Byte) : Nat := u16 r 0x1A
def spBase (r : List Byte) : List Byte := sliceB r 0x20 32
/-- The length of a section's spliced entry, 0 for a section no splice may touch. -/
def spLength (sec : Nat) : Nat := if sec = 1 then 4 else if sec = 4 ∨ sec = 6 then 64 else if sec = 9 then 520 else 0
def spEntry (r : List Byte) : List Byte := sliceB r 0x60 (spLength (spSection r))
/-- Two records name one target. -/
def spSame (r q : List Byte) : Bool := spSection r == spSection q && spIndex r == spIndex q

/-- The image offset of a splice target. -/
def spOffset (b : List Byte) (sec i : Nat) : Nat :=
  if sec = 9 then secOff b 9 + 0x110 + 0x208 * i else secOff b sec + i * entSize sec

/-- Replace bytes of a list. -/
def patch (b : List Byte) (o : Nat) (x : List Byte) : List Byte := b.take o ++ x ++ b.drop (o + x.length)

/-- An image with a splice applied (R196). -/
def spliced (b r : List Byte) : List Byte := patch b (spOffset b (spSection r) (spIndex r)) (spEntry r)

/-- Records ordered by section code and index (R187, R196). -/
def insertSplice (r : List Byte) : List (List Byte) → List (List Byte)
  | [] => [r]
  | q :: t =>
    if spSection r * 65536 + spIndex r ≤ spSection q * 65536 + spIndex q then r :: q :: t else q :: insertSplice r t

/-- The record with the greater SEQ of each target, ordered. -/
def newestSplices (l : List (List Byte)) : List (List Byte) :=
  (l.filter (fun r => l.all (fun q => !spSame q r || decide (spSeq q ≤ spSeq r)))).foldr insertSplice []

/-- Store address of record `i` of a slot's splice log (R188). -/
def logAddr (s i : Nat) : Nat := slotBase s + 0x140000 + 1024 * i

/-- The records of a slot's log with their places. -/
def Dev.logRecs (d : Dev) (s : Nat) : List (Nat × List Byte) :=
  (List.range 768).filterMap (fun i =>
    if memRead d.store.mram (logAddr s i) 4 = ascii "TLSP" then some (i, memRead d.store.mram (logAddr s i) 1024) else none)

/-- The running image digest (R187). -/
def runningDigest (base : List Byte) (splices : List (List Byte)) : List Byte :=
  if splices.isEmpty then base else Config.sha256 (base ++ splices.flatMap Config.sha256)

/-- Free a record of the live slot's log: its place holds zeros and no MAGIC. -/
def Dev.freeSplice (d : Dev) (r : List Byte) : Dev :=
  match d.img.live with
  | none => d
  | some l =>
    match (d.logRecs l.slot).find? (fun x => decide (x.2 = r)) with
    | some (i, _) => d.writeSpan (logAddr l.slot i) (List.replicate 8 0#8)
    | none => d

/-- The place a new record takes: the first without a record, else the first whose target has a newer one. -/
def Dev.logPlace (d : Dev) (s : Nat) (r : List Byte) : Nat :=
  let recs := d.logRecs s
  match (List.range 768).find? (fun i => !recs.any (fun x => x.1 == i)) with
  | some i => i
  | none => ((recs.find? (fun x => spSame x.2 r || recs.any (fun y => spSame x.2 y.2 && decide (spSeq x.2 < spSeq y.2)))).map
      (fun x => x.1)).getD 0

/-- Whether R195 admits a target. -/
def Dev.spAdmitted (d : Dev) (sec i : Nat) : Bool :=
  if sec = 1 then decide (i < 192) && decide (i ∉ usedLanes d.image) && (d.lane i).standin.isNone && !(d.lane i).failed
  else if sec = 4 then decide (i < 128) && d.ilType i != 0
  else if sec = 6 then decide (i < 32)
  else sec == 9 && decide (1 ≤ i ∧ i ≤ 7)

/-- The entry checks of R191 that apply to a spliced target. -/
def spEntryOk (b : List Byte) (sec i : Nat) : Bool :=
  if sec = 1 then laneEntryOk i (laneOf b i)
  else if sec = 4 then isleEntryOk b i
  else if sec = 6 then portEntryOk (entry b 6 i) &&
    (List.range 128).all (fun n => u8 (entry b 4 n) 0 == 0 || (relayTargetOk b (u16 (entry b 4 n) 0x18) && isleShapeOk b n))
  else listOk b (imgDisplay b (0x110 + 0x208 * i) 520) && stripOk b

/-- The checks of R194 on a record, in their order. -/
def Dev.spliceBad (d : Dev) (r : List Byte) : Option Status :=
  let b := d.image
  let sec := spSection r
  let i := spIndex r
  let o := spOffset b sec i
  let old := sliceB b o (spLength sec)
  let b2 := spliced b r
  let owner := d.vault.authO
  let bad (ok : Bool) (st : Status) : Option Status := if ok then none else some st
  [bad (r.length == 1024 && decide (r.take 4 = ascii "TLSP") && u16 r 4 == 1 && decide (u16 r 6 = spLength sec ∨ spLength sec = 0) &&
      decide (sliceB r 8 12 = serial12) &&
      (owner.map (fun pk => Config.ecdsaVerify pk (Config.sha256 (r.take 0x3C0)) (sliceB r 0x3C0 64))).getD false) .badImage,
   bad (d.spAdmitted sec i && (sec != 4 || ((u8 old 0x0E == 0) == (u8 (spEntry r) 0x0E == 0)))) .range,
   bad (decide (some (spBase r) = d.img.live.map (fun l => l.base)) && decide (sliceB r 0x40 32 = Config.sha256 old)) .badImage,
   bad (decide (d.img.spliceSeq < spSeq r)) .range,
   bad (decide (legalBytes b2 = legalBytes b ∧ bindBytes b2 = bindBytes b)) .sealed,
   bad (spEntryOk b2 sec i && decide (u16 r 0x1C ≤ 12288) && u8 r 0x19 == 0 && u16 r 0x1E == 0) .badImage].findSome? id

end Sys2Proof.Machine
end

