-- ==== Sys2Proof/Machine/Readout.lean ====
section
/-! DEFINITION. Scroll items as text: OBIS codes, values and units (07_legal_readout R166 to R169, 06_billing R128). -/

namespace Sys2Proof.Machine

/-- An item of a scroll list (08 R183). -/
structure Item where
  isle : Nat
  qty : Nat
  tariff : Nat
  /-- 0 register, 1 maximum demand, 2 device time -/
  kind : Nat
  deriving DecidableEq, Repr

/-- A list's bytes in the image in force. -/
def Dev.listBytes (d : Dev) (k : Nat) : List Byte := d.dspBytes (0x110 + 0x208 * k) 520

def Dev.item (d : Dev) (k i : Nat) : Item :=
  let x := sliceB (d.listBytes k) (8 + 8 * i) 8
  { isle := u8 x 0, qty := u8 x 1, tariff := u8 x 2, kind := u8 x 3 }

/-- Decimal digits of a number, at least `n`. -/
def padDec (n x : Nat) : String :=
  let s := toString x
  String.ofList (List.replicate (n - s.length) '0') ++ s

/-- A number of quanta with `dec` decimals and at least `int` digits before them. -/
def fixedText (int dec x : Nat) : String := padDec int (x / 10 ^ dec) ++ "." ++ padDec dec (x % 10 ^ dec)

/-- C of a quantity, by isle type (R167). -/
def obisC (type q : Nat) : Nat :=
  if type ≤ 4 then nth [1, 2, 5, 6, 7, 8, 9, 10, 128, 129, 130, 131] q 0
  else if type = 5 then (if q = 9 then 2 else 1) else (if q = 9 then 3 else if q = 1 then 2 else 1)

/-- A of an isle type (R167). -/
def obisA (type : Nat) : Nat := if type ≤ 4 then 1 else if type = 5 then 8 else 6

/-- The OBIS code of an item (R167). REV and volume registers show D = 0 on utility isles. -/
def Dev.obisText (d : Dev) (x : Item) : String :=
  if x.kind = 2 then "0-0:1.0.0"
  else
    let t := d.ilType x.isle
    let dd : Nat := if x.kind = 1 then 6 else if t ≤ 4 then 8 else 0
    toString (obisA t) ++ "-" ++ toString (x.isle + 1) ++ ":" ++ toString (obisC t x.qty) ++ "." ++ toString dd ++ "." ++ toString x.tariff

/-- Decimals of an isle's values: 3, or 2 at the tenfold quantum (R128). -/
def Dev.decimals (d : Dev) (n : Nat) : Nat := if d.ilX10 n then 2 else 3

/-- The demand slot of a quantity (R136, R167). -/
def demSlot (type q : Nat) : Nat := if type ≤ 4 then (if q = 6 then 2 else if q = 1 then 1 else 0) else if q = 1 then 1 else 0

/-- The value of an item (R128, R167). -/
def Dev.valueText (d : Dev) (x : Item) : String :=
  if x.kind = 2 then
    let t := dateTime d.local_
    padDec 2 (t.year % 100) ++ "-" ++ padDec 2 t.month ++ "-" ++ padDec 2 t.day ++ " " ++ padDec 2 (t.minute / 60) ++ ":" ++
      padDec 2 (t.minute % 60)
  else
    let dec := d.decimals x.isle
    if x.kind = 1 then fixedText 1 dec (tabGet (0, 0) (d.isle x.isle).dem.max (4 * x.tariff + demSlot (d.ilType x.isle) x.qty)).1
    else fixedText (9 + d.ilModulus x.isle - dec) dec (tabGet { r := 0, w := 0 } (d.isle x.isle).regs (16 * x.tariff + x.qty)).r

/-- The unit of an item; `cubic` is how a cubic metre is written (R128, R167, R362). -/
def Dev.unitText (d : Dev) (cubic : String) (x : Item) : String :=
  if x.kind = 2 then ""
  else
    let t := d.ilType x.isle
    let volume := (t == 5) || (t == 6 && x.qty == 9)
    if x.kind = 1 then (if volume then cubic ++ "/h" else "kW")
    else if volume then cubic
    else if t ≤ 4 ∧ 2 ≤ x.qty ∧ x.qty ≤ 5 then "kvarh"
    else if t ≤ 4 ∧ (x.qty = 6 ∨ x.qty = 7) then "kVAh" else "kWh"

/-- One data line of the optical readout (R168): OBIS(value*unit); device time has no unit. -/
def Dev.dataLine (d : Dev) (x : Item) : String :=
  let u := d.unitText "m3" x
  d.obisText x ++ "(" ++ d.valueText x ++ (if u = "" then "" else "*" ++ u) ++ ")"

/-- The data block of a list (R168): STX, the lines, !, CR LF, ETX, BCC. -/
def Dev.dataBlock (d : Dev) (k : Nat) : List Byte :=
  let l := d.listBytes k
  let crlf : List Byte := [0x0D#8, 0x0A#8]
  let body := (List.range (u8 l 0)).flatMap (fun i => ascii (d.dataLine (d.item k i)) ++ crlf) ++ ascii "!" ++ crlf ++ [0x03#8]
  [0x02#8] ++ body ++ [body.foldl (fun x y => x ^^^ y) 0#8]

end Sys2Proof.Machine
end

