-- ==== Sys2Proof/Machine/PortOps.lean ====
section
/-! DEFINITION. Ports: timing, frame choice and filing (11_ports_partners R264 to R282), replies as bytes, and
partner states (R283, R286, R302, R303). -/

namespace Sys2Proof.Machine

/-! ## Parameters -/

/-- An RS485 port in slave role, or in master role (R273). -/
def Dev.portSlave (d : Dev) (p : Nat) : Bool := d.poModule p == 2 && d.poParam p 2 == 1
def Dev.portMaster (d : Dev) (p : Nat) : Bool := d.poModule p == 2 && d.poParam p 2 == 0
/-- A port that has partners. -/
def Dev.portBus (d : Dev) (p : Nat) : Bool := d.poModule p == 1 || d.portMaster p
def Dev.poGuard (d : Dev) (p : Nat) : Nat :=
  if d.poModule p = 1 ∨ d.poModule p = 2 ∨ d.poModule p = 5 then d.poParam16 p 0 else 0
/-- The baud rate in force (R264, R281). -/
def Dev.baud (d : Dev) (p : Nat) : Nat := if d.poModule p = 5 then (d.port p).optoBd else d.rBaud p
/-- Bits per character (R267). -/
def Dev.charBits (d : Dev) (p : Nat) : Nat := if d.poModule p = 5 then 10 else 11
/-- Ticks of a number of characters (R267). -/
def Dev.charTicks (d : Dev) (p n : Nat) : Nat := cdiv (16000 * d.charBits p * n) (max 1 (d.baud p))
/-- Ticks for which the bus must be idle before a frame (R266). -/
def Dev.idleGap (d : Dev) (p : Nat) : Nat :=
  if d.poModule p = 1 then cdiv (33 * 16000) (max 1 (d.baud p))
  else if d.poModule p = 2 then (if 19200 < d.baud p then 28 else cdiv (77 * 8000) (max 1 (d.baud p)))
  else 0
/-- Ticks from a request's last character to its answer timeout (R269, R273). -/
def Dev.answerTicks (d : Dev) (p : Nat) : Nat :=
  if d.poModule p = 1 then cdiv (330 * 16000) (max 1 (d.baud p)) + 800 + 16 * d.poParam16 p 6 else 16 * d.poParam16 p 6
/-- A MAP entry, and the entries whose QUANTITY is not 0 (R273). -/
def Dev.mapEntry (d : Dev) (p m : Nat) : List Byte := sliceB (d.ent 6 p) (32 + 8 * m) 8
def Dev.maps (d : Dev) (p : Nat) : List Nat := (List.range 4).filter (fun m => u8 (d.mapEntry p m) 0 != 0)
/-- A partner's period: its own, or the port's (R286). -/
def Dev.period (d : Dev) (i : Nat) : Nat :=
  let x := d.partner i
  max 1 (if x.period = 0 then d.rPoll x.port else x.period)
/-- A PORT splice is pending (R195). -/
def Dev.portSpliced (d : Dev) (p : Nat) : Bool := d.img.pending.any (fun x => spSection x.1 == 6 && spIndex x.1 == p)

/-- Characters of a step's frame. -/
def TxStep.chars : TxStep → Nat
  | .nke | .reqUd2 | .discNke | .discReq => 5
  | .select | .discSelect => 17
  | _ => 8

/-- The partners of a port, ascending, and those it polls. -/
def Dev.portPartners (d : Dev) (p : Nat) : List Nat :=
  (d.partners.filter (fun x => decide (x.2.state ≠ .free) && x.2.port == p)).map (fun x => x.1)
def PtState.polled (s : PtState) : Bool := decide (s = .enrolled ∨ s = .silent ∨ s = .lost)
def Dev.polledPartners (d : Dev) (p : Nat) : List Nat := (d.portPartners p).filter (fun i => (d.partner i).state.polled)

/-! ## The next frame of a port (R266) -/

/-- What a port sends next. -/
inductive Pick where
  | output (target cls : Nat)
  | relay (target cls : Nat)
  | cont (t : Txn)
  | poll (due i : Nat) (kind : TxKind)
  | discover (x : Disc)
  | answer
  deriving DecidableEq, Repr

/-- The first step of a read of a partner (R269, R274). -/
def Dev.firstStep (d : Dev) (i : Nat) : TxStep :=
  let x := d.partner i
  if d.poModule x.port = 2 then
    if x.kind = 4 then .coilRead else .modbus ((d.maps x.port).head?.getD 0)
  else if x.second then .select
  else if bitOf (d.poParam x.port 5) 0 && x.first then .nke else .reqUd2

/-- Whether one waiting poll goes before another: due second, then partner index. -/
def pollBefore (a b : Nat × Nat × TxKind) : Bool := decide (a.1 < b.1) || (a.1 == b.1 && decide (a.2.1 ≤ b.2.1))
/-- The first poll in service order. -/
def firstPoll : List (Nat × Nat × TxKind) → Option (Nat × Nat × TxKind)
  | [] => none
  | x :: t =>
    match firstPoll t with
    | none => some x
    | some y => if pollBefore x y then some x else some y

/-- The polls that may start: none with ENABLE 0, none but probes and read jobs during backoff (R264, R288). -/
def Dev.openPolls (d : Dev) (p : Nat) : List (Nat × Nat × TxKind) :=
  let s := d.port p
  s.pollQ.filter (fun x => match x.2.2 with
    | .poll => !s.backoff && d.rEnable p
    | _ => d.rEnable p)

/-- The relay commands that may be sent: their partner is ENROLLED (R280). -/
def Dev.openRelays (d : Dev) (p : Nat) : List (Nat × Nat) :=
  (d.port p).relayQ.filter (fun x => !targetIsPartner x.1 || decide ((d.partner (targetPartner x.1)).state = .enrolled))

/-- The frame a port sends next, in the order of R266; none while it may send none. -/
def Dev.pick (d : Dev) (p : Nat) : Option Pick :=
  let s := d.port p
  let m := d.poModule p
  let idle := decide (s.idleAt ≤ d.clk.runTick)
  if !d.isLive || !decide (d.pwr.mode = .run ∨ d.pwr.mode = .doze) then none
  else if m = 4 then (if d.portSpliced p then none else (s.relayQ.head?).map (fun x => .output x.1 x.2))
  else if m = 5 ∨ d.portSlave p then
    (if s.answer.isEmpty || d.portSpliced p || !idle || (m == 2 && !d.pwr.vdd5p) then none else some .answer)
  else if !d.portBus p || (m == 2 && !d.pwr.vdd5p) || !idle || s.txn.any (fun t => t.sent) then none
  else
    let hold := d.portSpliced p
    match (if hold then none else (d.openRelays p).head?), s.txn with
    | some (t, c), some x => (match x.kind with | .relay _ _ => some (.cont x) | _ => some (.relay t c))
    | some (t, c), none => some (.relay t c)
    | none, some x => some (.cont x)
    | none, none =>
      if hold then none
      else match firstPoll (d.openPolls p) with
        | some (due, i, k) => some (.poll due i k)
        | none => if d.rEnable p then s.disc.map .discover else none

/-- The step a discovery starts an address with (R285). -/
def Disc.step (x : Disc) (module_ : Nat) : TxStep :=
  if module_ = 2 then .discModbus else if x.method = 0 then .discNke else .discSelect

/-- Whether a pick is a tamper response, and its duration (R267). -/
def Dev.pickDraw (d : Dev) (p : Nat) : Pick → Bool × Nat
  | .output _ c => (c == 1, 16 * d.poParam p 2)
  | .relay _ c => (c == 1, d.charTicks p 8 + d.poGuard p)
  | .cont t => (match t.kind with | .relay _ c => c == 1 | _ => false, d.charTicks p t.step.chars + d.poGuard p)
  | .poll _ i _ => (false, d.charTicks p (d.firstStep i).chars + d.poGuard p)
  | .discover x => (false, d.charTicks p (x.step (d.poModule p)).chars + d.poGuard p)
  | .answer => (false, d.charTicks p (d.port p).answer.length + d.poGuard p)

/-! ## A Modbus answer from the billing views (R275) -/

/-- CRC-16 of Modbus RTU: reflected polynomial 0xA001, initial value all ones. -/
def crc16Bits : Nat → Nat → Nat
  | 0, c => c
  | k + 1, c => crc16Bits k (if c % 2 = 1 then (c / 2) ^^^ 0xA001 else c / 2)
def crc16 (l : List Byte) : Nat := l.foldl (fun c b => crc16Bits 8 (c ^^^ b.toNat)) 0xFFFF
def withCrc16 (l : List Byte) : List Byte := l ++ leBytes 2 (crc16 l)

/-- One register of the map: word j of a register pair. -/
def Dev.modbusReg (d : Dev) (a : Nat) : Nat :=
  let x := tabGet { r := 0, w := 0 } (d.isle (a / 432)).regs (16 * (a % 432 / 48) + a % 48 / 4)
  if a % 4 = 0 then x.w else x.r / 2 ^ (16 * (3 - a % 4)) % 2 ^ 16

/-- The answer to a request, empty where the slave stays silent. -/
def Dev.modbusAnswer (d : Dev) (p : Nat) (raw : List Byte) : List Byte :=
  let addr := u8 raw 0
  let fc := u8 raw 1
  let start := 256 * u8 raw 2 + u8 raw 3
  let n := 256 * u8 raw 4 + u8 raw 5
  let exc (c : Nat) : List Byte := withCrc16 [byteOf addr, byteOf (128 + fc), byteOf c]
  let mask := leVal (sliceB (d.ent 6 p) 32 16)
  if raw.length < 4 ∨ addr ≠ d.poParam p 4 ∨ u16 raw (raw.length - 2) ≠ crc16 (raw.take (raw.length - 2)) then []
  else if fc ≠ 3 ∧ fc ≠ 4 then exc 1
  else if raw.length ≠ 8 ∨ n = 0 ∨ 125 < n then exc 3
  else if (List.range n).any (fun i => decide (128 ≤ (start + i) / 432) || !bitOf mask ((start + i) / 432) ||
      d.ilType ((start + i) / 432) == 0) then exc 2
  else withCrc16 ([byteOf addr, byteOf fc, byteOf (2 * n)] ++ (List.range n).flatMap (fun i => beBytes 2 (d.modbusReg (start + i))))

/-- Whether a request's registers lie in isles of which some are closed for the last frame and some are not. -/
def Dev.modbusSplit (d : Dev) (raw : List Byte) : Bool :=
  let start := 256 * u8 raw 2 + u8 raw 3
  let n := 256 * u8 raw 4 + u8 raw 5
  let done (a : Nat) : Bool := decide (80 + a / 432 < d.run.off)
  d.run.open_ && decide (n ≠ 0) && (done start != done (start + n - 1))

/-! ## Filing (R240, R266) -/

/-- Form the answers that wait: a Modbus request's, and the readout latched at offset 736 (07 R169). An optical
readout that has been sent leaves the port idle at 300 Bd. -/
def Dev.formAnswer (d : Dev) (p : Nat) : Dev :=
  let s := d.port p
  let d := if (match s.opto with | .readout _ => true | _ => false) && !s.latch && s.answer.isEmpty &&
      decide (s.idleAt ≤ d.clk.runTick) then d.upPort p (fun x => { x with opto := .idle, optoBd := 300 }) else d
  let d := if !s.ask.isEmpty && !d.modbusSplit s.ask then
      d.upPort p (fun x => { x with ask := [], answer := d.modbusAnswer p s.ask }) else d
  if s.latch && decide (736 ≤ d.off) then
    d.upPort p (fun x => { x with latch := false, answer := d.dataBlock (d.poParam p 2) }) else d

/-- A relay command whose partner is not ENROLLED waits, logged once per episode (R280). -/
def Dev.relayWaits (d : Dev) (p : Nat) : Dev :=
  d.forEach (((d.port p).relayQ.filter (fun x => targetIsPartner x.1)).map (fun x => targetPartner x.1)) (fun i d =>
    let x := d.partner i
    if x.state = .enrolled ∨ x.unreach then d
    else (d.upPartner i (fun x => { x with unreach := true })).logNow 0x088 (orgPort p) (leBytes 2 i))

/-- File, change or withdraw the request of a port for the frame it sends next. -/
def Dev.portFile (d : Dev) (p : Nat) : Dev :=
  let d := (d.formAnswer p).relayWaits p
  match d.pick p with
  | none => (d.withdraw (.port p)).withdraw (.tamperPort p)
  | some x =>
    let (tam, dur) := d.pickDraw p x
    let (who, other) : Requester × Requester := if tam then (.tamperPort p, .port p) else (.port p, .tamperPort p)
    let d := d.withdraw other
    if d.waiting who then
      d.mapPwr (fun w => { w with reqs := w.reqs.map (fun r => if r.who = who then { r with d := dur } else r) })
    else d.file who (if tam then 1 else 4) (d.poDraw p) dur

/-- File for every port that has a module. -/
def Dev.portsFile (d : Dev) : Dev :=
  d.forEach ((List.range 32).filter (fun p => d.poModule p != 0)) (fun p d => d.portFile p)

/-! ## Partner states (R283, R286) -/

/-- The partner record of an entry must be written (R282). -/
def Dev.ptWrite (d : Dev) (i : Nat) : Dev := d.mapStore (fun s => { s with ptDirty := insertNat (i / 21) s.ptDirty })
def Dev.ptLater (d : Dev) (i : Nat) : Dev := d.mapStore (fun s => { s with ptLazy := insertNat (i / 21) s.ptLazy })

def PtState.code : PtState → Nat
  | .free => 0 | .candidate => 1 | .enrolled => 2 | .silent => 3 | .lost => 4 | .retired => 5

/-- Change a partner's state, logging EV_PARTNER_STATE. -/
def Dev.ptState (d : Dev) (i : Nat) (st : PtState) : Dev :=
  let x := d.partner i
  if x.state = st then d
  else
    let d := (d.upPartner i (fun x =>
      { x with state := st, enrolled := if st = .enrolled then d.clk.secs else x.enrolled,
               first := x.first || decide (st = .lost) || (decide (st = .enrolled) && !x.state.polled),
               unreach := x.unreach && decide (st ≠ .enrolled) })).ptWrite i
    d.reportPartner 0x080 x.port st.code i
      (leBytes 2 i ++ [byteOf x.port, byteOf x.state.code, byteOf st.code]) 0

/-- A partner enters ENROLLED from CANDIDATE or RETIRED: first due at the next device second (R286). -/
def Dev.ptEnrol (d : Dev) (i : Nat) : Dev :=
  (d.ptState i .enrolled).upPartner i (fun x => { x with due := d.clk.secs + 1, missed := 0 })

/-- The next due time after a poll (R286). A poll overdue from a backoff counts no POLL_LATE (R288). -/
def Dev.nextDue (d : Dev) (i : Nat) : Dev :=
  let x := d.partner i
  let q := if x.state = .lost then 8 * d.period i else d.period i
  let due := x.due + q
  if due < d.clk.secs then
    let d := d.upPartner i (fun y => { y with due := due + cdiv (d.clk.secs - due) q * q })
    if x.due ≤ (d.port x.port).bkEndAt then d
    else d.upPort x.port (fun s => { s with pollLate := satU 32 (s.pollLate + 1) })
  else d.upPartner i (fun y => { y with due := due })

/-- A valid reply of a partner (R283). -/
def Dev.ptReply (d : Dev) (i : Nat) : Dev :=
  let x := d.partner i
  let d := (d.upPartner i (fun x => { x with seen := d.clk.secs, missed := 0 })).ptLater i
  if x.state = .silent ∨ x.state = .lost then d.ptState i .enrolled else d

/-! ## Missed polls and common cause (R302, R303) -/

/-- The suspect threshold of a port (R302), none where the rule is disabled. -/
def Dev.suspectAt (d : Dev) (p : Nat) : Option Nat :=
  let c := d.ppSuspCount p
  if c = 0 then none else some (max 2 (min c (cdiv (d.ppSuspPct p * (d.polledPartners p).length) 100)))

/-- The open suspect knot of a qualifier, and the one that covers a port. -/
def Dev.suspectKnot (d : Dev) (qual : Nat) : Option Nat :=
  (d.knotsIn 1).find? (fun i => (d.knot i).suspect && (d.knot i).qual == qual)
def Dev.portSuspect (d : Dev) (p qual : Nat) : Option Nat :=
  (d.knotsIn 1).find? (fun i => (d.knot i).suspect && (d.knot i).qual == qual && bitOf (d.knot i).ports p)

/-- Report EV_POLL_MISSED: to the suspect knot that covers the port, else to the port's own knot. -/
def Dev.reportMissed (d : Dev) (p qual i : Nat) : Dev :=
  match d.portSuspect p qual with
  | some k => d.setKnot k (Knot.addReporter
      { d.knot k with count := satU 32 ((d.knot k).count + 1), last := d.clk.secs, at1 := d.clk.runTick } i)
  | none => d.reportPartner 0x081 p qual i [] 0

/-- The missed-poll knot of a port becomes, or joins, the suspect knot of its qualifier, and the port enters
backoff (R303). -/
def Dev.makeSuspect (d : Dev) (p qual : Nat) : Dev :=
  let d := d.upPort p (fun s => { s with backoff := true, bkQual := qual, probed := 4096, probeAt := d.clk.secs })
  match d.findKnot 0x081 (orgPort p) qual with
  | none => d
  | some i =>
    let k := d.knot i
    match d.suspectKnot qual with
    | some j =>
      let s := d.knot j
      let s := { s with count := satU 32 (s.count + k.count), last := max s.last k.last, at1 := max s.at1 k.at1,
                        first := min s.first k.first, ports := s.ports ||| 2 ^ p }
      (d.setKnot j (k.seen.foldl Knot.addReporter s)).setKnot i .free
    | none =>
      (d.setKnot i { k with code := 0x082, suspect := true, quiet := false, ports := 2 ^ p }).notify
        { kind := 2, knot := i, seq := 0 }

/-- The distinct partners of a port with missed polls of a qualifier in the last KNOT_WINDOW seconds (R302). -/
def Dev.missedPartners (d : Dev) (p qual : Nat) : Nat :=
  ((((d.port p).missed).filter (fun x => x.2.2 == qual)).map (fun x => x.2.1)).dedup.length

/-- A missed poll (R283): reported, counted, and in backoff without effect on the partner (R288). -/
def Dev.pollMissed (d : Dev) (i qual : Nat) : Dev :=
  let p := (d.partner i).port
  let now := d.clk.runTick
  let d := d.reportMissed p qual i
  let d := d.upPort p (fun s =>
    { s with missed := (s.missed.filter (fun x => decide (now < x.1 + 16000 * d.knotWin0))) ++ [(now, i, qual)] })
  let d := match d.suspectAt p with
    | some t => if !(d.port p).backoff && decide (t ≤ d.missedPartners p qual) then d.makeSuspect p qual else d
    | none => d
  if (d.port p).backoff then d
  else
    let d := (d.upPartner i (fun x => { x with missed := min 255 (x.missed + 1) })).ptLater i
    let x := d.partner i
    if x.state = .enrolled ∧ 3 ≤ x.missed then d.ptState i .silent
    else if x.state = .silent ∧ d.ppLostAfter p ≤ x.missed then d.ptState i .lost
    else d

/-- The first valid reply to a probe, a relay command or a read ends a backoff (R288). -/
def Dev.endBackoff (d : Dev) (p : Nat) : Dev :=
  if (d.port p).backoff then
    d.upPort p (fun s => { s with backoff := false, bkEndAt := d.clk.secs, missed := [], pollQ := s.pollQ.filter (fun x => decide (x.2.2 ≠ .probe)) })
  else d

/-- Suspect knots none of whose ports is in backoff close at the tick boundary (R303). -/
def Dev.closeSuspects (d : Dev) : Dev :=
  d.forEach ((d.knotsIn 1).filter (fun i => (d.knot i).suspect)) (fun i d =>
    if (List.range 32).any (fun p => bitOf (d.knot i).ports p && (d.port p).backoff) then d else d.closeKnot i false)

/-! ## M-Bus replies (R269 to R271) -/

/-- A link frame with good start, stop, lengths and checksum: control, address, CI and user data. -/
def mbusLong (raw : List Byte) : Option (Nat × Nat × Nat × List Byte) :=
  let n := u8 raw 1
  let body := sliceB raw 4 n
  if u8 raw 0 = 0x68 ∧ u8 raw 2 = n ∧ u8 raw 3 = 0x68 ∧ raw.length = n + 6 ∧ 3 ≤ n ∧
     u8 raw (n + 4) = sumN (body.map (fun b => b.toNat)) % 256 ∧ u8 raw (n + 5) = 0x16 then
    some (u8 body 0, u8 body 1, u8 body 2, body.drop 3)
  else none

/-- A data record: its DIF fields, VIF, VIFEs, and the bytes of its value. -/
structure MRec where
  coding : Nat
  func : Nat
  storage : Nat
  tariff : Nat
  subunit : Nat
  vif : Nat
  vife : List Nat
  data : List Byte
  deriving DecidableEq, Repr

/-- Bytes of a data field. -/
def mbusLen (coding : Nat) : Nat := nth [0, 1, 2, 3, 4, 4, 6, 8, 0, 1, 2, 3, 4, 0, 6, 0] coding 0

/-- Extension bytes while bit 7 is set. -/
def mbusExt : Nat → List Byte → List Nat × List Byte
  | 0, l => ([], l)
  | _ + 1, [] => ([], [])
  | f + 1, b :: t => if bitOf b.toNat 7 then (let (x, r) := mbusExt f t; (b.toNat :: x, r)) else ([b.toNat], t)

/-- The records of a telegram's user data, and whether its last is DIF 0x1F (more follows). -/
def mbusRecs : Nat → List Byte → List MRec × Bool
  | 0, _ => ([], false)
  | _ + 1, [] => ([], false)
  | f + 1, b :: t =>
    let dif := b.toNat
    if dif = 0x1F then ([], true)
    else if dif = 0x0F then ([], false)
    else if dif = 0x2F then mbusRecs f t
    else
      let (difes, t) := if bitOf dif 7 then mbusExt 10 t else ([], t)
      match t with
      | [] => ([], false)
      | v :: t =>
        let (vifes, t) := if bitOf v.toNat 7 then mbusExt 10 t else ([], t)
        let c := dif % 16
        let (n, t) := if c = 13 then (match t with | l :: r => (l.toNat % 128, r) | [] => (0, [])) else (mbusLen c, t)
        let wide (k lo w : Nat) : Nat :=
          (difes.zipIdx.map (fun (x, i) => bitsOf x (lo + w - 1) lo * 2 ^ (w * i))).foldl (· + ·) 0 * 2 ^ k
        let r : MRec := { coding := c, func := bitsOf dif 5 4, storage := bitsOf dif 6 6 + wide 1 0 4, tariff := wide 0 4 2,
                          subunit := wide 0 6 1, vif := v.toNat, vife := vifes.map (fun x => x % 128), data := t.take n }
        let (l, more) := mbusRecs f (t.drop n)
        (r :: l, more)

/-- BCD digits, least significant byte first, with a negative sign nibble 0xF at the top (R271). -/
def bcdVal (l : List Byte) : Option Int :=
  let ds := l.flatMap (fun b => [b.toNat % 16, b.toNat / 16])
  let neg := ds.getLast? == some 15
  let ds := if neg then ds.dropLast else ds
  if ds.all (fun x => decide (x ≤ 9)) then
    let m : Int := ((ds.zipIdx.map (fun (x, i) => x * 10 ^ i)).foldl (· + ·) 0 : Nat)
    some (if neg then -m else m)
  else none

/-- The value of a record: binary of 8 to 64 bits or BCD; others are ignored (R271). -/
def MRec.value (r : MRec) : Option Int :=
  if r.data.length ≠ mbusLen r.coding then none
  else if r.coding ∈ [1, 2, 3, 4, 6, 7] then some (sext (8 * r.data.length) (leVal r.data))
  else if r.coding ∈ [9, 10, 11, 12, 14] then bcdVal r.data
  else none

/-- Quantity and scaling of a record (R271). -/
def MRec.quantity (r : MRec) (medium : Nat) : Option (Nat × Rat) :=
  let n : Int := (r.vif % 8 : Nat)
  let four : Int := (r.vif % 4 : Nat)
  let energy : Option Nat :=
    if medium ∈ [0x04, 0x0C, 0x0D] then some 5 else if medium = 0x02 then some 8 else none
  if r.func ≠ 0 ∨ r.storage ≠ 0 ∨ r.tariff ≠ 0 ∨ r.subunit ≠ 0 then none
  else if 0x90 ≤ r.vif ∧ r.vif ≤ 0x97 ∧ r.vife = [0x3C] then some (2, pow10 n)
  else if !r.vife.isEmpty then none
  else if r.vif ≤ 0x07 then energy.map (fun q => (q, pow10 n))
  else if r.vif ≤ 0x0F then energy.map (fun q => (q, pow10 n / (18 / 5)))
  else if r.vif ≤ 0x17 then some (1, pow10 n)
  else if 0x28 ≤ r.vif ∧ r.vif ≤ 0x2F then some (10, pow10 n)
  else if 0x38 ≤ r.vif ∧ r.vif ≤ 0x3F then some (7, pow10 n)
  else if 0x58 ≤ r.vif ∧ r.vif ≤ 0x5B then some (3, pow10 four)
  else if 0x5C ≤ r.vif ∧ r.vif ≤ 0x5F then some (4, pow10 four)
  else none

/-- The range of a quantity's width (R270). -/
def qtyRange (q : Nat) : Int × Int :=
  if q = 3 ∨ q = 4 ∨ q = 10 then (-(2 ^ 31 : Nat), (2 ^ 31 - 1 : Nat)) else if q = 7 then (0, (2 ^ 32 - 1 : Nat))
  else if q = 11 then (0, 1) else (0, (2 ^ 64 - 1 : Nat))

/-- Add a quantity to a read: the first found counts, and one out of its width saturates and counts as missing. -/
def Txn.addQty (t : Txn) (q : Nat) (x : Rat) : Txn :=
  if t.vals.any (fun v => v.1 == q) then t
  else
    let v := truncQ x
    let (lo, hi) := qtyRange q
    if v < lo ∨ hi < v then { t with vals := t.vals ++ [(q, max lo (min hi v))], sat := t.sat ++ [q], missing := true }
    else { t with vals := t.vals ++ [(q, v)] }

/-- The records of a telegram join a read. -/
def Txn.addRecs (t : Txn) (medium : Nat) (l : List MRec) : Txn :=
  l.foldl (fun t r =>
    match r.quantity medium, r.value with
    | some (q, s), some v => t.addQty q ((v : Rat) * s)
    | _, _ => t) t

/-- The kind discovery gives a medium (R285). -/
def mediumKind (m : Nat) : Nat := if m = 7 then 1 else if m ∈ [0x04, 0x0C, 0x0D] then 2 else if m = 2 then 3 else 0

/-! ## Modbus replies (R274) -/

/-- The value of a MAP entry from a response's data bytes. -/
def mapValue (e data : List Byte) : Rat :=
  let ws := (List.range (u8 e 4)).map (fun i => 256 * u8 data (2 * i) + u8 data (2 * i + 1))
  let ws := if bitOf (u8 e 5) 7 then ws else ws.reverse
  let raw := (ws.zipIdx.map (fun (x, i) => x * 2 ^ (16 * i))).foldl (· + ·) 0
  let v : Int := if bitOf (u8 e 5) 0 then sext (16 * u8 e 4) raw else (raw : Int)
  (v : Rat) * pow10 (sext 8 (u8 e 6))

/-- A response with right address and CRC: its function code and the bytes between it and the CRC. -/
def modbusParse (addr : Nat) (raw : List Byte) : Option (Nat × List Byte) :=
  if 5 ≤ raw.length ∧ u8 raw 0 = addr ∧ u16 raw (raw.length - 2) = crc16 (raw.take (raw.length - 2)) then
    some (u8 raw 1, (raw.drop 2).take (raw.length - 4))
  else none

end Sys2Proof.Machine
end

