-- ==== Sys2Proof/Machine/Ports.lean ====
section
/-! DEFINITION. The commands of ports and partners (11_ports_partners R264 to R290, 07_legal_readout R168, R169). -/

namespace Sys2Proof.Machine

/-! ## The partner records (R282, R291) -/

/-- Partner view offsets 0x00 to 0x1F. -/
def Partner.head (x : Partner) : List Byte :=
  leBytes 4 (x.state.code + flagAt 3 x.second + 16 * x.port + 512 * x.kind + flagAt 12 x.replaced + flagAt 13 x.qtyMiss +
    65536 * x.isle + 2 ^ 24 * x.primary) ++
  leBytes 4 x.ident ++ leBytes 4 (x.man + 65536 * x.ver + 2 ^ 24 * x.medium) ++ leBytes 4 x.seen ++
  leBytes 4 (x.period + 2 ^ 24 * x.missed) ++ leBytes 4 x.due ++ leBytes 4 (x.status + 256 * x.access) ++ leBytes 4 x.enrolled

/-- A stored entry; its values are those of no read yet, and its first contact is to come (R269). -/
def Partner.ofHead (b : List Byte) : Partner :=
  let c := u32 b 0
  let st : PtState := nth [.free, .candidate, .enrolled, .silent, .lost, .retired] (bitsOf c 2 0) .free
  if st = .free then .free
  else
    { state := st, second := bitOf c 3, port := bitsOf c 8 4, kind := bitsOf c 11 9, replaced := bitOf c 12, qtyMiss := bitOf c 13,
      isle := bitsOf c 23 16, primary := bitsOf c 31 24, ident := u32 b 4, man := u16 b 8, ver := u8 b 10, medium := u8 b 11,
      seen := u32 b 12, period := leVal (sliceB b 16 3), missed := u8 b 19, due := u32 b 20, status := u8 b 24, access := u8 b 25,
      enrolled := u32 b 28, vals := [], first := true, fcb := true, unreach := false, coilAt := 0 }

/-- The payload of partner record `r`: 21 entries of 48 bytes. -/
def Dev.partnerRecord (d : Dev) (r : Nat) : List Byte :=
  (List.range 21).flatMap (fun k =>
    (d.partner (21 * r + k)).head ++ (List.range 16).map (fun j => Config.moduleState (21 * r + k) j))

/-- Changed partner records are written in the open offsets (R282). -/
def Dev.flushPartners (d : Dev) : Dev :=
  if decide (736 ≤ d.off) && d.isLive then
    let l := d.store.ptDirty
    (d.mapStore (fun s => { s with ptDirty := [] })).forEach l (fun r d => d.twWrite 12 r r [d.partnerRecord r])
  else d

/-- The payload of the newest valid copy of partner record `r`, if any (09_store R218). -/
def Dev.partnerStored (d : Dev) (r : Nat) : Option (List Byte) :=
  let a := d.regionBase 12 / 1024 + r
  let b := a + d.regionSize 12 / 2048
  let read (t : Nat) : List Byte := memRead d.store.mram (1024 * t + 16) 1008
  match d.twSeq a 1 r, d.twSeq b 1 r with
  | some x, some y => some (read (if serialNewer y x then b else a))
  | some _, none => some (read a)
  | none, some _ => some (read b)
  | none, none => none

/-- The partner table as stored. -/
def Dev.loadPartners (d : Dev) : Dev :=
  (List.range 196).foldl (fun d r =>
    match d.partnerStored r with
    | none => d
    | some b => (List.range 21).foldl (fun d k => d.setPartner (21 * r + k) (Partner.ofHead (sliceB b (48 * k) 48))) d)
    ((List.range 196).foldl (fun d r => if d.recordHeld 12 r r 1 then d.readRecord 12 r r 1 orgDev else d) { d with partners := [] })

/-- First due times at power-up and with a first image: the k-th of N at now plus the floor of k P / N (R286); an image load
over a live image keeps them (R289). -/
def Dev.spreadDues (d : Dev) : Dev :=
  (List.range 32).foldl (fun d p =>
    let l := d.polledPartners p
    l.zipIdx.foldl (fun d (i, k) => d.upPartner i (fun x => { x with due := d.clk.secs + k * d.period i / l.length })) d) d

/-- The counting of pulses begins: no input has been seen ON or OFF yet (R277). -/
def Dev.restartPulses (d : Dev) : Dev :=
  { d with ports := d.ports.map (fun (e : Nat × PortSt) =>
    (e.1, { e.2 with onRun := [0, 0, 0, 0], offRun := [0, 0, 0, 0], onOk := [false, false, false, false] })) }

/-! ## Transactions -/

def Dev.setTxn (d : Dev) (p : Nat) (t : Option Txn) : Dev := d.upPort p (fun s => { s with txn := t })

/-- The transaction ends; one that a relay command overtook goes on. -/
def Dev.endTxn (d : Dev) (p : Nat) : Dev := d.upPort p (fun s => { s with txn := s.susp, susp := none })

/-- A new transaction. -/
def Txn.start (kind : TxKind) (partner : Option Nat) (step : TxStep) (bound : Option Nat) : Txn :=
  { kind := kind, partner := partner, step := step, tries := 0, telegram := 0, sent := true, vals := [], raw := [],
    missing := false, sat := [], bound := bound }

/-- The next frame of a transaction. -/
def Txn.next (t : Txn) (step : TxStep) : Txn := { t with step := step, tries := 0, sent := false }

/-- A partner's number as a relay target. -/
def partnerTarget (i : Nat) : Nat := 0x8000 + i

/-- A final status the spec does not state: any code but ST_DONE and ST_BUSY (log 3). -/
def Dev.freeStatus (d : Dev) : Status × Dev :=
  let (x, d) := d.fresh
  (nth [.late, .aborted, .keyOrphaned, .keySpent, .keyExpired, .sealed, .denied, .torn, .tileBad, .noDraw, .badImage, .range]
    (x % 12) .range, d)

/-! ## Sending (R266, R267, R278) -/

/-- An M-Bus short frame: control and address (log 75). -/
def mbusShort (c a : Nat) : List Byte := [0x10#8, byteOf c, byteOf a, byteOf ((c + a) % 256), 0x16#8]

/-- The select (R269): SND_UD to address 253 with CI 0x52 and the 8-byte secondary address, in a long frame (log 75). -/
def mbusSelect (fcb : Bool) (ident man ver med : Nat) : List Byte :=
  let body : List Byte := [byteOf (if fcb then 0x73 else 0x53), 0xFD#8, 0x52#8] ++ leBytes 4 ident ++ leBytes 2 man ++ [byteOf ver, byteOf med]
  [0x68#8, 0x0B#8, 0x0B#8, 0x68#8] ++ body ++ [byteOf (sumN (body.map (fun b => b.toNat)) % 256), 0x16#8]

/-- A Modbus request of 8 characters (R274). -/
def modbusAsk (addr fc reg n : Nat) : List Byte := withCrc16 ([byteOf addr, byteOf fc] ++ beBytes 2 reg ++ beBytes 2 n)

/-- The identification mask of eight digits, most significant first. -/
def maskId (m : List Nat) : Nat := m.foldl (fun a x => 16 * a + x) 0

/-- The bytes of a transaction's frame (R269, R274, R280, R285). -/
def Dev.frameBytes (d : Dev) (p : Nat) (t : Txn) : List Byte :=
  let x := d.partner (t.partner.getD 0)
  let a := if x.second then 253 else x.primary
  let q := (d.port p).disc
  let next := (q.map (fun x => x.next)).getD 0
  let coil := d.poParam16 p 8
  let flag := bitOf (d.poParam p 10) 0
  match t.step with
  | .nke => mbusShort 0x40 a
  | .reqUd2 => mbusShort (if x.fcb then 0x7B else 0x5B) a
  | .select => mbusSelect false x.ident x.man x.ver x.medium
  | .discNke => mbusShort 0x40 next
  | .discSelect => mbusSelect false (((q.bind (fun x => x.todo.head?)).map (fun x => maskId x.1)).getD 0) 0xFFFF 0xFF 0xFF
  | .discReq => mbusShort 0x5B (if q.any (fun x => x.method == 1) then 253 else next)
  | .modbus m => let e := d.mapEntry p m; modbusAsk x.primary (u8 e 1) (u16 e 2) (u8 e 4)
  | .discModbus => let e := d.mapEntry p 0; modbusAsk next 3 (u16 e 2) (u8 e 4)
  | .coilRead => modbusAsk x.primary 1 coil 1
  | .coilWrite =>
    let on := match t.kind with | .relay target _ => d.relayOpen target == flag | _ => false
    modbusAsk x.primary 5 coil (if on then 0xFF00 else 0)

/-- A frame goes out: the port counts it, and its bus is busy for its characters. -/
def Dev.sendFrame (d : Dev) (p : Nat) (bytes : List Byte) (t : Option Txn) : Dev :=
  let now := d.clk.runTick
  let n := bytes.length
  d.upPort p (fun s =>
    { s with frames := satU 32 (s.frames + 1), txn := t, frame := bytes, idleAt := now + d.charTicks p n + d.idleGap p,
             dueAt := now + d.charTicks p n - 1 + d.answerTicks p })

/-- A relay output changes at its grant (R278); feedback must show it from d + 16 FB_TIMEOUT_MS on (R279). -/
def Dev.sendOutput (d : Dev) (p t dur : Nat) : Dev :=
  let o := targetOut t
  let want := d.relayOpen t
  let now := d.clk.runTick
  d.upPort p (fun s =>
    { s with relayQ := s.relayQ.filter (fun x => x.1 != t), out := s.out.set o want, idleAt := now + dur,
             again := s.again.set o (s.again.getD o false && s.out.getD o false == want),
             fbAt := s.fbAt.set o (now + dur + 16 * d.poParam16 p 4) })

/-- BUS_FRAME (R266): at its grant boundary the port sends what the order of R266 puts first. -/
def Dev.busFrame (d : Dev) (p : Nat) : Dev :=
  if !(d.grantedNow (.port p) || d.grantedNow (.tamperPort p)) || decide (d.clk.runTick < (d.port p).idleAt) then d
  else match d.pick p with
  | none => d
  | some (.output t c) => d.sendOutput p t (d.pickDraw p (.output t c)).2
  | some (.relay t c) =>
    let i := targetPartner t
    let x := Txn.start (.relay t c) (some i) .coilWrite none
    let d := d.upPort p (fun s => { s with relayQ := s.relayQ.filter (fun x => x.1 != t), susp := s.txn })
    d.sendFrame p (d.frameBytes p x) (some x)
  | some (.cont t) => d.sendFrame p (d.frameBytes p t) (some { t with sent := true })
  | some (.poll _ i k) =>
    let b := (d.partner i).isle
    let t := Txn.start k (some i) (d.firstStep i) (if b = 0xFF then none else some b)
    let d := d.upPort p (fun s => { s with pollQ := s.pollQ.filter (fun x => !(x.2.1 == i && decide (x.2.2 = k))) })
    d.sendFrame p (d.frameBytes p t) (some t)
  | some (.discover x) =>
    let t := Txn.start .discovery none (x.step (d.poModule p)) none
    d.sendFrame p (d.frameBytes p t) (some t)
  | some .answer =>
    (d.sendFrame p (d.port p).answer none).upPort p (fun s =>
      { s with answer := [], opto := if s.opto = .identify then .identified else s.opto })

/-- BUS_FRAME (R266). -/
def execBusFrame (p : Nat) (st : State) : Host.Outcome State Fault Refusal :=
  onUnit (decide (p < 32)) "port" st (fun d => d.busFrame p)

/-! ## Discovery (R285) -/

/-- The entry of a port with an address that is neither FREE nor RETIRED. -/
def Dev.atAddress (d : Dev) (p : Nat) (second : Bool) (primary ident man ver medium : Nat) : Option Nat :=
  (d.portPartners p).find? (fun i =>
    let x := d.partner i
    decide (x.state ≠ .retired) && x.second == second &&
    (if second then x.ident == ident && x.man == man && x.ver == ver && x.medium == medium else x.primary == primary))

/-- The lowest free index, while the port has room (R282). -/
def Dev.freePartner (d : Dev) (p : Nat) : Option Nat :=
  if 512 ≤ (d.portPartners p).length then none
  else (List.range 4096).find? (fun i => decide ((d.partner i).state = .free))

def Dev.upDisc (d : Dev) (p : Nat) (f : Disc → Disc) : Dev := d.upPort p (fun s => { s with disc := s.disc.map f })

/-- An address answered: a known partner replied, or a new CANDIDATE; `read` tells whether it was read. -/
def Dev.discFound (d : Dev) (p : Nat) (second : Bool) (primary ident man ver medium : Nat) (read : Bool) : Dev :=
  let enrol (d : Dev) (i : Nat) : Dev :=
    if read && d.ppEnrol p == 1 && decide ((d.partner i).state = .candidate) then d.ptEnrol i else d
  let d := (d.upPort p (fun s => { s with dFound := satU 16 (s.dFound + 1) })).upDisc p (fun x => { x with found := x.found + 1 })
  match d.atAddress p second primary ident man ver medium with
  | some i => enrol (d.ptReply i) i
  | none =>
    match d.freePartner p with
    | some i =>
      let d := d.setPartner i { Partner.free with
        port := p, second := second, primary := if second then 0xFF else primary, ident := ident, man := man, ver := ver,
        medium := medium, kind := if d.poModule p = 1 then mediumKind medium else 0 }
      let d := (d.ptState i .candidate).upPartner i (fun x => { x with seen := d.clk.secs })
      enrol (d.upDisc p (fun x => { x with added := x.added ++ [i] })) i
    | none =>
      if (((d.port p).disc.map (fun x => x.full)).getD true) then d
      else (d.upDisc p (fun x => { x with full := true })).logNow 0x084 (orgPort p) [byteOf p]

/-- One address has been probed: the next one, a search below a collision, or the end of the job. -/
def Dev.discNext (d : Dev) (p : Nat) (collide : Bool) : Dev :=
  let d := (d.endTxn p).upPort p (fun s => { s with dProbed := satU 16 (s.dProbed + 1) })
  match (d.port p).disc with
  | none => d
  | some x =>
    let x := { x with probed := x.probed + 1 }
    let (x, d) : Disc × Dev :=
      if x.method = 1 then
        (match x.todo with
         | [] => (x, d)
         | (m, pos) :: t =>
           if !collide then ({ x with todo := t }, d)
           else if pos = 8 then ({ x with todo := t }, d.logNow 0x085 (orgPort p) (leBytes 4 (maskId m)))
           else ({ x with todo := (List.range 10).map (fun k => (m.set pos k, pos + 1)) ++ t }, d))
      else ({ x with next := x.next + 1 }, d)
    if (if x.method = 1 then x.todo.isEmpty else decide (x.last < x.next)) then
      (d.upPort p (fun s => { s with disc := none })).finish x.job .done 0
        (leBytes 2 x.probed ++ leBytes 2 x.found ++ x.added.flatMap (leBytes 2))
    else d.upPort p (fun s => { s with disc := some x })

/-- The start of a DISCOVER job: port, method 0 primary or sweep and 1 secondary search, first and last address. -/
def Dev.startDiscover (d : Dev) (j : Job) : Dev :=
  let p := u8 j.args 0
  let m := u8 j.args 1
  let a := u64 j.args 2
  let b := u64 j.args 10
  let top := if d.poModule p = 1 then 250 else 247
  if 32 ≤ p then d.finish j.num .range 0 []
  else if !d.portBus p then d.finish j.num .denied 0 []
  else if (d.port p).disc.isSome then d.finish j.num .busy 0 []
  else if 1 < m ∨ (m = 1 ∧ d.poModule p ≠ 1) ∨ (m = 0 ∧ (a = 0 ∨ b < a ∨ top < b)) ∨ (m = 1 ∧ b % 2 ^ 32 < a % 2 ^ 32) then
    d.finish j.num .range 0 []
  else
    let x : Disc := { job := j.num, method := m, next := if m = 1 then a % 2 ^ 32 else a, last := if m = 1 then b % 2 ^ 32 else b,
                      todo := if m = 1 then [(List.replicate 8 15, 0)] else [], probed := 0, found := 0, added := [], full := false }
    (d.upPort p (fun s => { s with disc := some x, dProbed := 0, dFound := 0 })).upJob j.num (fun y => { y with stage := 4 })

/-- DISCOVER (R284, R285, opcode 0x0040): port, method, first and last address. -/
def execDiscover (l : Link) (args : List Byte) (st : State) : Host.Outcome State Fault Refusal :=
  .next (st.onDev (fun d => d.execJob l 0x40 args (args.length == 18) false true))

/-! ## Failed frames (R269, R274) -/

/-- A transaction ends in failure: a missed poll, a failed read job, or a relay command to repeat in 10 s. -/
def Dev.txnFailed (d : Dev) (p : Nat) (t : Txn) (qual : Nat) : Dev :=
  let d := d.endTxn p
  let i := t.partner.getD 0
  let missed (d : Dev) : Dev := if (d.partner i).state.polled then d.pollMissed i qual else d
  match t.kind with
  | .poll => (missed d).nextDue i
  | .probe => missed d
  | .readJob j => let (st, d) := ((missed d).nextDue i).freeStatus; d.finish j st 0 []
  | .relay _ _ => d.upPartner i (fun x => { x with coilAt := d.clk.runTick })
  | .discovery => d.discNext p false

/-- A missing or invalid answer: repeated up to RETRIES times; a discovery frame is not repeated. -/
def Dev.frameFailed (d : Dev) (p : Nat) (t : Txn) (qual : Nat) : Dev :=
  let d := d.upPort p (fun s =>
    { s with timeouts := if qual = 0 then satU 32 (s.timeouts + 1) else s.timeouts,
             errors := if qual = 0 then s.errors else satU 32 (s.errors + 1) })
  match t.kind with
  | .discovery =>
    match t.step with
    | .discSelect => if qual = 0 then d.discNext p false else d.discNext p true
    | .discReq =>
      match (d.port p).disc with
      | some x => if x.method = 0 then (d.discFound p false x.next 0 0 0 0 false).discNext p false else d.discNext p false
      | none => d.endTxn p
    | _ => d.discNext p false
  | _ => if t.tries < d.rRetries p then d.setTxn p (some { t with tries := t.tries + 1, sent := false }) else d.txnFailed p t qual

/-- A port's receiver works (10_power R246): nothing is received from the power-fail latch on (R290). -/
def Dev.hears (d : Dev) : Bool := decide (d.pwr.mode = .run ∨ d.pwr.mode = .doze ∨ d.pwr.mode = .nap)

/-- ANSWER_TIMEOUT (R269, R274): no answer began within the timeout. -/
def execAnswerTimeout (p : Nat) (st : State) : Host.Outcome State Fault Refusal :=
  onUnit (decide (p < 32)) "port" st (fun d =>
    match (d.port p).txn with
    | some t => if d.hears && t.sent && decide ((d.port p).dueAt ≤ d.clk.runTick) then d.frameFailed p t 0 else d
    | none => d)

/-! ## Completed reads (R269, R270, R283, R287) -/

/-- The quantities expected of a partner: those its PARTNER elements name and those its bound isle takes. -/
def Dev.expected (d : Dev) (i : Nat) : List Nat :=
  ((List.range 192).filter (fun e => d.elKind e == 4 && d.elArg1 e == i)).map d.elArg2 ++
  (let n := (d.partner i).isle
   if n < 128 then (if d.ilVolSrc n = 2 then [1] else []) ++ (if d.ilType n = 6 ∧ d.ilTempSrc n = 2 ∧
      !(d.isleElems n).any (fun e => d.elKind e == 4) then [3, 4] else []) else [])

/-- The values of a read enter the partner's record; a quantity not found keeps its last value (R270). -/
def Dev.storeVals (d : Dev) (i : Nat) (t : Txn) : Dev :=
  d.upPartner i (fun x =>
    { x with vals := t.vals ++ x.vals.filter (fun v => !t.vals.any (fun w => w.1 == v.1)),
             qtyMiss := t.missing || (d.expected i).any (fun q => q != 0 && !t.vals.any (fun w => w.1 == q)) })

/-- Relay targets of a partner that a read of its state concerns: named by the live image, or held. -/
def Dev.relayInUse (d : Dev) (t : Nat) : Bool :=
  d.relayOpen t || (List.range 128).any (fun n => d.ilType n != 0 && d.ilRelay n == t)

/-- A read completes: the reply counts, values are kept and delivered to the isle it was bound to when it began
(R290), the next due time is set, and a read job ends with the raw reply and the quantities. -/
def Dev.readDone (d : Dev) (p : Nat) (t : Txn) : Dev :=
  let i := t.partner.getD 0
  let d := (d.endTxn p).ptReply i
  let d := d.storeVals i t
  let x := d.partner i
  let d := match t.bound with
    | some n => if x.isle = n ∧ x.state.polled then d.utilityRead n (t.vals.filter (fun v => decide (v.1 ∉ t.sat))) else d
    | none => d
  let d := if t.vals.any (fun v => v.1 == 11) && d.relayInUse (partnerTarget i) then d.relayUpdate (partnerTarget i) 4 else d
  match t.kind with
  | .poll => d.nextDue i
  | .readJob j =>
    (d.nextDue i).finish j .done 0 (t.raw ++ t.vals.flatMap (fun v => byteOf v.1 :: leBytes 8 (twos 64 v.2)))
  | _ => d

/-- A changed identification on primary addressing (R287). -/
def Dev.replaced (d : Dev) (p i ident man ver medium : Nat) : Dev :=
  let x := d.partner i
  if x.second ∨ (x.ident = ident ∧ x.man = man ∧ x.ver = ver) then d
  else
    let d := (d.upPartner i (fun x => { x with ident := ident, man := man, ver := ver, medium := medium, replaced := true })).ptWrite i
    let d := d.reportPartner 0x083 p 0 i (leBytes 2 i ++ leBytes 4 ident) x.ident
    let d := if x.isle < 128 then d.rebase x.isle else d
    if d.ppEnrol p = 0 ∧ x.state.polled then d.ptState i .candidate else d

/-- A valid answer of a partner: counted, the next REQ_UD2 toggles FCB, the backoff ends. -/
def Dev.answered (d : Dev) (p : Nat) (t : Txn) : Dev :=
  let d := d.upPort p (fun s => { s with replies := satU 32 (s.replies + 1) })
  match t.kind with
  | .discovery => d
  | _ => d.endBackoff p

/-- The header of a telegram by its CI: identification, manufacturer, version, medium, access, status, configuration,
and the records behind it (PRESUMED of EN 13757-3: 0x72 long header, 0x7A short, 0x78 none). -/
def mbusHeader (ci : Nat) (b : List Byte) : Option (Nat × Nat × Nat × Nat) × Nat × Nat × Nat × List Byte :=
  if ci = 0x72 then (some (u32 b 0, u16 b 4, u8 b 6, u8 b 7), u8 b 8, u8 b 9, u16 b 10, b.drop 12)
  else if ci = 0x7A then (none, u8 b 0, u8 b 1, u16 b 2, b.drop 4)
  else if ci = 0x78 then (none, 0, 0, 0, b)
  else (none, 0, 0, 0, [])

/-- A valid RSP_UD of a partner being read. -/
def Dev.telegram (d : Dev) (p : Nat) (t : Txn) (ci : Nat) (body raw : List Byte) : Dev :=
  let i := t.partner.getD 0
  let (id, acc, status, conf, data) := mbusHeader ci body
  let d := d.upPartner i (fun x => { x with fcb := !x.fcb, first := false, access := acc, status := status })
  if bitsOf conf 12 8 ≠ 0 then d.txnFailed p t 1
  else
    let d := match id with
      | some (ident, man, ver, med) => if t.telegram = 0 then d.replaced p i ident man ver med else d
      | none => d
    let medium := match id with | some (_, _, _, m) => m | none => (d.partner i).medium
    let (recs, more) := mbusRecs 256 data
    let t : Txn := { t.addRecs medium recs with raw := (t.raw ++ raw).take 4096 }
    if more && decide (t.telegram + 1 < d.poParam p 4) then
      d.setTxn p (some { t.next .reqUd2 with telegram := t.telegram + 1 })
    else d.readDone p t

/-- An answer on an MBUS port. -/
def Dev.mbusAnswer (d : Dev) (p : Nat) (t : Txn) (raw : List Byte) : Dev :=
  let e5 := decide (raw = [0xE5#8])
  let i := t.partner.getD 0
  match t.step with
  | .nke =>
    if e5 then ((d.answered p t).upPartner i (fun x => { x with fcb := true, first := false })).setTxn p (some (t.next .reqUd2))
    else d.frameFailed p t 1
  | .select => if e5 then (d.answered p t).setTxn p (some (t.next .reqUd2)) else d.frameFailed p t 1
  | .discNke | .discSelect => if e5 then (d.answered p t).setTxn p (some (t.next .discReq)) else d.frameFailed p t 1
  | .reqUd2 =>
    (match mbusLong raw with
     | some (_, a, ci, body) =>
       if (d.partner i).second ∨ a = (d.partner i).primary then (d.answered p t).telegram p t ci body raw else d.frameFailed p t 1
     | none => d.frameFailed p t 1)
  | .discReq =>
    (match mbusLong raw, (d.port p).disc with
     | some (_, a, ci, body), some x =>
       let (id, _, _, _, _) := mbusHeader ci body
       let (ident, man, ver, med) := id.getD (0, 0, 0, 0)
       if x.method = 0 ∧ a ≠ x.next then d.frameFailed p t 1
       else
         let d := d.answered p t
         let d := if x.method = 0 then d.discFound p false x.next ident man ver med true
                  else if id.isSome ∧ x.next ≤ ident ∧ ident ≤ x.last then d.discFound p true 0xFF ident man ver med true else d
         d.discNext p false
     | _, _ => d.frameFailed p t 1)
  | _ => d

/-- RSP_UD (R269): an answer's last character on an MBUS port: E5 or a long frame. -/
def execRspUd (p : Nat) (raw : List Byte) (st : State) : Host.Outcome State Fault Refusal :=
  onUnit (decide (p < 32)) "port" st (fun d =>
    match (d.port p).txn with
    | some t => if d.hears ∧ d.poModule p = 1 ∧ t.sent then d.mbusAnswer p t raw else d
    | none => d)

/-- The read state of a relay partner's coil: 1 open (R270, R280). -/
def Dev.coilOpen (d : Dev) (p : Nat) (on : Bool) : Int := if on == bitOf (d.poParam p 10) 0 then 1 else 0

/-- A read-back of a relay command: the state is known; unless it matches, the pair is repeated in 10 s (R280). -/
def Dev.coilDone (d : Dev) (p : Nat) (t : Txn) (target : Nat) : Dev :=
  let i := t.partner.getD 0
  let d := ((d.endTxn p).ptReply i).upPartner i (fun x =>
    { x with vals := t.vals ++ x.vals.filter (fun v => !t.vals.any (fun w => w.1 == v.1)), coilAt := d.clk.runTick })
  if d.relayState target = some (d.relayOpen target) then d.relayUpdate target 4 else d

/-- An answer on an RS485 master port. An exception is a valid reply that leaves its quantity missing (R274). -/
def Dev.modbusIn (d : Dev) (p : Nat) (t : Txn) (raw : List Byte) : Dev :=
  let i := t.partner.getD 0
  let addr := match t.step with | .discModbus => ((d.port p).disc.map (fun x => x.next)).getD 0 | _ => (d.partner i).primary
  let fc : Nat := match t.step with | .coilWrite => 5 | .coilRead => 1 | .modbus m => u8 (d.mapEntry p m) 1 | _ => 3
  let e : List Byte := match t.step with | .modbus m => d.mapEntry p m | _ => d.mapEntry p 0
  let n : Nat := match t.step with | .coilRead => 1 | _ => 2 * u8 e 4
  match modbusParse addr raw with
  | none => d.frameFailed p t 1
  | some (f, data) =>
    let exc := decide (f = fc + 128 ∧ data.length = 1)
    let good := decide (f = fc) && (match t.step with
      | .coilWrite => data.length == 4
      | _ => u8 data 0 == n && data.length == n + 1)
    if !exc && !good then d.frameFailed p t 1
    else
      let d := d.answered p t
      let t : Txn := { t with raw := (t.raw ++ raw).take 4096, missing := t.missing || (exc && decide (t.step ≠ .coilWrite)) }
      match t.step with
      | .modbus m =>
        let t := if exc then t else t.addQty (u8 e 0) (mapValue e (data.drop 1))
        (match (d.maps p).find? (fun k => decide (m < k)) with
         | some k => d.setTxn p (some (t.next (.modbus k)))
         | none => d.readDone p t)
      | .coilWrite => d.setTxn p (some (t.next .coilRead))
      | .coilRead =>
        let t : Txn := if exc then t else { t with vals := [(11, d.coilOpen p (bitOf (u8 data 1) 0))] }
        (match t.kind with
         | .relay target _ => d.coilDone p t target
         | _ => d.readDone p t)
      | .discModbus => (d.discFound p false addr 0 0 0 0 true).discNext p false
      | _ => d

/-- MODBUS_RESPONSE (R274): a response frame ended on an RS485 master port. -/
def execModbusResponse (p : Nat) (raw : List Byte) (st : State) : Host.Outcome State Fault Refusal :=
  onUnit (decide (p < 32)) "port" st (fun d =>
    match (d.port p).txn with
    | some t => if d.hears && d.portMaster p && d.pwr.vdd5p && t.sent then d.modbusIn p t raw else d
    | none => d)

/-! ## Polls (R286, R288) -/

/-- A read of a partner would send no frame: an RS485 partner that is no relay, with no MAP entry (R274). -/
def Dev.emptyRead (d : Dev) (i : Nat) : Bool :=
  let x := d.partner i
  d.poModule x.port == 2 && x.kind != 4 && (d.maps x.port).isEmpty

/-- A partner's poll waits or runs. -/
def Dev.pollWaits (d : Dev) (i : Nat) : Bool :=
  let s := d.port (d.partner i).port
  let runs (t : Option Txn) : Bool := t.any (fun t => decide (t.kind = .poll) && decide (t.partner = some i))
  s.pollQ.any (fun x => x.2.1 == i && decide (x.2.2 = .poll)) || runs s.txn || runs s.susp

/-- POLL_DUE (R286): the first tick of a due second files the poll's request, or later when R266 holds it. -/
def execPollDue (i : Nat) (st : State) : Host.Outcome State Fault Refusal :=
  onUnit (decide (i < 4096)) "partner" st (fun d =>
    let x := d.partner i
    if !d.isLive || !x.state.polled || !d.portBus x.port || decide (d.clk.secs < x.due) || (d.port x.port).backoff ||
       !decide (d.pwr.mode = .run ∨ d.pwr.mode = .doze) || d.pollWaits i then d
    else if d.emptyRead i then d.nextDue i
    else (d.upPort x.port (fun s => { s with pollQ := s.pollQ ++ [(x.due, i, .poll)] })).portFile x.port)

/-- BACKOFF_PROBE (R288): one probe every BACKOFF seconds, round-robin among ENROLLED and SILENT partners. -/
def execBackoffProbe (p : Nat) (st : State) : Host.Outcome State Fault Refusal :=
  onUnit (decide (p < 32)) "port" st (fun d =>
    let s := d.port p
    let l := (d.portPartners p).filter (fun i => decide ((d.partner i).state = .enrolled ∨ (d.partner i).state = .silent))
    if !s.backoff || decide (d.clk.secs < s.probeAt + d.ppBackoff p) || s.pollQ.any (fun x => decide (x.2.2 = .probe)) ||
       !decide (d.pwr.mode = .run ∨ d.pwr.mode = .doze) then d
    else
      match (l.find? (fun i => decide (s.probed < i))).orElse (fun _ => l.head?) with
      | some i =>
        if d.emptyRead i then d.upPort p (fun s => { s with probed := i, probeAt := d.clk.secs })
        else (d.upPort p (fun s => { s with probed := i, probeAt := d.clk.secs, pollQ := s.pollQ ++ [(0, i, .probe)] })).portFile p
      | none => d)

/-! ## Partner commands (R284) -/

/-- The address bytes of PARTNER_ADD: type, then 1 byte or 8 bytes, zero-padded; none where they are no address
of the port. Secondary: identification, manufacturer, version, medium (PRESUMED of EN 13757-3). -/
def Dev.addrOk (d : Dev) (p : Nat) (a : List Byte) : Bool :=
  if u8 a 0 = 0 then decide (1 ≤ u8 a 1 ∧ u8 a 1 ≤ (if d.poModule p = 1 then 250 else 247)) && zeros a 2 7
  else u8 a 0 == 1 && d.poModule p == 1

/-- PARTNER_ADD (R284, opcode 0x0041): port, address, kind, poll period. -/
def execPartnerAdd (l : Link) (args : List Byte) (st : State) : Host.Outcome State Fault Refusal :=
  .next (st.onDev (fun d => d.exec l 0x41 args (args.length == 15) true true (fun _ d =>
    let p := u8 args 0
    let a := sliceB args 1 9
    let kind := u8 args 10
    let period := u32 args 11
    let second := u8 a 0 == 1
    if 32 ≤ p then (.range, [], d)
    else if !d.portBus p || decide (4 < kind) || (kind == 4 && !d.portMaster p) then (.denied, [], d)
    else if !d.addrOk p a || !(period == 0 || decide (10 ≤ period ∧ period ≤ 86400)) then (.range, [], d)
    else if (d.atAddress p second (u8 a 1) (u32 a 1) (u16 a 5) (u8 a 7) (u8 a 8)).isSome then (.range, [], d)
    else match d.freePartner p with
      | none => (.range, [], d)
      | some i =>
        let x : Partner := { Partner.free with port := p, kind := kind, period := period, second := second }
        let x := if second then { x with ident := u32 a 1, man := u16 a 5, ver := u8 a 7, medium := u8 a 8 } else { x with primary := u8 a 1 }
        (.done, leBytes 2 i, (d.setPartner i x).ptEnrol i))))

/-- PARTNER_ENROL (R283, R284, opcode 0x0042). -/
def execPartnerEnrol (l : Link) (args : List Byte) (st : State) : Host.Outcome State Fault Refusal :=
  .next (st.onDev (fun d => d.exec l 0x42 args (args.length == 2) true true (fun _ d =>
    let i := u16 args 0
    let x := d.partner i
    if 4096 ≤ i ∨ ¬ (x.state = .candidate ∨ x.state = .retired) then (.range, [], d)
    else
      match d.atAddress x.port x.second x.primary x.ident x.man x.ver x.medium with
      | some k => if k = i then (.done, [], d.ptEnrol i) else (.range, [], d)
      | none => (.done, [], d.ptEnrol i))))

/-- A partner leaves the polled states: its waiting polls go, and read jobs that wait for it end. -/
def Dev.dropPolls (d : Dev) (i : Nat) : Dev :=
  let p := (d.partner i).port
  let jobs := (d.port p).pollQ.filterMap (fun x => match x.2.2 with | .readJob j => if x.2.1 = i then some j else none | _ => none)
  jobs.foldl (fun d j => d.finish j .range 0 []) (d.upPort p (fun s => { s with pollQ := s.pollQ.filter (fun x => x.2.1 != i) }))

/-- PARTNER_RETIRE (R283, R284, opcode 0x0043): RETIRED, the binding removed. -/
def execPartnerRetire (l : Link) (args : List Byte) (st : State) : Host.Outcome State Fault Refusal :=
  .next (st.onDev (fun d => d.exec l 0x43 args (args.length == 2) true true (fun _ d =>
    let i := u16 args 0
    if 4096 ≤ i ∨ (d.partner i).state = .free then (.range, [], d)
    else (.done, [], (((d.dropPolls i).upPartner i (fun x => { x with isle := 0xFF })).ptState i .retired).ptWrite i))))

/-- A PARTNER element or a RELAY_TARGET of the live image names a partner. -/
def Dev.partnerNamed (d : Dev) (i : Nat) : Bool :=
  (List.range 192).any (fun e => d.elKind e == 4 && d.elArg1 e == i) ||
  (List.range 128).any (fun n => d.ilType n != 0 && d.ilRelay n == partnerTarget i)

/-- No isle's last binding is a deleted entry: a new partner at its index is another one (05_utility_isles R112). -/
def Dev.forgetBound (d : Dev) (i : Nat) : Dev :=
  d.forEach ((List.range 128).filter (fun n => (d.isle n).util.bound == some i)) (fun n d =>
    d.upIsle n (fun s => { s with util := { s.util with bound := none } }))

/-- PARTNER_DELETE (R283, R284, opcode 0x0044). -/
def execPartnerDelete (l : Link) (args : List Byte) (st : State) : Host.Outcome State Fault Refusal :=
  .next (st.onDev (fun d => d.exec l 0x44 args (args.length == 2) true true (fun _ d =>
    let i := u16 args 0
    let x := d.partner i
    if 4096 ≤ i ∨ ¬ (x.state = .candidate ∨ x.state = .retired) then (.range, [], d)
    else if d.partnerNamed i then (.denied, [], d)
    else (.done, [], ((d.ptState i .free).setPartner i .free).forgetBound i))))

/-- PARTNER_BIND (R284, R112, opcode 0x0045): index, isle; 0xFF unbinds. -/
def execPartnerBind (l : Link) (args : List Byte) (st : State) : Host.Outcome State Fault Refusal :=
  .next (st.onDev (fun d => d.exec l 0x45 args (args.length == 3) true true (fun _ d =>
    let i := u16 args 0
    let n := u8 args 2
    let x := d.partner i
    if 4096 ≤ i ∨ x.state = .free ∨ (128 ≤ n ∧ n ≠ 0xFF) then (.range, [], d)
    else if n = 0xFF then (.done, [], (d.upPartner i (fun x => { x with isle := 0xFF })).ptWrite i)
    else if (x.isle ≠ 0xFF ∧ x.isle ≠ n) ∨ d.ilVolSrc n ≠ 2 ∨ ¬ (d.ilType n = 5 ∨ d.ilType n = 6) then (.denied, [], d)
    else
      let d := match d.boundPartner n with
        | some k => if k = i then d else (d.upPartner k (fun x => { x with isle := 0xFF })).ptWrite k
        | none => d
      let d := (d.upPartner i (fun x => { x with isle := n })).ptWrite i
      (.done, [], if (d.isle n).util.bound = some i then d
        else (d.rebase n).upIsle n (fun s => { s with util := { s.util with bound := some i } })))))

/-- PARTNER_SET (R284, opcode 0x0046): index, poll period, kind. -/
def execPartnerSet (l : Link) (args : List Byte) (st : State) : Host.Outcome State Fault Refusal :=
  .next (st.onDev (fun d => d.exec l 0x46 args (args.length == 7) true true (fun _ d =>
    let i := u16 args 0
    let period := u32 args 2
    let kind := u8 args 6
    let x := d.partner i
    if 4096 ≤ i ∨ x.state = .free ∨ ¬ (period = 0 ∨ (10 ≤ period ∧ period ≤ 86400)) ∨ 4 < kind ∨
       (kind = 4 ∧ d.portMaster x.port = false) then (.range, [], d)
    else (.done, [], (d.upPartner i (fun x => { x with period := period, kind := kind })).ptWrite i))))

/-- PARTNER_READ (R284, opcode 0x0047). -/
def execPartnerRead (l : Link) (args : List Byte) (st : State) : Host.Outcome State Fault Refusal :=
  .next (st.onDev (fun d => d.execJob l 0x47 args (args.length == 2) false true))

/-- The start of a PARTNER_READ job: it goes ahead of the due polls of its port. -/
def Dev.startPartnerRead (d : Dev) (j : Job) : Dev :=
  let i := u16 j.args 0
  let x := d.partner i
  if 4096 ≤ i ∨ x.state.polled = false then d.finish j.num .range 0 []
  else if d.emptyRead i then (d.nextDue i).finish j.num .done 0 []
  else (d.upPort x.port (fun s => { s with pollQ := s.pollQ ++ [(0, i, .readJob j.num)] })).upJob j.num (fun y => { y with stage := 4 })

/-! ## Relays (R278 to R280) -/

/-- A RELAY_TARGET that exists: an output of a RELAY port, or a partner of kind RELAY on an RS485 master port. -/
def Dev.targetExists (d : Dev) (t : Nat) : Bool :=
  if targetIsPartner t then
    let x := d.partner (targetPartner t)
    decide (t < 0x8000 + 4096) && decide (x.state ≠ .free) && x.kind == 4 && d.portMaster x.port
  else decide (t < 64) && d.poModule (targetPort t) == 4 && (targetOut t == 0 || d.poParam (targetPort t) 0 == 0)

/-- RELAY_HOLD (R280, opcode 0x0048): target, hold kind 0 host or 1 demand. -/
def execRelayHold (l : Link) (args : List Byte) (st : State) : Host.Outcome State Fault Refusal :=
  .next (st.onDev (fun d => d.exec l 0x48 args (args.length == 3) true true (fun _ d =>
    let t := u16 args 0
    let k := u8 args 2
    if 1 < k ∨ d.targetExists t = false then (.range, [], d)
    else (.done, [], d.relayLater t k false))))

/-- RELAY_RELEASE (R280, R314, opcode 0x0049): target, hold kind 0 host, 1 demand, 2 tamper. -/
def execRelayRelease (l : Link) (args : List Byte) (st : State) : Host.Outcome State Fault Refusal :=
  .next (st.onDev (fun d => d.exec l 0x49 args (args.length == 3) (decide (u8 args 2 < 2)) true (fun sess d =>
    let t := u16 args 0
    let k := u8 args 2
    if 2 < k ∨ d.targetExists t = false then (.range, [], d)
    else if k = 2 ∧ (d.roleOf sess ≠ 0 ∨ d.bak.holds.any (fun h => h.target == t && h.kind == 2 && (d.ledger h.source).raised)) then (.denied, [], d)
    else (.done, [], d.relayLater t k true))))

/-- Feedback of an output is enabled and due (R279). -/
def Dev.feedbackDue (d : Dev) (p o : Nat) : Bool :=
  d.poModule p == 4 && bitOf (d.poParam p 1) (2 + o) && decide ((d.port p).fbAt.getD o 0 ≠ 0) &&
  decide ((d.port p).fbAt.getD o 0 ≤ d.clk.runTick)

/-- RELAY_MISMATCH (R279): the feedback does not show the target; the change is repeated once. -/
def execRelayMismatch (p o : Nat) (st : State) : Host.Outcome State Fault Refusal :=
  onUnit (decide (p < 32) && decide (o < 2)) "relay output" st (fun d =>
    if !d.feedbackDue p o || !decide (d.pwr.mode = .run ∨ d.pwr.mode = .doze) then d
    else
      let s := d.port p
      let t := 2 * p + o
      let d := d.upPort p (fun s => { s with mism := s.mism.set o true, fbAt := s.fbAt.set o 0 })
      let d := d.reportKnot 0x087 (orgPort p) 0 p d.clk.secs d.clk.tick [byteOf p, byteOf o, byteOf (b2n (d.relayOpen t))] 0
      if s.again.getD o false then d
      else (d.upPort p (fun s =>
        { s with again := s.again.set o true, relayQ := s.relayQ.filter (fun x => x.1 != t) ++ [(t, 4)] })).portFile p)

/-- RELAY_FEEDBACK (R279): the feedback matches again; MISMATCH clears. -/
def execRelayFeedback (p o : Nat) (st : State) : Host.Outcome State Fault Refusal :=
  onUnit (decide (p < 32) && decide (o < 2)) "relay output" st (fun d =>
    if d.hears ∧ d.poModule p = 4 ∧ bitOf (d.poParam p 1) (2 + o) ∧ (d.port p).mism.getD o false then
      d.upPort p (fun s => { s with mism := s.mism.set o false, again := s.again.set o false, fbAt := s.fbAt.set o (max 1 d.clk.runTick) })
    else d)

/-- RELAY_COIL_RETRY (R280): 10 s after a pair that left the partner's state different, the pair is repeated. -/
def execRelayCoilRetry (i : Nat) (st : State) : Host.Outcome State Fault Refusal :=
  onUnit (decide (i < 4096)) "partner" st (fun d =>
    let x := d.partner i
    let t := partnerTarget i
    let busy (y : Option Txn) : Bool := y.any (fun y => match y.kind with | .relay u _ => u == t | _ => false)
    if x.kind = 4 ∧ x.state = .enrolled ∧ x.coilAt ≠ 0 ∧ x.coilAt + 160000 ≤ d.clk.runTick ∧ busy (d.port x.port).txn = false ∧
       (d.pwr.mode = .run ∨ d.pwr.mode = .doze) then
      (d.relayUpdate t 4).portFile x.port
    else d)

/-- A change of a port's module or role retires every entry of the port and removes its bindings (R289). -/
def Dev.portModuleChange (d : Dev) (p old new : Nat) : Dev :=
  let l := d.portPartners p
  let n := (l.filter (fun i => decide ((d.partner i).state ≠ .retired))).length
  let d := d.forEach l (fun i d => ((d.dropPolls i).upPartner i (fun x => { x with state := .retired, isle := 0xFF })).ptWrite i)
  d.logNow 0x086 (orgPort p) ([byteOf p, byteOf old, byteOf new, 0#8] ++ leBytes 2 n)

/-! ## Optical port and slave (R275, R281) -/

/-- The requests an optical port answers: /?! and /?ADDRESS! (07 R168). -/
def Dev.optoAsks (d : Dev) (p : Nat) (raw : List Byte) : Bool :=
  let a := (sliceB (d.ent 6 p) 20 32).takeWhile (fun x => x != 0#8)
  let crlf : List Byte := [0x0D#8, 0x0A#8]
  decide (raw = ascii "/?!" ++ crlf) || (!a.isEmpty && decide (raw = ascii "/?" ++ a ++ ascii "!" ++ crlf))

/-- OPTO_REQUEST (R281, 07 R168): the identification message follows after 200 ms. -/
def execOptoRequest (p : Nat) (raw : List Byte) (st : State) : Host.Outcome State Fault Refusal :=
  onUnit (decide (p < 32)) "port" st (fun d =>
    let s := d.port p
    if d.isLive && d.hears && d.poModule p == 5 && s.answer.isEmpty && !s.latch && d.optoAsks p raw then
      (d.upPort p (fun s =>
        { s with opto := .identify, optoBd := 300, optoAt := d.clk.runTick, idleAt := d.clk.runTick + 3200,
                 answer := ascii "/LNW" ++ [byteOf (0x30 + d.poParam p 3)] ++ ascii "TN9192B0" ++ [0x0D#8, 0x0A#8] })).portFile p
    else d)

/-- OPTO_ACKNOWLEDGEMENT (R281, 07 R168, R169): option 0 starts a readout, latched at offset 736; every other
option returns the port to idle at 300 Bd. -/
def execOptoAcknowledgement (p : Nat) (raw : List Byte) (st : State) : Host.Outcome State Fault Refusal :=
  onUnit (decide (p < 32)) "port" st (fun d =>
    if d.isLive ∧ d.hears ∧ d.poModule p = 5 ∧ (d.port p).opto = .identified then
      let z := u8 raw 2 - 0x30
      if raw.length = 6 ∧ u8 raw 0 = 0x06 ∧ u8 raw 1 = 0x30 ∧ 0x30 ≤ u8 raw 2 ∧ z ≤ d.poParam p 3 ∧ u8 raw 3 = 0x30 ∧
         u8 raw 4 = 0x0D ∧ u8 raw 5 = 0x0A then
        d.upPort p (fun s =>
          { s with opto := .readout z, latch := true, optoBd := 300 * 2 ^ z, optoAt := d.clk.runTick, idleAt := d.clk.runTick + 4000 })
      else d.upPort p (fun s => { s with opto := .idle, optoBd := 300 })
    else d)

/-- OPTO_TIMEOUT (R281): the identification has not started within 1,500 ms; the exchange is abandoned. -/
def execOptoTimeout (p : Nat) (st : State) : Host.Outcome State Fault Refusal :=
  onUnit (decide (p < 32)) "port" st (fun d =>
    let s := d.port p
    if d.hears ∧ d.poModule p = 5 ∧ s.opto = .identify ∧ s.optoAt + 24000 ≤ d.clk.runTick then
      (d.upPort p (fun s => { s with opto := .idle, optoBd := 300, answer := [] })).withdraw (.port p)
    else d)

/-- MODBUS_REQUEST (R275): a request ended on an RS485 slave port; its answer is formed from one closed frame. -/
def execModbusRequest (p : Nat) (raw : List Byte) (st : State) : Host.Outcome State Fault Refusal :=
  onUnit (decide (p < 32)) "port" st (fun d =>
    if d.isLive && d.hears && d.portSlave p && d.pwr.vdd5p then
      (d.upPort p (fun s => { s with ask := raw, answer := [] })).portFile p
    else d)

/-- LINE_FAULT (R264): BUS_FAULT of an MBUS port that uses pad A, or an RS485 driver fault. -/
def execLineFault (p : Nat) (on : Bool) (st : State) : Host.Outcome State Fault Refusal :=
  onUnit (decide (p < 32)) "port" st (fun d =>
    if d.isLive ∧ d.hears ∧ (d.poModule p = 2 ∨ (d.poModule p = 1 ∧ bitOf (d.poParam p 5) 1)) then
      d.upPort p (fun s => { s with fault := on })
    else d)

end Sys2Proof.Machine
end

