-- ==== Sys2Proof/Machine/Store.lean ====
section
/-! DEFINITION. The commands of the store (09_store R201 to R228): windows, jobs, saves, the journal, reserve-guarded
writes and the scrubber; and the EVENTS ring (12_events_tamper R295). -/

namespace Sys2Proof.Machine

/-! ## Windows (R203, R205, R207) -/

/-- One WR to the MRAM window: region rules, then one page write (R203, R205). -/
def Dev.wrMram (d : Dev) (l : Link) (addr : Nat) (data : List Byte) : Dev :=
  let n := data.length
  d.transact l 1 (0x10000000 + addr) n data (decide (addr % 8 = 0 ∧ n % 8 = 0 ∧ 8 ≤ n ∧ n ≤ 256)) (decide (addr < 0x4000000))
    (fun _ d =>
      match d.regionAt false addr with
      | none => (.range, [], d)
      | some (c, f) =>
        if c = 18 ∧ 32 < n then (.range, [], d)
        else if !bitOf f 4 then (.denied, [], d)
        else (.done, [], d.pageWrite addr data))

/-- MRAM_WINDOW_WRITE (R203, R205): one page write. -/
def execMramWindowWrite (l : Link) (addr : Nat) (data : List Byte) (st : State) : Host.Outcome State Fault Refusal :=
  .next (st.onDev (fun d => d.wrMram l addr data))

/-- A host write to the working SRAM: whole words, each an update of its 8-byte word and its tile's tag (R207). -/
def Dev.sramWrite (d : Dev) (addr : Nat) (data : List Byte) : Dev :=
  d.mapStore (fun s => { s with sram := memWrite s.sram addr data })

/-- The tiles of a span. -/
def tilesOf (a n : Nat) : List Nat := (List.range ((a + n - 1) / 1024 - a / 1024 + 1)).map (fun i => a / 1024 + i)

/-- The region rule of an SRAM window access: unallocated bytes, then the host flag (R203). -/
def Dev.sramRefusal (d : Dev) (addr n flag : Nat) : Option Status :=
  let tiles := (tilesOf addr n).map (fun t => d.regionAt true (1024 * t))
  if tiles.any (fun r => r.isNone) then some .range
  else if tiles.any (fun r => r.any (fun x => !bitOf x.2 flag)) then some .denied else none

/-! ## STORE_WRITE (R223) -/

/-- The refusal of a store write: shape and unallocated bytes, HOST_WRITE, JOURNAL in the TN3003 area. -/
def Dev.storeRefusal (d : Dev) (addr n journal : Nat) : Option Status :=
  let tiles := (tilesOf addr n).map (fun t => d.regionAt false (1024 * t))
  if addr % 8 ≠ 0 ∨ n % 8 ≠ 0 ∨ n < 8 ∨ 4000 < n ∨ 1 < journal ∨ tiles.any (fun r => r.isNone) then some .range
  else if tiles.any (fun r => r.any (fun x => !bitOf x.2 4)) then some .denied
  else if journal = 1 ∧ tiles.any (fun r => r.any (fun x => x.1 == 18)) then some .denied
  else none

/-- STORE_WRITE (R223, opcode 0x0033): address, length, JOURNAL, data. -/
def execStoreWrite (l : Link) (args : List Byte) (st : State) : Host.Outcome State Fault Refusal :=
  .next (st.onDev (fun d => d.execJob l 0x33 args (decide (9 ≤ args.length) && args.length == 9 + u32 args 4) true true))

/-- The start of a STORE_WRITE job: a plain one writes at its completion, a journaled one waits for the journal. -/
def Dev.startStoreWrite (d : Dev) (j : Job) : Dev :=
  let addr := u32 j.args 0
  match d.storeRefusal addr (u32 j.args 4) (u8 j.args 8) with
  | some st => d.finish j.num st 0 []
  | none =>
    if u8 j.args 8 = 1 then (d.journalSpan addr (j.args.drop 9) (some j.num)).upJob j.num (fun x => { x with stage := 4 }) else d

/-- The pages of a plain store write, in the order written: 32 bytes each in the TN3003 area, 256 elsewhere (R201, R213). -/
def Dev.plainPages (d : Dev) (addr : Nat) (data : List Byte) : List (Nat × List Byte) :=
  (spanPages addr data).flatMap (fun p =>
    if d.inTn p.1 then
      let first := min p.2.length (32 - p.1 % 32)
      let rest := p.2.drop first
      (p.1, p.2.take first) ::
        ((List.range (cdiv rest.length 32)).map (fun i => (p.1 + first + 32 * i, (rest.drop (32 * i)).take 32)))
    else [p])

/-- A plain STORE_WRITE stopped by an abort keeps the pages already written; how many is free (log 3). -/
def Dev.abortStoreWrite (d : Dev) (j : Job) : Dev :=
  let pages := d.plainPages (u32 j.args 0) (j.args.drop 9)
  let (x, d) := d.fresh
  (pages.take (x % max 1 pages.length)).foldl (fun d p => d.pageWrite p.1 p.2) d

/-- A plain STORE_WRITE completes: one page write per page touched, ascending. -/
def Dev.doneStoreWrite (d : Dev) (j : Job) : Dev :=
  (d.plainPages (u32 j.args 0) (j.args.drop 9)).foldl (fun d p => d.pageWrite p.1 p.2) d

/-! ## Saves (R225 to R228) -/

/-- SAVE_NOW (R226, opcode 0x0004): a periodic save falls due at the next frame boundary. -/
def execSaveNow (l : Link) (args : List Byte) (st : State) : Host.Outcome State Fault Refusal :=
  .next (st.onDev (fun d => d.exec l 0x04 args args.isEmpty false true (fun _ d =>
    (.done, [], d.mapStore (fun s => { s with saveAsk := true })))))

/-- The store controller files its next request: a captured save before the journal (R221, R226, R240). -/
def Dev.storeFile (d : Dev) : Dev :=
  if d.store.saveCap.isSome && !d.outstanding .save then d.file .save 2 36 12
  else if !d.store.jqueue.isEmpty && d.store.ring.isEmpty && !d.outstanding .journal &&
      decide (d.pwr.mode = .run ∨ d.pwr.mode = .doze) then d.file .journal 2 36 4
  else d

/-- PERIODIC_SAVE (R226): at offset 736 the running state is captured and its request filed. -/
def execPeriodicSave (st : State) : Host.Outcome State Fault Refusal :=
  .next (st.onDev (fun d =>
    if d.store.saveDue && d.store.saveCap.isNone && d.off == 736 && decide (d.pwr.mode = .run ∨ d.pwr.mode = .doze) then
      let d := d.verifyWork
      let img : SaveImg := { seq := d.nextSave, kind := 0, run := d.captureNow, latch := 0, live := [] }
      (d.mapStore (fun s => { s with saveCap := some img })).storeFile
    else d))

/-- The periodic save's grant has returned: the twin record is complete. Partner records that waited for it follow
(11 R282). -/
def Dev.saveDone (d : Dev) : Dev :=
  match d.store.saveCap with
  | none => d
  | some img =>
    (d.putSave img).mapStore (fun s =>
      { s with saveCap := none,
               saveDue := false, late := false, ptDirty := s.ptLazy.foldl (fun l x => insertNat x l) s.ptDirty, ptLazy := [] })

/-- SAVE_ABANDON (R226): a periodic save not complete by offset 3,199 is abandoned and retried in the next frame. -/
def execSaveAbandon (st : State) : Host.Outcome State Fault Refusal :=
  .next (st.onDev (fun d =>
    match d.store.saveCap with
    | some img =>
      if d.off = 3199 then
        let began := (d.grantOf .save).isSome
        ((if began then d.cutSave img else d).mapStore (fun s => { s with saveCap := none, late := true })).withdraw .save
      else d
    | none => d))

/-! ## The journal (R220 to R222) -/

/-- JOURNAL_TRANSACTION (R221): at its grant the transaction at the head of the queue is prepared in the ring: old and
new image of each page. It commits, applies and releases by the return of the grant. -/
def execJournalTransaction (st : State) : Host.Outcome State Fault Refusal :=
  .next (st.onDev (fun d =>
    match d.store.jqueue with
    | t :: _ =>
      if d.grantedNow .journal && d.store.ring.isEmpty then
        let page (x : Nat × List Byte) : Nat × List Byte × List Byte × Bool :=
          let a := x.1 / 256 * 256
          let old := memRead d.store.mram a 256
          (a, old, patch old (x.1 % 256) x.2, true)
        let e : JEntry := { seq := (d.store.txnSeq + 1) % 2 ^ 32, pos := d.store.jpos, state := 1, pages := t.pages.map page }
        (d.mapStore (fun s =>
          { s with ring := [e], txnSeq := e.seq, jpos := (e.pos + 1 + cdiv e.pages.length 2) % d.ringTiles })).putJournal e
      else d
    | [] => d))

/-- The journal's grant has returned: pages written in ascending order, tiles released; the job of the transaction. -/
def Dev.journalApplied (d : Dev) : Option Nat × Dev :=
  match d.store.ring, d.store.jqueue with
  | e :: _, t :: rest =>
    let d := (e.pages.foldl (fun d p => d.pageWrite p.1 p.2.2.1) (d.putState e 3)).putState e 7
    (t.job, d.mapStore (fun s => { s with ring := [], jqueue := rest }))
  | _, _ => (none, d)

/-- An abort of a journaled job (R132, R223): before the commit the transaction goes and the job stops now (true); after
it the job ends when the apply phase is complete. Whether a prepared transaction has committed is free (log 3). A request
filed for the job's transaction is withdrawn (10_power R240). -/
def Dev.abortJournal (d : Dev) (job : Nat) : Bool × Dev :=
  match d.store.jqueue with
  | [] => (true, d)
  | t :: rest =>
    if t.job = some job ∧ d.store.ring ≠ [] then
      let (x, d) := d.fresh
      if x % 2 = 1 then (false, d)
      else (true, (d.store.ring.foldl (fun d e => d.putState e 0) d).mapStore (fun s => { s with ring := [], jqueue := rest }))
    else
      let d := if t.job = some job then d.withdraw .journal else d
      (true, d.mapStore (fun s => { s with jqueue := s.jqueue.filter (fun t => decide (t.job ≠ some job)) }))

/-- The roll of one interrupted transaction (R222): forward when committed, back when prepared, page by page where its body
tile verifies good; answers the pages lost. -/
def Dev.rollEntry (d : Dev) (e : JEntry) : Nat × Dev :=
  let ps := e.pages.zipIdx.map (fun x => (x.1, x.1.2.2.2 && d.bodyGood e x.2))
  let d := (List.range (cdiv e.pages.length 2)).foldl (fun d k =>
    if d.bodyGood e (2 * k) then d else (d.verifyTile (d.ringTile e (1 + k)) 0 0 orgDev).2) d
  let good := ps.filter (fun x => x.2)
  if e.state = 3 then
    ((ps.filter (fun x => !x.2)).length, (good.foldl (fun d x => d.pageWrite x.1.1 x.1.2.2.1) d).putState e 7)
  else (0, (good.foldl (fun d x => d.pageWrite x.1.1 x.1.2.1) d).putState e 0)

/-- The journal replay of a power-up (R222), logged when any transaction was rolled; one whose header tile fails is left. -/
def Dev.replayJournal (d : Dev) : Dev :=
  let l := d.store.ring.filter (fun e => d.tilesGood (d.ringTile e 0) 1)
  let d := (d.store.ring.filter (fun e => !d.tilesGood (d.ringTile e 0) 1)).foldl (fun d e => (d.verifyTile (d.ringTile e 0) 0 0 orgDev).2) d
  let f := (l.filter (fun e => e.state == 3)).length
  let b := (l.filter (fun e => e.state == 1)).length
  let (lost, d) := l.foldl (fun (x : Nat × Dev) e => let (n, d) := x.2.rollEntry e; (x.1 + n, d)) (0, d)
  let d := d.mapStore (fun s => { s with ring := [], jqueue := [], fwd := satU 16 f, back := satU 16 b, replayed := decide (f + b ≠ 0) })
  if f + b = 0 then d else d.logNow 0x073 orgDev (leBytes 2 f ++ leBytes 2 b ++ leBytes 2 lost)

/-! ## Reserve-guarded writes (R219) -/

/-- The writer code of EV_RESERVE_REFUSED. -/
def RgWrite.writer : RgWrite → Nat
  | .sealRec => 2 | .sleepSave => 3 | _ => 1

/-- What a refused write leaves: seal records and re-splits are retried at every frame boundary, a refused SLEEP entry
is NAP (10 R252), a job ends with ST_NO_DRAW. -/
def Dev.rgRefused (d : Dev) (w : RgWrite) : Dev :=
  match w with
  | .sealRec => d.mapTam (fun t => { t with sealTry := true })
  | .resplit =>
    (d.mapVault (fun v => { v with rspPend := true })).report 0x0AA orgDev 0 (leBytes 4 d.vault.resplit)
  | .sleepSave => d.mapPwr (fun p => { p with sleepReq := true })
  | .counter j | .authority j | .keys j => d.finish j .noDraw 0 []
  | .slots _ => d

/-- RESERVE_GUARDED_WRITE (R219): at its class 0 grant the reservoir is checked; VRES as the write leaves it. -/
def execReserveGuardedWrite (vresAfter : Nat) (st : State) : Host.Outcome State Fault Refusal :=
  .next (st.onDev (fun d =>
    match d.store.rgq with
    | w :: rest =>
      if d.grantedNow .reserveWrite && d.store.rgRun.isNone then
        if reserveOk d.pwr.vres then
          (d.mapStore (fun s => { s with rgq := rest, rgRun := some w })).mapPwr (fun p => { p with vres := min p.vres vresAfter })
        else
          let d := d.mapStore (fun s => { s with rgq := rest, nRef := satU 32 (s.nRef + 1) })
          let d := d.mapPwr (fun p => { p with grants := p.grants.map (fun g =>
            if g.who = .reserveWrite then { g with until_ := d.clk.runTick + 1 } else g) })
          let d := d.report 0x072 orgDev 0 ([byteOf w.writer, 0#8, 0#8, 0#8] ++ leBytes 4 (eRes d.pwr.vres).floor.toNat)
          d.rgRefused w
      else d
    | [] => d))

/-- A reserve-guarded write that waits has its request outstanding. -/
def Dev.rgFile (d : Dev) : Dev :=
  match d.store.rgq with
  | w :: _ => if d.store.rgRun.isNone then d.file .reserveWrite 0 40 (match w with | .sleepSave => 16 | _ => 2) else d
  | [] => d

/-! ## EVENTS (12 R295) -/

/-- Twin records of the EVENTS ring: 31 event records each. -/
def Dev.eventRings (d : Dev) : Nat := max 1 (d.regionSize 13 / 2048)

/-- Records logged in the frame are written in its open offsets; a full ring loses its oldest twin record. -/
def Dev.flushEvents (d : Dev) : Dev :=
  let l := d.run.unwritten
  if decide (736 ≤ d.off) && d.isLive && !l.isEmpty then
    let n := d.eventRings
    let newest := ((l.getLast?.map (fun r => r.seq)).getD 1 - 1) / 31
    let all := d.store.events ++ l
    let held := all.filter (fun r => decide (newest < (r.seq - 1) / 31 + n ∨ newest < (r.seq - 1) / 31))
    let d := (d.mapRun (fun r => { r with unwritten := [] })).mapStore (fun s => { s with events := held })
    let groups := (l.map (fun r => (r.seq - 1) / 31)).dedup
    d.forEach groups (fun g d =>
      d.twWrite 13 (g % n) (g % n) [(held.filter (fun r => (r.seq - 1) / 31 == g)).flatMap EventRec.bytes])
  else d

/-- The records held: those of the ring, then those that wait in the running state. -/
def Dev.heldEvents (d : Dev) : List EventRec := d.store.events ++ d.run.unwritten

/-! ## Scrubbing (R208, R218) -/

/-- The regions that hold twin records. -/
def twinRegion (code : Nat) : Bool := decide (code ∈ [6, 7, 9, 10, 12, 13, 14, 15])

/-- The record that the tile at an offset of a twin region belongs to: its parts, its first tile and its number (R215, R230). -/
def twRecordAt (code off : Nat) : Nat × Nat × Nat :=
  if code = 14 then (7, off / 7 * 7, off / 7) else if code = 15 then (2, off / 2 * 2, off / 2) else (1, off, off)

/-- A twin record with a bad or torn copy is rewritten from the valid one (R208); a conflict of two is settled (R218). -/
def Dev.scrubTwin (d : Dev) (code off : Nat) : Dev :=
  let s := d.store
  if code = 6 then
    match off with
    | 0 => d.mendCopies 6 0 0 1 s.liveRec livePayload (fun t s => { s with liveRec := t })
    | 1 => d.mendCopies 6 1 1 1 s.standRec standPayload (fun t s => { s with standRec := t })
    | 2 => d.mendCopies 6 2 2 1 s.calRec calPayload (fun t s => { s with calRec := t })
    | 3 => d.mendCopies 6 3 3 1 s.timeRec timePayload (fun t s => { s with timeRec := t })
    | _ => d
  else if code = 7 then
    if off < 8 then d.mendCopies 7 0 0 8 s.calibRec calibPayload (fun t s => { s with calibRec := t }) else d
  else if code = 10 then d.mendCopies 10 0 0 272 s.accum SaveImg.payloads (fun t s => { s with accum := t })
  else
    let (parts, t0, r) := twRecordAt code off
    (d.settleRecord code t0 r parts).mendRecord code t0 r parts

/-- ORIGIN of a failing MRAM tile (R210): the isle whose data the tile alone holds, else the archipelago. -/
def Dev.tileOrigin (d : Dev) (tile : Nat) : Nat :=
  match d.map.find? (fun (_, f, b, z) => !bitOf f 0 && decide (b ≤ 1024 * tile) && decide (1024 * tile < b + z)) with
  | none => orgDev
  | some (code, _, b, z) =>
    let off := tile - b / 1024
    let half := max 1 (z / 2048)
    if code = 14 then (if off % half / 7 < 128 then orgIsle (off % half / 7) else orgDev)
    else if code = 15 then (if off % half / 48 < 128 then orgIsle (off % half / 48) else orgDev)
    else if code = 17 then
      ((d.profIsles.find? (fun n => decide (d.profAddr n 0 / 1024 ≤ tile ∧ tile < d.profAddr n 0 / 1024 + d.profTiles))).map orgIsle).getD orgDev
    else orgDev

/-- SCRUB (R208): the scrubber verifies a tile; a twin record with a bad or torn copy is rewritten from the valid one. -/
def execScrub (sram : Bool) (tile : Nat) (st : State) : Host.Outcome State Fault Refusal :=
  onUnit (decide (tile < if sram then 8192 else 65536)) "tile" st (fun d =>
    if !decide (d.pwr.mode = .run ∨ d.pwr.mode = .doze) || decide (d.off < 736) then d
    else if sram then (d.verifySram tile 3 0 orgDev).2
    else
      match d.map.find? (fun (_, f, b, z) => !bitOf f 0 && decide (b ≤ 1024 * tile) && decide (1024 * tile < b + z)) with
      | none => d
      | some (code, _, b, z) =>
        if code = 18 then d
        else
          let d := (d.verifyTile tile 3 0 (d.tileOrigin tile)).2
          if twinRegion code then
            let half := z / 2048
            d.scrubTwin code ((tile - b / 1024) % max 1 half)
          else d)

end Sys2Proof.Machine
end

