-- ==== Sys2Proof/Machine/Legal.lean ====
section
/-! DEFINITION. Shadow sets, image jobs and splices (01_archipelago R24, R30, 07_legal_readout R163, R164,
08_structure_image R187 to R198). -/

namespace Sys2Proof.Machine

/-! ## COMMIT, ABANDON, ABORT (01 R24, R30) -/

/-- A table with another's entries put over it. -/
def overlay (base top : Tab Word) : Tab Word :=
  top.foldl (fun t e => (t.filter (fun x => decide (x.1 < e.1))) ++ e :: (t.filter (fun x => decide (e.1 < x.1)))) base

/-- COMMIT (R24, opcode 0x0001): the shadow set joins the frozen set, later values winning. -/
def execCommit (l : Link) (args : List Byte) (st : State) : Host.Outcome State Fault Refusal :=
  .next (st.onDev (fun d => d.exec l 0x01 args args.isEmpty false true (fun _ d =>
    (.done, [], d.mapLink (fun k => { k with frozen := some (overlay (k.frozen.getD []) k.shadow), shadow := [] })))))

/-- ABANDON (R24, opcode 0x0002): the unfrozen shadow set is discarded. -/
def execAbandon (l : Link) (args : List Byte) (st : State) : Host.Outcome State Fault Refusal :=
  .next (st.onDev (fun d => d.exec l 0x02 args args.isEmpty false true (fun _ d =>
    (.done, [], d.mapLink (fun k => { k with shadow := [] })))))

/-- ABORT (R30, opcode 0x0003): the request is latched for the tick boundary, and its response waits for it. -/
def execAbort (l : Link) (args : List Byte) (st : State) : Host.Outcome State Fault Refusal :=
  .next (st.onDev (fun d =>
    let e := d.exec l 0x03 args (args.length == 2) false false (fun _ d =>
      (.done, [], d.mapLink (fun k => { k with aborts := k.aborts ++ [u16 args 0] })))
    if d.link.aborts.length < e.link.aborts.length then e.mapLink (fun k => { k with resp := none }) else e))

/-! ## The frozen set at a frame boundary (R24, R163, R164) -/

/-- Whether an address is an LK register. -/
def isLk (a : Nat) : Bool := decide ((regAcc a).1 = .lk)

/-- The calibration record and digest under the live legal digest (R164, R165). -/
def Dev.writeCalib (d : Dev) : Dev :=
  let d := d.mapImg (fun i => { i with calDig := d.calDigest })
  d.putCalibRecord (d.legalDigest, d.regs.filter (fun e => isLk e.1))

/-- The frozen set takes effect; its LK values apply only with the seal open and no FREEZE (R163). -/
def Dev.applyFrozen (d : Dev) : Dev :=
  match d.link.frozen with
  | none => d
  | some l =>
    let d := d.mapLink (fun k => { k with frozen := none })
    let lk := l.filter (fun e => isLk e.1)
    let d := (l.filter (fun e => !isLk e.1)).foldl (fun d e => d.setReg e.1 e.2) d
    if lk.isEmpty then d
    else if d.sealOpen && !d.tam.freeze then
      if lk.all (fun e => decide (d.reg e.1 = e.2)) then d
      else
        let old := d.img.calDig
        let d := lk.foldl (fun d e => d.setReg e.1 e.2) d
        let d := (d.mapTam (fun t => { t with calCnt := satU 32 (t.calCnt + 1) })).writeCalib
        d.logNow 0x053 orgDev (sliceB old 0 4 ++ sliceB d.img.calDig 0 4)
    else d.logNow 0x052 orgDev (leBytes 2 lk.length ++ [byteOf (flagAt 0 (!d.sealOpen) + flagAt 1 d.tam.freeze)])

/-! ## Splices at a frame boundary (R196 to R198) -/

/-- The port registers that a PORT entry sets (11 R264). -/
def portRegs (p : Nat) (e : List Byte) : List (Nat × Nat) :=
  let retries := if u8 e 0 = 1 then u8 e 19 else if u8 e 0 = 2 then u8 e 21 else 0
  [(0x30004 + 0x40 * p, u32 e 4), (0x3000C + 0x40 * p, u32 e 8 + 2 ^ 24 * retries)]

/-- A port's volatile state when its module starts anew. -/
def PortSt.restart (s : PortSt) : PortSt :=
  { s with txn := none, susp := none, relayQ := [], pollQ := [], backoff := false, missed := [], opto := .idle, optoBd := 300,
           latch := false, answer := [], ask := [], disc := none, fault := false, mism := [false, false], again := [false, false],
           fbAt := [0, 0] }

/-- Read jobs and a discovery of a port whose module changes end: their partners are retired (R289). -/
def Dev.endPortJobs (d : Dev) (p : Nat) : Dev :=
  let s := d.port p
  let job (t : Option Txn) : List Nat := match t with | some x => (match x.kind with | .readJob j => [j] | _ => []) | none => []
  let l := job s.txn ++ job s.susp ++ s.pollQ.filterMap (fun x => match x.2.2 with | .readJob j => some j | _ => none) ++
    (match s.disc with | some x => [x.job] | none => [])
  l.foldl (fun d j => d.finish j .aborted 0 []) d

/-- A PORT entry takes effect (R289): registers, and a change of module or role. -/
def Dev.portEntry (d : Dev) (p : Nat) (old new : List Byte) : Dev :=
  let d := d.setRegs (portRegs p new)
  if u8 old 0 = u8 new 0 ∧ (u8 new 0 ≠ 2 ∨ u8 old 18 = u8 new 18) then d
  else ((d.endPortJobs p).portModuleChange p (u8 old 0) (u8 new 0)).upPort p PortSt.restart

/-- The origin of EV_SPLICE: lane, isle, port or device (R198, 12 R294). -/
def spOrigin (sec i : Nat) : Nat := if sec = 1 then orgLane i else if sec = 4 then orgIsle i else if sec = 6 then orgPort i else orgDev

/-- A splice takes effect: the entry, its registers, the close of intervals, the event, its job's completion. -/
def Dev.applySplice (d : Dev) (r : List Byte) (job : Nat) : Dev :=
  match d.img.live with
  | none => d
  | some l =>
    let sec := spSection r
    let i := spIndex r
    let old := sliceB l.bytes (spOffset l.bytes sec i) (spLength sec)
    let sp := newestSplices (l.splices.filter (fun q => !spSame q r) ++ [r])
    let d := d.mapImg (fun m => { m with live := some { l with bytes := spliced l.bytes r, splices := sp,
                                                               digest := runningDigest l.base sp } })
    let new := spEntry r
    let d := if sec = 1 then d.laneChange i (u32 old 0) (u32 new 0)
      else if sec = 4 then
        ((d.syncLeak i (d.clk.secs / 3600 + 1)).setRegs ((imageRegs d.image).filter (fun x =>
          x.1 == 0x20004 + 0x20 * i || x.1 == 0x20010 + 0x20 * i || x.1 == 0x20014 + 0x20 * i))).upIsle i
          (fun s => { s with dem := { s.dem with cut := true } })
      else if sec = 6 then d.portEntry i old new
      else d.mapDsp (fun s => { s with dirty := true, item := if s.item < d.listCount s.list then s.item else 0 })
    (d.logNow 0x061 (spOrigin sec i) (leBytes 4 (spSeq r) ++ [byteOf sec] ++ leBytes 2 i)).finish job .done 0 []

/-- A PORT splice waits while the port has a bus frame or transaction in progress (R196, 11 R290). -/
def Dev.spReady (d : Dev) (r : List Byte) : Bool :=
  spSection r != 6 || ((d.port (spIndex r)).txn.isNone && (d.port (spIndex r)).susp.isNone && (d.grantOf (.port (spIndex r))).isNone)

/-- Insert a pending record by section and index. -/
def insertPend (x : List Byte × Nat) : List (List Byte × Nat) → List (List Byte × Nat)
  | [] => [x]
  | y :: t =>
    if spSection x.1 * 65536 + spIndex x.1 ≤ spSection y.1 * 65536 + spIndex y.1 then x :: y :: t else y :: insertPend x t

/-- The pending splices of a frame boundary, ascending in section code and index (R196). -/
def Dev.applySplices (d : Dev) : Dev :=
  let go := (d.img.pending.filter (fun x => d.spReady x.1)).foldr insertPend []
  let d := d.mapImg (fun m => { m with pending := m.pending.filter (fun x => decide (x ∉ go)) })
  go.foldl (fun d x => d.applySplice x.1 x.2) d

/-! ## Image jobs (R190, R194) -/

/-- IMAGE_WRITE (R190, opcode 0x0030): slot, slot offset, data. -/
def execImageWrite (l : Link) (args : List Byte) (st : State) : Host.Outcome State Fault Refusal :=
  .next (st.onDev (fun d => d.execJob l 0x30 args (decide (5 ≤ args.length)) true false))

/-- The live slot. -/
def Dev.liveSlot (d : Dev) : Option Nat := d.img.live.map (fun l => l.slot)

/-- The start of an IMAGE_WRITE job. -/
def Dev.startImageWrite (d : Dev) (j : Job) : Dev :=
  let s := u8 j.args 0
  let o := u32 j.args 1
  let data := j.args.drop 5
  if 1 < s ∨ o % 8 ≠ 0 ∨ 0x140000 ≤ o ∨ 4000 < data.length ∨ 0x140000 < o + data.length then d.finish j.num .range 0 []
  else if d.liveSlot = some s then d.finish j.num .denied 0 []
  else if d.link.jobs.any (fun x => x.op == 0x31 && decide (x.phase = .running) && u8 x.args 0 == s) then d.finish j.num .busy 0 []
  else if data.isEmpty then d.finish j.num .done 0 []
  else (d.journalSpan (slotBase s + o) data (some j.num)).upJob j.num (fun x => { x with stage := 4 })

/-- IMAGE_LOAD (R190, opcode 0x0031): the slot that is not live. -/
def execImageLoad (l : Link) (args : List Byte) (st : State) : Host.Outcome State Fault Refusal :=
  .next (st.onDev (fun d => d.execJob l 0x31 args (args.length == 1) true false))

/-- The class 3 operations of an image check: SHA-256 per 4 KiB, two signatures (10 R240). -/
def Dev.checkNeeds (d : Dev) (s : Nat) : List (Nat × Nat) :=
  List.replicate (cdiv (d.slotBytes s).length 4096) (4, 64) ++ [(96, 64), (96, 64)]

/-- The start of an IMAGE_LOAD job: the checks need draw. -/
def Dev.startImageLoad (d : Dev) (j : Job) : Dev :=
  let s := u8 j.args 0
  if 1 < s then d.finish j.num .range 0 []
  else if d.liveSlot = some s then d.finish j.num .denied 0 []
  else d.upJob j.num (fun x => { x with stage := 3, needs := d.checkNeeds s })

/-- Set the reason found for a slot (R192). -/
def Dev.setReason (d : Dev) (s r : Nat) : Dev :=
  d.mapImg (fun m => if s = 0 then { m with reasonA := r } else { m with reasonB := r })

/-- The result of an IMAGE_LOAD job: the first check that fails, or the reload at the next frame boundary. -/
def Dev.doneImageLoad (d : Dev) (j : Job) : Dev :=
  let s := u8 j.args 0
  match d.slotBad s with
  | some r => (d.setReason s r.1).finish j.num (rejectStatus r) (rejectWord r) []
  | none => (d.setReason s 0).finish j.num .done 0 []

/-- SPLICE (R194, opcode 0x0032): one record. -/
def execSplice (l : Link) (args : List Byte) (st : State) : Host.Outcome State Fault Refusal :=
  .next (st.onDev (fun d => d.execJob l 0x32 args (args.length == 1024) true true))

/-- The start of a SPLICE job: hash and signature need draw. -/
def Dev.startSplice (d : Dev) (j : Job) : Dev :=
  d.upJob j.num (fun x => { x with stage := 3, needs := [(4, 64), (96, 64)] })

/-- A SPLICE record's checks have their draw: it fails, or is appended to the live slot's log by journaled write. -/
def Dev.checkedSplice (d : Dev) (j : Job) : Dev :=
  match d.spliceBad j.args, d.liveSlot with
  | some st, _ => d.finish j.num st 0 []
  | none, some s =>
    (d.journalSpan (logAddr s (d.logPlace s j.args)) (j.args.take 1024) (some j.num)).upJob j.num (fun x => { x with stage := 4 })
  | none, none => d.finish j.num .busy 0 []

/-- The record is written: it is pending, and an earlier pending record of its target is freed with its job (R194). -/
def Dev.pendSplice (d : Dev) (j : Job) : Dev :=
  let r := j.args
  let old := d.img.pending.filter (fun x => spSame x.1 r)
  let d := old.foldl (fun d x => (d.freeSplice x.1).finish x.2 .aborted 0 []) d
  d.mapImg (fun m =>
    { m with pending := m.pending.filter (fun x => !spSame x.1 r) ++ [(r, j.num)], spliceSeq := max m.spliceSeq (spSeq r) })

/-- An ABORT of a pending splice frees its record (R196). -/
def Dev.abortSplice (d : Dev) (j : Job) : Dev :=
  ((d.img.pending.filter (fun x => x.2 == j.num)).foldl (fun d x => d.freeSplice x.1) d).mapImg (fun m =>
    { m with pending := m.pending.filter (fun x => x.2 != j.num) })

end Sys2Proof.Machine
end

