-- ==== Sys2Proof/Machine/Boundary.lean ====
section
/-! DEFINITION. The frame boundary (01_archipelago R19, R23, 06_billing R155) and the slices of a frame run at once, for
frames that passed asleep (10_power R250, R251) and at power-up (R22, R156, R158). -/

namespace Sys2Proof.Machine

/-! ## Step 2 of R23 -/

/-- Step 2 at a frame boundary: the trims of the visit that ended, the committed shadow set, then pending splices; a reload
at this boundary frees the splices of its slot instead (R23, R24, 02 R51, 08 R190, R196). -/
def Dev.stepTwo (d : Dev) : Dev :=
  let d := d.endVisit.applyFrozen
  (if d.img.reload.isSome then d else d.applySplices).mapClk (fun c => { c with step2 := true })

/-! ## A frame closed at once -/

/-- The slices of frame F from an offset on, in their order (R19, R22). `events` runs the isle events slices; `late`
marks snapshots taken after a power-up (06 R150). -/
def Dev.runSlices (d : Dev) (start : Nat) (events late : Bool) : Dev :=
  let isles := List.range 128
  let from_ (base : Nat) : List Nat := isles.filter (fun n => decide (start ≤ base + n))
  let d := if start ≤ 80 then d.closeStraits else d
  let d := d.forEach (from_ 80) (fun n d => d.closeIsle n)
  let d := d.forEach (from_ 208) (fun n d => d.demandSlice n (d.isle n).cfgF.warn (d.isle n).cfgF.trip)
  let d := if events then d.forEach (from_ 336) (fun n d => d.isleEvents n) else d
  let d := if start < 480 then d.expireKnots.releaseNotices else d
  let d := d.forEach (from_ 480) (fun n d => d.profileSlice n)
  let d := d.forEach (from_ 608) (fun n d => d.billingSlice n late)
  d.mapRun (fun r => { r with open_ := false, off := 736 })

/-- Evaluate the boundary at device time `t` that ends frame `frame`, and run every slice of that frame. -/
def Dev.closeAt (d : Dev) (frame t : Nat) (interrupted events : Bool) : Dev :=
  let (s, k) := ofTicks t
  let now := (d.clk.secs, d.clk.tick)
  let d := (d.mapClk (fun c => { c with secs := s, tick := k })).evalBoundary interrupted
  let d := d.latchViews
  let d := d.mapRun (fun r => { r with frame := frame, endS := s, endT := k, cut := interrupted })
  let d := d.runSlices 0 events interrupted
  (d.mapClk (fun c => { c with secs := now.1, tick := now.2 })).mapRun (fun r => { r with cut := false })

/-! ## Frames that passed in NAP or SLEEP (R250, R251) -/

/-- The bank of a slept frame of a utility isle: what its pulses and reads brought stays, none of its ticks is metered. -/
def Bank.unmetered (b : Bank) : Bank :=
  { Bank.zero with vol := b.vol, rev := b.rev, heatJ := b.heatJ, coolJ := b.coolJ, spread := b.spread, revNz := b.revNz,
                   revEnd := b.revEnd }

/-- The banks of a slept frame: every tick metered with zero energy, or none metered (R250, R251); the frame in which the
device fell asleep keeps the energy it metered, unless it is unmetered. Pulses and reads of NAP enter their own frame (05
R110, R111). -/
def Dev.sleptBanks (d : Dev) (frame : Nat) (metered : Bool) : Dev :=
  d.forEach ((List.range 128).filter (fun n => d.ilType n != 0)) (fun n d =>
    (d.joinAsleep n frame).upBank n (frame % 2 == 1) (fun b => if metered then { b with nm := 3200 } else b.unmetered))

/-- No strait, element or window works asleep: what frame F's views tell of them (03 R79), and DEAD_PCT (01 R20). -/
def Dev.sleptViews (d : Dev) : Dev :=
  { d with
    straits := d.straits.map (fun (e : Nat × StraitSt) => (e.1, { e.2 with activeF := false })),
    elems := d.elems.map (fun (e : Nat × ElemSt) => (e.1, { e.2 with activeF := e.2.activeF && d.elKind e.1 == 4 })),
    run := { d.run with deadF := d.deadPct } }

/-- Metering starts or goes on at the boundary being worked: half cycles count from it, the rotation starts a cycle (06 R158, 04
R100, 02 R49). -/
def Dev.resumed (d : Dev) : Dev :=
  let d := d.forEach d.tickStraits (fun s d => d.upStrait s (fun x => { x with halfAt := d.clk.runTick, halfK := 0 }))
  (d.mapImg (fun i => { i with resume := false, reloaded := false, meter := true })).startCycle

/-- The records that ended while the device did not meter wait for their slices; no interval carries energy over (06 R158). -/
def Dev.resumeWork (d : Dev) : Dev :=
  d.forEach ((List.range 128).filter (fun n => d.ilType n != 0)) (fun n d => d.upIsle n (fun i =>
    { i with quanta := [], dem := { i.dem with due := none, cur := [0, 0, 0] } }))

/-- A boundary that passed asleep before metering resumed: it is evaluated and its records are worked. -/
def Dev.resumeAsleep (d : Dev) (frame t : Nat) : Dev :=
  let (s, k) := ofTicks t
  let now := (d.clk.secs, d.clk.tick)
  let d := ((d.mapClk (fun c => { c with secs := s, tick := k })).evalBoundary false).resumeWork.resumed
  let d := (d.mapRun (fun r => { r with frame := frame, endS := s, endT := k })).runSlices 465 true false
  d.mapClk (fun c => { c with secs := now.1, tick := now.2 })

/-- Close every frame that ended since frame F was closed, in order (R251), metered with zero energy or unmetered
(R250). Outstanding slices of frame F come first; what waits for a frame boundary applies at the first one (01 R23). -/
def Dev.closeSlept (d : Dev) (metered : Bool) : Dev :=
  let d := if d.run.open_ then d.runSlices d.run.off true false else d
  let first := d.run.frame + 1
  let n := d.clk.frameNo - first
  let start := d.timeTicks - d.off
  if !d.isLive then d.mapRun (fun r => { r with frame := d.clk.frameNo - 1 })
  else
    let d := if n = 0 ∨ d.clk.step2 = true then d else d.stepTwo
    (List.range n).foldl (fun d i =>
      let t := start - 3200 * (n - 1 - i)
      if d.resuming then d.resumeAsleep (first + i) t
      else
        let d := ((d.sleptBanks (first + i) (metered && d.img.meter)).sleptViews).latchTemps
        let d := if d.img.reloaded then d.resumed else d
        d.closeAt (first + i) t false true) d

/-- The lanes restart as at a change of mode (R250, 02 R44). -/
def Dev.restartLanes (d : Dev) : Dev :=
  d.forEach ((List.range 200).filter (fun n => d.converting n)) (fun n d =>
    let w := d.settings n
    d.laneChange n (w - laneMode w) w)

/-! ## FRAME_BOUNDARY (R19) -/

/-- Saves due at the running boundary (09_store R226). -/
def Dev.dueSaves (d : Dev) : Dev :=
  let timed := decide (d.clk.tick = 0 ∧ d.clk.secs % (60 * max 1 d.saveMin) = 0)
  d.mapStore (fun s => { s with saveDue := s.saveDue || (d.isLive && (timed || s.saveAsk)), saveAsk := false })

/-- Reserve-guarded writes that were refused are retried (07 R161, 13 R332, R335). -/
def Dev.retryGuarded (d : Dev) : Dev :=
  let waits (f : RgWrite → Bool) : Bool := d.store.rgq.any f || d.store.rgRun.any f
  let d := if d.tam.sealTry then (d.mapTam (fun t => { t with sealTry := false })).guarded .sealRec else d
  let d := if d.vault.rspPend && d.vault.trngOk && !waits (fun w => w == .resplit) then d.guarded .resplit else d
  if d.bak.wipe ≠ 0 ∧ !waits (fun w => match w with | .slots _ => true | _ => false) then d.guarded (.slots d.bak.wipe) else d

/-- Counters of the bank parity that the new frame reuses, and windows older than frame F (02 R45, 04 R16). -/
def Dev.newParity (d : Dev) : Dev :=
  let odd := d.clk.frameNo % 2 == 1
  let d := d.forEach (d.lanes.map (fun e => e.1)) (fun n d => d.upLane n (fun l =>
    if odd then { l with ovrOdd := 0, estOdd := false } else { l with ovrEven := 0, estEven := false }))
  d.forEach (d.straits.map (fun e => e.1)) (fun s d => d.upStrait s (fun x =>
    { x with closed := x.closed.filter (fun w => decide (d.run.frame ≤ w.frame)) }))

/-- The work of offset 0: step 2 where it is not applied yet, the wall-clock boundaries, and what starts with a frame. -/
def Dev.frameBoundary (d : Dev) : Dev :=
  let d := if d.clk.step2 then d else d.stepTwo
  let d := d.mapClk (fun c => { c with evald := true })
  let s := d.clk.secs
  let k := d.clk.tick
  let resume := d.resuming
  let d := if d.img.reloaded then d.resumed else d
  let d := if d.isLive then d.evalBoundary false else d
  let d := if resume then d else d.latchViews
  let d := d.mapRun (fun r =>
    { r with frame := d.clk.frameNo - 1, open_ := true, off := if resume then 464 else 1, endS := s, endT := k, cut := false })
  let d := if resume then d.resumeWork.resumed else d
  let d := if d.isLive then d.reclose.serveLanes.visitFrame.testFrame else d
  d.retryGuarded.dueSaves.newParity

/-- The frame boundary is due: offset 0, once, awake. -/
def Dev.frameDue (d : Dev) : Bool := d.off == 0 && !d.clk.evald && decide (d.pwr.mode = .run ∨ d.pwr.mode = .doze)

/-- FRAME_BOUNDARY (R19): at offset 0 of a frame, once; asleep and in a check frame the frames are closed later. It is part
of the boundary, so reads of the tick see what it leaves (R23). -/
def execFrameBoundary (st : State) : Host.Outcome State Fault Refusal :=
  if st.dev.frameDue then
    let d := if st.dev.pwr.check then (st.dev.mapClk (fun c => { c with evald := true })).restartLanes else st.dev.frameBoundary
    .next { st with dev := d, seen := d }
  else .next st

end Sys2Proof.Machine
end

