-- ==== Sys2Proof/Machine/Keys.lean ====
section
/-! DEFINITION. The vault's commands: sessions, slots, cryptography, image authorities, attestation and signed readings
(13_keys R321 to R345, 07_legal_readout R170, R171). A job's start, its end and what comes between are functions of the
device that the tick boundary calls. -/

namespace Sys2Proof.Machine

/-! ## Refusals -/

/-- The refusal of an operation on a slot by its state (R324, R331, R386): a slot without material is absent. -/
def Dev.slotBusy (d : Dev) (k : Nat) : Option Status :=
  if !d.vault.rootOk then some .keyOrphaned
  else match (d.slot k).state with
    | .live => none
    | .empty | .orphaned => some .keyOrphaned
    | .spent => some .keySpent
    | .expired => some .keyExpired

/-- Authority over a slot (R337, R328, R342): owner authority, or for a LEGAL slot a METROLOGY session. -/
def Dev.slotAuth (d : Dev) (k role : Nat) : Bool := d.ownerOk role || (d.slLegal k && role == 1)

/-- The refusal of a change of a slot, if any: no such slot, a slot the command never takes, no authority, a LEGAL slot
with the seal closed. -/
def Dev.slotChange (d : Dev) (k role : Nat) (never : Bool) : Option Status :=
  if !d.slotExists k then some .range
  else if never || !d.slotAuth k role then some .denied
  else if d.slLegal k && !d.sealOpen then some .sealed
  else none

/-- The private key of a P-256 slot, as a number. -/
def Dev.slotScalar (d : Dev) (k : Nat) : Nat := beVal ((d.slotKey k).getD [])

/-- One class 3 operation per 4 ticks of a KDF, a step for each 128 bits of its output (R320, 10_power R240). -/
def kdfNeeds (bits : Nat) : List (Nat × Nat) := List.replicate (cdiv bits 128) (4, 64)

/-- KDF operations of a slot's derivation; the first counts the use of the parent (R325, R326). -/
def Dev.deriveNeeds (d : Dev) (k : Nat) : List (Nat × Nat) :=
  (4, d.slParent k) :: (kdfNeeds (if d.slP256 k then 320 else 256)).drop 1

/-- A job goes on to its draw grants. -/
def Dev.jobNeeds (d : Dev) (j : Job) (l : List (Nat × Nat)) : Dev := d.upJob j.num (fun x => { x with stage := 3, needs := l })

/-- A job goes on to its reserve-guarded write. -/
def Dev.jobGuarded (d : Dev) (j : Job) (w : RgWrite) : Dev := (d.upJob j.num (fun x => { x with stage := 1, needs := [] })).guarded w

/-! ## Sessions (R339 to R342) -/

/-- SESSION_OPEN (R339, opcode 0x0060): role and host nonce; answers the device nonce. A role
whose slot does not exist is out of range (R322). -/
def execSessionOpen (l : Link) (args : List Byte) (st : State) : Host.Outcome State Fault Refusal :=
  .next (st.onDev (fun d => d.exec l 0x60 args (args.length == 17) false false (fun _ d =>
    let role := u8 args 0
    if 2 < role then (.range, [], d)
    else if d.vault.session.isSome || d.vault.joining.isSome || decide (d.clk.runTick < d.vault.lock.getD role 0) then (.busy, [], d)
    else if !d.slotExists (roleSlot role) then (.range, [], d)
    else match d.slotBusy (roleSlot role) with
      | some st => (st, [], d)
      | none =>
        if !d.vault.trngOk then (.denied, [], d)
        else
          let (nd, d) := d.drbg 16
          (.done, nd, d.mapVault (fun v => { v with opening := some (role, args.drop 1, nd, d.clk.runTick) })))))

/-- The proof that SESSION_AUTH must carry, the session key and the device's answer. -/
def sessionProof (key nh nd : List Byte) (role : Nat) : List Byte :=
  Config.cmac key (ascii "TLSO" ++ [byteOf role] ++ serial12 ++ nh ++ nd)
def sessionKey (key nh nd : List Byte) : List Byte := kdf key (ascii "TLSS") (nh ++ nd) 256
def sessionAnswer (ks nh nd : List Byte) : List Byte := Config.cmac ks (ascii "TLSA" ++ nd ++ nh)

/-- Ten seconds in ticks. -/
def tenSeconds : Nat := 160000

/-- SESSION_AUTH (R339, opcode 0x0061): the proof within 10 s opens the session at the next boundary; a
wrong one locks the role for 10 s. -/
def execSessionAuth (l : Link) (args : List Byte) (st : State) : Host.Outcome State Fault Refusal :=
  .next (st.onDev (fun d => d.exec l 0x61 args (args.length == 16) false false (fun _ d =>
    match d.vault.opening with
    | none => (.denied, [], d)
    | some (role, nh, nd, t) =>
      let d := d.mapVault (fun v => { v with opening := none })
      if t + tenSeconds ≤ d.clk.runTick then (.denied, [], d)
      else if !d.slotExists (roleSlot role) then (.range, [], d)
      else match d.slotBusy (roleSlot role) with
        | some st => (st, [], d)
        | none =>
          let key := (d.slotKey (roleSlot role)).getD []
          if args = sessionProof key nh nd role then
            let ks := sessionKey key nh nd
            let s : Session := { role := role, key := ks, ctr := 0, lastT := d.clk.runTick, bad := 0 }
            let d := (d.useSlot (roleSlot role)).mapVault (fun v => { v with joining := some s })
            (.done, sessionAnswer ks nh nd, d)
          else
            let d := d.mapVault (fun v => { v with lock := v.lock.set role (d.clk.runTick + tenSeconds) })
            (.denied, [], d.report 0x0A8 orgDev role [byteOf role]))))

/-- SESSION_AUTH_TIMEOUT (R339): a SESSION_OPEN lapses after 10 s. -/
def execSessionAuthTimeout (st : State) : Host.Outcome State Fault Refusal :=
  .next (st.onDev (fun d =>
    match d.vault.opening with
    | some (_, _, _, t) => if t + tenSeconds ≤ d.clk.runTick then d.mapVault (fun v => { v with opening := none }) else d
    | none => d))

/-- SESSION_FAIL_LOCKOUT_END (R339): 10 s after a wrong proof the role may open again. -/
def execSessionFailLockoutEnd (role : Nat) (st : State) : Host.Outcome State Fault Refusal :=
  onUnit (decide (role < 3)) "role" st (fun d =>
    if d.vault.lock.getD role 0 ≤ d.clk.runTick then d.mapVault (fun v => { v with lock := v.lock.set role 0 }) else d)

/-- SESSION_CLOSE (R341, opcode 0x0062): ends the open session at the next boundary; with none open it is
denied. -/
def execSessionClose (l : Link) (args : List Byte) (st : State) : Host.Outcome State Fault Refusal :=
  .next (st.onDev (fun d => d.exec l 0x62 args args.isEmpty false false (fun _ d =>
    if d.vault.session.isSome || d.vault.joining.isSome then (.done, [], d.mapVault (fun v => { v with leaving := true }))
    else (.denied, [], d))))

/-- The boundary opens a session whose proof was right, and ends one that SESSION_CLOSE named (R339, R341, 15_host_link R379). -/
def Dev.runSessions (d : Dev) : Dev :=
  let d := match d.vault.joining with
    | some s => (d.mapVault (fun v => { v with session := some s, joining := none })).logNow 0x0A6 orgDev [byteOf s.role]
    | none => d
  if d.vault.leaving then (d.endSession 0).mapVault (fun v => { v with leaving := false }) else d

/-- SESSION_IDLE (R341): 600 s without an accepted session transaction. -/
def execSessionIdle (st : State) : Host.Outcome State Fault Refusal :=
  .next (st.onDev (fun d =>
    match d.vault.session with
    | some s => if s.lastT + 60 * tenSeconds ≤ d.clk.runTick then d.endSession 1 else d
    | none => d))

/-! ## Slot commands (R337) -/

/-- KEY_PUBLIC (R337, opcode 0x0063): the public key of a LIVE SIGN or AGREE slot. -/
def execKeyPublic (l : Link) (args : List Byte) (st : State) : Host.Outcome State Fault Refusal :=
  .next (st.onDev (fun d => d.exec l 0x63 args (args.length == 1) false false (fun _ d =>
    let k := u8 args 0
    if !d.slotExists k || !d.slP256 k then (.range, [], d)
    else if !d.vault.rootOk then (.keyOrphaned, [], d)
    else if !d.slLive k then (.range, [], d)
    else (.done, Config.ecPublic (d.slotScalar k), d))))

/-- KEY_INVALIDATE (R337, R335, opcode 0x0066): latched for the tick boundary. -/
def execKeyInvalidate (l : Link) (args : List Byte) (st : State) : Host.Outcome State Fault Refusal :=
  .next (st.onDev (fun d => d.exec l 0x66 args (args.length == 1) false false (fun sess d =>
    let k := u8 args 0
    match d.slotChange k (d.roleOf sess) (decide (k ≤ 2)) with
    | some st => (st, [], d)
    | none =>
      if !d.vault.rootOk then (.keyOrphaned, [], d)
      else (.done, [], d.mapVault (fun v => { v with inval := v.inval ++ [(k, 4, 0)] })))))

/-- KEY_INSTALL (R337, opcode 0x0064): slot, ephemeral public key, IV, key length, ciphertext, tag. -/
def execKeyInstall (l : Link) (args : List Byte) (st : State) : Host.Outcome State Fault Refusal :=
  .next (st.onDev (fun d => d.execJob l 0x64 args (decide (97 ≤ args.length) && args.length == 97 + u32 args 77) false false))

/-- The start of a KEY_INSTALL job: its refusals, then ECDH, two KDF steps and the decryption need draw. -/
def Dev.startKeyInstall (d : Dev) (j : Job) : Dev :=
  let k := u8 j.args 0
  let n := u32 j.args 77
  match d.slotChange k j.role (!d.slInstalled k) with
  | some st => d.finish j.num st 0 []
  | none =>
    if (n ≠ 16 ∧ n ≠ 32) ∨ (n ≠ 32 ∧ (k ≤ 5 ∨ d.slP256 k)) then d.finish j.num .range 0 []
    else if (d.slotBusy 2).isSome then d.finish j.num .keyOrphaned 0 []
    else if !d.vault.trngOk then d.finish j.num .denied 0 []
    else d.jobNeeds j ((48, 2) :: (kdfNeeds 256 ++ [(4, 64)]))

/-- The key that a KEY_INSTALL unwraps: none for a point off the curve or a wrong tag. -/
def Dev.unwrap (d : Dev) (args : List Byte) : Option (List Byte) :=
  let k := u8 args 0
  let qh := sliceB args 1 64
  let n := u32 args 77
  if !Config.onCurve qh then none
  else
    let kek := kdf (Config.ecdhX (d.slotScalar 2) qh) (ascii "TLKW") (serial12 ++ [byteOf k]) 256
    Config.gcmDec kek (sliceB args 65 12) [byteOf k] (sliceB args 81 n) (sliceB args (81 + n) 16)

/-- The operations of a KEY_INSTALL are done: a bad tag ends it, else the new key is written. -/
def Dev.checkedInstall (d : Dev) (j : Job) : Dev :=
  match d.unwrap j.args with
  | none => d.finish j.num .range 0 []
  | some _ => d.jobGuarded j (.keys j.num)

/-- KEY_RENEW (R337, opcode 0x0065). -/
def execKeyRenew (l : Link) (args : List Byte) (st : State) : Host.Outcome State Fault Refusal :=
  .next (st.onDev (fun d => d.execJob l 0x65 args (args.length == 1) false false))

/-- The start of a KEY_RENEW job. -/
def Dev.startKeyRenew (d : Dev) (j : Job) : Dev :=
  let k := u8 j.args 0
  match d.slotChange k j.role (decide (k ≤ 2) || d.slInstalled k) with
  | some st => d.finish j.num st 0 []
  | none =>
    if (d.slotBusy (d.slParent k)).isSome then d.finish j.num .keyOrphaned 0 []
    else if !d.vault.trngOk then d.finish j.num .denied 0 []
    else d.jobNeeds j (d.deriveNeeds k)

/-- The vault write of a KEY_INSTALL or KEY_RENEW is complete: the slot is LIVE with GENERATION + 1 and USES 0, and its
EMPTY derived children follow (R325, R337). -/
def Dev.keyWritten (d : Dev) (j : Job) : Dev :=
  let k := u8 j.args 0
  let gen := ((d.slot k).gen + 1) % 2 ^ 32
  if j.op = 0x64 then
    match d.unwrap j.args with
    | some key =>
      let d := ((d.makeLive k gen key 2).queueChildren k).logNow 0x0A4 orgDev ([byteOf k, 0#8, 0#8, 0#8] ++ leBytes 4 gen)
      d.finish j.num .done 0 []
    | none => d.finish j.num .range 0 []
  else
    match d.slotKey (d.slParent k) with
    | some kin => ((d.makeLive k gen (d.deriveKey k gen kin) 3).queueChildren k).finish j.num .done 0 []
    | none => d.finish j.num .keyOrphaned 0 []

/-! ## CRYPTO (R337, R319) -/

/-- CRYPTO (R337, opcode 0x0067): slot, operation (0 GCM_ENC, 1 GCM_DEC, 2 CMAC, 3 ECDH, 4 SIGN), data. -/
def execCrypto (l : Link) (args : List Byte) (st : State) : Host.Outcome State Fault Refusal :=
  .next (st.onDev (fun d => d.execJob l 0x67 args (decide (2 ≤ args.length)) false false))

/-- The usage bit an operation needs. -/
def cryptoUsage (op : Nat) : Nat := nth [2, 2, 3, 4, 0] op 5

/-- The start of a CRYPTO job. -/
def Dev.startCrypto (d : Dev) (j : Job) : Dev :=
  let k := u8 j.args 0
  let op := u8 j.args 1
  let n := j.args.length - 2
  let shape := decide (n ≤ 4000) && (match op with | 1 => decide (28 ≤ n) | 3 => n == 64 | 4 => n == 32 | _ => true)
  if !d.slotExists k || decide (4 < op) then d.finish j.num .range 0 []
  else if decide (3 ≤ k ∧ k ≤ 5) || (op == 3 && k == 2) || (op == 4 && k == 1) || !bitOf (d.slUsage k) (cryptoUsage op) then
    d.finish j.num .denied 0 []
  else match d.slotBusy k with
    | some st => d.finish j.num st 0 []
    | none =>
      if !shape then d.finish j.num .range 0 []
      else if (op == 0 || op == 4) && !d.vault.trngOk then d.finish j.num .denied 0 []
      else d.jobNeeds j [(if 3 ≤ op then 48 else 4, k)]

/-- The result of a CRYPTO job: IV, ciphertext and tag; plaintext; tag; shared secret; signature. Encryption and signature
end with ST_DENIED where the DRBG has stopped meanwhile (R321). -/
def Dev.doneCrypto (d : Dev) (j : Job) : Dev :=
  let k := u8 j.args 0
  let data := j.args.drop 2
  let key := (d.slotKey k).getD []
  if (u8 j.args 1 == 0 || u8 j.args 1 == 4) && !d.vault.trngOk then d.finish j.num .denied 0 []
  else match u8 j.args 1 with
  | 0 =>
    let (iv, d) := d.drbg 12
    d.finish j.num .done 0 (iv ++ Config.gcmEnc key iv [] data)
  | 1 =>
    let n := data.length - 28
    match Config.gcmDec key (sliceB data 0 12) [] (sliceB data 12 n) (sliceB data (12 + n) 16) with
    | some p => d.finish j.num .done 0 p
    | none => d.finish j.num .range 0 []
  | 2 => d.finish j.num .done 0 (Config.cmac key data)
  | 3 => if Config.onCurve data then d.finish j.num .done 0 (Config.ecdhX (beVal key) data) else d.finish j.num .range 0 []
  | _ =>
    let (r, d) := d.drbg 32
    d.finish j.num .done 0 (Config.ecdsaSign (beVal key) data r)

/-! ## AUTH_INSTALL (R338) -/

/-- AUTH_INSTALL (R338, opcode 0x0068): authority, public key, slot. -/
def execAuthInstall (l : Link) (args : List Byte) (st : State) : Host.Outcome State Fault Refusal :=
  .next (st.onDev (fun d => d.execJob l 0x68 args (args.length == 66) false false))

/-- The key of an authority, 0 METROLOGY and 1 OWNER. -/
def Vault.authority (v : Vault) (a : Nat) : Option (List Byte) := if a = 0 then v.authM else v.authO
def Vault.setAuthority (v : Vault) (a : Nat) (key : List Byte) : Vault :=
  if a = 0 then { v with authM := some key } else { v with authO := some key }

/-- The start of an AUTH_INSTALL job: a first key is written; a replacement first checks the slot that is not live. -/
def Dev.startAuthInstall (d : Dev) (j : Job) : Dev :=
  let a := u8 j.args 0
  let s := u8 j.args 65
  if 1 < a ∨ Config.onCurve (sliceB j.args 1 64) = false then d.finish j.num .range 0 []
  else if (d.vault.authority a).isNone then
    if a = 0 ∧ d.sealOpen = false then d.finish j.num .sealed 0 []
    else if a = 1 ∧ d.ownerOk j.role = false then d.finish j.num .denied 0 []
    else d.jobGuarded j (.authority j.num)
  else if (a = 1 ∧ j.role ≠ 0) ∨ (a = 0 ∧ j.role ≠ 1) then d.finish j.num .denied 0 []
  else if a = 0 ∧ d.sealOpen = false then d.finish j.num .sealed 0 []
  else if 1 < s then d.finish j.num .range 0 []
  else if d.liveSlot = some s then d.finish j.num .denied 0 []
  else d.jobNeeds j (d.checkNeeds s)

/-- The device with the key set a replacement would leave. -/
def Dev.withAuthority (d : Dev) (args : List Byte) : Dev := d.mapVault (fun v => v.setAuthority (u8 args 0) (sliceB args 1 64))

/-- The checks of a replacement are done: the failing one ends the job, else the record is written. -/
def Dev.checkedAuth (d : Dev) (j : Job) : Dev :=
  match (d.withAuthority j.args).slotBad (u8 j.args 65) with
  | some r => d.finish j.num (rejectStatus r) (rejectWord r) []
  | none => (d.upJob j.num (fun x => { x with word := 1 })).jobGuarded j (.authority j.num)

/-- The authority record is written; a replacement loads the slot at the next frame boundary (08 R190). -/
def Dev.authWritten (d : Dev) (j : Job) : Dev :=
  let key := sliceB j.args 1 64
  let d := (d.withAuthority j.args).logNow 0x0A5 orgDev ([byteOf (u8 j.args 0), 0#8, 0#8, 0#8] ++ (Config.sha256 key).take 4)
  let d := if j.word = 1 then d.mapImg (fun i => { i with reload := some (u8 j.args 65) }) else d
  d.finish j.num .done 0 []

/-! ## Statements (R344, R345, 07 R170, R171) -/

/-- ATTEST (R344, opcode 0x0069): nonce and a list of isles. -/
def execAttest (l : Link) (args : List Byte) (st : State) : Host.Outcome State Fault Refusal :=
  .next (st.onDev (fun d => d.execJob l 0x69 args (decide (17 ≤ args.length) && args.length == 17 + u8 args 16) false false))

/-- SIGN_READING (R170, opcode 0x0020): isle, source, snapshot, nonce. -/
def execSignReading (l : Link) (args : List Byte) (st : State) : Host.Outcome State Fault Refusal :=
  .next (st.onDev (fun d => d.execJob l 0x20 args (args.length == 19) false true))

/-- A signing job starts with its counter write, unless its key or its random bits are refused (R326, R344). -/
def Dev.startSigned (d : Dev) (j : Job) (ok : Bool) : Dev :=
  if !ok then d.finish j.num .range 0 []
  else match d.slotBusy 1 with
    | some st => d.finish j.num st 0 []
    | none => if !d.vault.trngOk then d.finish j.num .denied 0 [] else d.jobGuarded j (.counter j.num)

/-- The start of an ATTEST job: at most 16 isles, each with a type, none repeated. -/
def Dev.startAttest (d : Dev) (j : Job) : Dev :=
  let l := (j.args.drop 17).map (fun b => b.toNat)
  d.startSigned j (decide (l.length ≤ 16) && decide l.Nodup && l.all (fun n => decide (n < 128) && d.ilType n != 0))

/-- The start of a SIGN_READING job: an isle with a type, and a snapshot that is VALID. -/
def Dev.startSignReading (d : Dev) (j : Job) : Dev :=
  let n := u8 j.args 0
  let src := u8 j.args 1
  d.startSigned j (decide (n < 128) && d.ilType n != 0 &&
    (src == 0 || (src == 1 && decide (u8 j.args 2 < 24) && decide (u8 j.args 2 < (d.isle n).snaps.length))))

/-- The counter is written (R344): it continues across debug. The job waits for offset 736 with its value. -/
def Dev.counterWritten (d : Dev) (j : Job) : Dev :=
  let d := d.mapVault (fun v => { v with mono := (v.mono + 1) % 2 ^ 64 })
  d.upJob j.num (fun x => { x with stage := 2, word := d.vault.mono })

/-- Bytes 0 to 3 of an isle in a statement (R171). -/
def Dev.isleInfo (d : Dev) (n : Nat) : List Byte := [byteOf n, byteOf (d.ilType n), byteOf (d.ilModulus n), byteOf (b2n (d.ilX10 n))]

/-- SEALED, FROZEN, DEBUG of a statement. -/
def Dev.statementFlags (d : Dev) : Nat := flagAt 0 (!d.sealOpen) + flagAt 1 d.tam.freeze + flagAt 2 d.vault.debug

/-- The statement of R345, bytes 0 to LENGTH - 65. -/
def Dev.attestation (d : Dev) (j : Job) : List Byte :=
  let l := (j.args.drop 17).map (fun b => b.toNat)
  ascii "TLAT" ++ leBytes 2 1 ++ leBytes 2 (320 + 144 * l.length) ++ serial12 ++
  leBytes 4 (d.statementFlags + flagAt 3 d.img.fallbk + 256 * l.length) ++ leBytes 4 d.tam.opens ++ leBytes 4 d.tam.calCnt ++
  sliceB (Config.ecPublic (d.slotScalar 1)) 0 64 ++ sliceB ((d.img.live.map (fun x => x.digest)).getD []) 0 32 ++
  sliceB d.legalDigest 0 32 ++ sliceB d.img.calDig 0 32 ++ leBytes 4 d.clk.secs ++ leBytes 2 d.clk.tick ++ leBytes 2 0xB0 ++
  leBytes 8 j.word ++ sliceB j.args 0 16 ++ leBytes 4 (u32 d.image 0x14) ++
  leBytes 8 (sumN ((List.range 64).map (fun k => flagAt k (d.slLive k)))) ++ List.replicate 20 0#8 ++
  l.flatMap (fun n =>
    let i := d.isle n
    d.isleInfo n ++ leBytes 4 i.closedS ++ leBytes 4 i.closedT ++ leBytes 4 i.period ++ (regBlock i.regs).take 128)

/-- The signed reading of R171, bytes 0x000 to 0x5E7: of the billing view or of a snapshot, its close with tick-of-second. -/
def Dev.reading (d : Dev) (j : Job) : List Byte :=
  let n := u8 j.args 0
  let snap := u8 j.args 1 == 1
  let k := u8 j.args 2
  let i := d.isle n
  let s := i.snaps.getD k { close := 0, tick := 0, localS := 0, period := 0, flags := 0, regs := [], max := [] }
  let (close, x, period, regs, mx) :=
    if snap then (s.close, s.tick, s.period, s.regs, s.max) else (i.closedS, i.closedT, i.period, i.regs, i.dem.max)
  ascii "TLSR" ++ leBytes 2 1 ++ leBytes 2 1576 ++ serial12 ++
   leBytes 4 (d.statementFlags + flagAt 3 snap + 256 * (if snap then k else 0)) ++ leBytes 4 d.tam.opens ++ leBytes 4 d.tam.calCnt ++
   sliceB d.legalDigest 0 32 ++ sliceB d.img.calDig 0 32 ++ leBytes 4 d.clk.secs ++ leBytes 2 d.clk.tick ++ leBytes 2 0 ++
   leBytes 8 j.word ++ sliceB j.args 3 16 ++ d.isleInfo n ++ leBytes 4 close ++ leBytes 2 x ++ leBytes 2 0 ++ leBytes 4 period ++
   regBlock regs ++ maxBlock mx

/-- At offset 736 the statements of the signing jobs that wait are captured; each then needs draw for its signature. -/
def Dev.captureStatements (d : Dev) : Dev :=
  if d.off ≠ 736 then d
  else (d.link.jobs.filter (fun j => decide (j.phase = .running) && j.stage == 2 && j.fin.isNone)).foldl (fun d j =>
    let c := if j.op = 0x69 then d.attestation j else d.reading j
    d.upJob j.num (fun x => { x with stage := 3, needs := [(48, 1)], cap := c })) d

/-- The signature completes a statement; with the DRBG stopped it is refused (R321). -/
def Dev.doneSigned (d : Dev) (j : Job) : Dev :=
  if !d.vault.trngOk then d.finish j.num .denied 0 []
  else
    let (r, d) := d.drbg 32
    d.finish j.num .done 0 (j.cap ++ Config.ecdsaSign (d.slotScalar 1) (Config.sha256 j.cap) r)

/-! ## The root (R331 to R334) -/

/-- ROOT_REGENERATE (R334, opcode 0x006A). -/
def execRootRegenerate (l : Link) (args : List Byte) (st : State) : Host.Outcome State Fault Refusal :=
  .next (st.onDev (fun d => d.execJob l 0x6A args args.isEmpty false false))

/-- The start of a ROOT_REGENERATE job: with the seal open, random bits and the production vault in force. -/
def Dev.startRootRegenerate (d : Dev) (j : Job) : Dev :=
  if !d.sealOpen then d.finish j.num .sealed 0 []
  else if d.vault.debug || !d.vault.trngOk then d.finish j.num .denied 0 []
  else d.jobNeeds j (kdfNeeds 320 ++ kdfNeeds 320)

/-- Slots become ORPHANED under slot 0: operations that use them end, and so does a session whose role slot is among them
(R334, R335, R341). -/
def Dev.orphanSlots (d : Dev) (ks : List Nat) : Dev :=
  let d := d.forEach ks (fun k d => d.setSlotState k .orphaned 6 0)
  let d := (d.endOps ks).2
  match d.vault.session with
  | some x => if roleSlot x.role ∈ ks then d.endSession 3 else d
  | none => d

/-- The new root is written: what descended from the old one is gone with it, as after a loss, and slots 1 and 2 are derived
afresh (R334, log 24). -/
def Dev.rootWritten (d : Dev) (j : Job) : Dev :=
  ((d.orphanSlots ((List.range 64).filter (fun k => k != 0 && decide ((d.slot k).state ≠ .empty)))).makeRoot).finish j.num .done 0 []

/-- RESPLIT (R332): every 2^24 ticks since power-up. Without random bits it stays pending. -/
def execResplit (st : State) : Host.Outcome State Fault Refusal :=
  .next (st.onDev (fun d =>
    if d.clk.runTick ≠ 0 ∧ d.clk.runTick % 2 ^ 24 = 0 ∧ d.vault.shares.isSome ∧ d.vault.debug = false ∧
       (d.pwr.mode = .run ∨ d.pwr.mode = .doze ∨ d.pwr.mode = .nap) then
      if d.vault.trngOk then d.guarded .resplit else d.mapVault (fun v => { v with rspPend := true })
    else d))

/-- The re-split is written. -/
def Dev.resplitWritten (d : Dev) : Dev :=
  match d.vault.shares with
  | some (x, y) =>
    let (r, d) := d.drbg 32
    let mix (l : List Byte) : List Byte := (l.zip r).map (fun p => p.1 ^^^ p.2)
    d.mapVault (fun v => { v with shares := some (mix x, mix y), resplit := (v.resplit + 1) % 2 ^ 32, rspPend := false })
  | none => d

/-- MASK_REFRESH (R333): every 2^20 ticks each working copy takes a fresh mask. -/
def execMaskRefresh (st : State) : Host.Outcome State Fault Refusal :=
  .next (st.onDev (fun d =>
    if d.clk.runTick ≠ 0 ∧ d.clk.runTick % 2 ^ 20 = 0 ∧ d.vault.trngOk then
      d.forEach ((d.vault.slots.filter (fun e => e.2.working)).map (fun e => e.1)) (fun k d =>
        (d.upSlot k (fun s => { s with mask := d.vault.draw })).mapVault (fun v => { v with draw := v.draw + 32 }))
    else d))

/-! ## The entropy source (R321) -/

/-- TRNG_FAIL (R321): repetition count, adaptive proportion or start-up test. -/
def execTrngFail (kind : Nat) (st : State) : Host.Outcome State Fault Refusal :=
  onUnit (decide (kind < 3)) "health test" st (fun d =>
    (d.mapVault (fun v => { v with trngOk := false, retryAt := d.clk.runTick })).report 0x0A2 orgDev 0 [byteOf (kind + 1)])

/-- TRNG_RETRY (R321): every 60 s the start-up tests run again; a pass restarts the DRBG. -/
def execTrngRetry (pass : Bool) (st : State) : Host.Outcome State Fault Refusal :=
  .next (st.onDev (fun d =>
    if !d.vault.trngOk && decide (d.vault.retryAt + 6 * tenSeconds ≤ d.clk.runTick) then
      if pass then d.mapVault (fun v => { v with trngOk := true, retryAt := d.clk.runTick })
      else (d.mapVault (fun v => { v with retryAt := d.clk.runTick })).report 0x0A2 orgDev 0 [3#8]
    else d))

end Sys2Proof.Machine
end

