-- ==== Sys2Proof/Machine/Tampers.lean ====
section
/-! DEFINITION. Tamper responses at a tick boundary, their release, monitor tests, and the reads of events and
notifications (12_events_tamper R295, R305, R311 to R316). -/

namespace Sys2Proof.Machine

/-! ## Responses (R311 to R313) -/

/-- Ticks of one grant of the display scanner (14_display R349, R350). -/
def Dev.panelTicks (d : Dev) : Nat := 16000 / max 1 d.dspHz
def Dev.scanTicks (d : Dev) : Nat := 16 + 16 * d.panelTicks

/-- A DISPLAY action while the scanner holds no grant: its request is filed as class 1 (14_display R350). -/
def Dev.tamperScan (d : Dev) : Dev :=
  if !d.isLive || (d.grantOf .scanner).isSome || (d.grantOf .tamperDisplay).isSome then d
  else (d.withdraw .scanner).file .tamperDisplay 1 12 d.scanTicks

/-- The WIPE of a raised source: its slot is invalidated at this boundary (R312, 13 R335). -/
def Dev.tamWipe (d : Dev) (key : Nat) : Dev :=
  let k := d.srcWipe key
  (d.mapVault (fun v => { v with inval := v.inval ++ [(k, 5, keySource key)] })).logNow 0x093 orgDev [byteOf k, byteOf (keySource key)]

/-- FREEZE (R312). -/
def Dev.tamFreeze (d : Dev) : Dev := (d.mapTam (fun t => { t with freeze := true })).logNow 0x092 orgDev [1#8]

/-- RELAY: a tamper hold on the target of each isle named (R312). -/
def Dev.tamRelay (d : Dev) (key : Nat) : Dev :=
  (d.relayIsles key).1.foldl (fun d n => d.placeHold { target := d.ilRelay n, kind := 2, source := key } 1) d

/-- DISPLAY: the latch, the strip's indicator and the scanner's draw (R312). -/
def Dev.tamDisplay (d : Dev) (key : Nat) : Dev :=
  ((d.upLedger key (fun l => { l with disp := true })).mapDsp (fun s => { s with dirty := true })).tamperScan

/-- PIN (R312). -/
def Dev.tamPin (d : Dev) (key : Nat) : Dev := d.upLedger key (fun l => { l with pin := true })

/-- HOST: a tamper entry in the notification queue, and attention (R312). -/
def Dev.tamHost (d : Dev) (key : Nat) : Dev :=
  (d.notify { kind := 4, knot := (d.findKnot 0x090 (keyOrigin key) (keySource key)).getD 0xFFFF, seq := 0 }).cause 1

/-- The responses to a set of sources whose actions `mask` admits, in the order of R311. -/
def Dev.tamRespond (d : Dev) (keys : List Nat) (mask : Nat) : Dev :=
  let with_ (d : Dev) (bit : Nat) : List Nat := keys.filter (fun k => bitOf (d.srcActions k &&& mask) bit)
  let d := (with_ d 1).foldl (fun d k => d.upLedger k (fun l => { l with flagged := true })) d
  let d := (with_ d 7).foldl (fun d k => d.tamWipe k) d
  let d := (with_ d 6).foldl (fun d _ => d.tamFreeze) d
  let d := (with_ d 5).foldl (fun d k => d.tamRelay k) d
  let d := (with_ d 4).foldl (fun d k => d.tamDisplay k) d
  let d := (with_ d 2).foldl (fun d k => d.tamPin k) d
  (with_ d 3).foldl (fun d k => d.tamHost k) d

/-- The releases of R314 that were latched, acknowledgements and FREEZE, and the relay commands in their order. -/
def Dev.tamRelease (d : Dev) : Dev :=
  let acks := d.link.acks
  let rel := d.link.relays
  let thaw := d.link.unfreeze
  let d := d.mapLink (fun l => { l with acks := [], unfreeze := false, relays := [] })
  let d := acks.foldl (fun d k =>
    let d := if (d.ledger k).disp then d.mapDsp (fun s => { s with dirty := true }) else d
    d.upLedger k (fun l => { l with flagged := false, pin := false, disp := false })) d
  let d := if thaw then (d.mapTam (fun t => { t with freeze := false })).logNow 0x092 orgDev [0#8] else d
  rel.foldl Dev.relayNow d

/-- The tamper executor at a tick boundary: releases, the actions of every source raised in the ending tick, and the
deferred actions of a power-up (R311, R318): a key of 65,536 or more restores its relay holds alone (16 R392). -/
def Dev.runTampers (d : Dev) : Dev :=
  let d := d.tamRelease
  let fresh := d.tam.fresh
  let late := if d.isLive then d.tam.defer else []
  let d := d.mapTam (fun t => { t with fresh := [], defer := if d.isLive then [] else t.defer })
  let whole := late.filter (fun k => decide (k < 65536))
  let held := (late.filter (fun k => decide (65536 ≤ k))).map (fun k => k - 65536)
  ((d.tamRespond fresh.dedup 0xFF).tamRespond whole.dedup 0x7F).tamRespond held.dedup 0x20

/-! ## Reads (R295, R305) -/

/-- EVENT_READ (R295, opcode 0x0022): first SEQ and count. -/
def execEventRead (l : Link) (args : List Byte) (st : State) : Host.Outcome State Fault Refusal :=
  .next (st.onDev (fun d => d.execJob l 0x22 args (args.length == 6) false false))

/-- The start of an EVENT_READ job: a count of at most 256. -/
def Dev.startEventRead (d : Dev) (j : Job) : Dev := if 256 < u16 j.args 4 then d.finish j.num .range 0 [] else d

/-- Its result: the held records from the first SEQ on, and the SEQ at which the read starts. -/
def Dev.doneEventRead (d : Dev) (j : Job) : Dev :=
  let l := d.heldEvents.filter (fun r => decide (u32 j.args 0 ≤ r.seq))
  let word := (l.head?.map (fun r => r.seq)).getD (seqAfter d.run.evtSeq)
  d.finish j.num .done word ((l.take (u16 j.args 4)).flatMap EventRec.bytes)

/-- NOTIFY_READ (R305, opcode 0x0023): returns and removes up to 32 released entries. -/
def execNotifyRead (l : Link) (args : List Byte) (st : State) : Host.Outcome State Fault Refusal :=
  .next (st.onDev (fun d => d.exec l 0x23 args args.isEmpty false false (fun _ d =>
    let (got, d) := d.takeNotices 32
    (.done, got.flatMap Notice.bytes, d))))

/-! ## Releases (R314) -/

/-- The ledger key that a source and an isle argument name, if any. -/
def argKey (src isle : Nat) : Option Nat :=
  if !srcExists src then none
  else if src < 0x20 then some src
  else if isle < 128 then some (tamKey src (some isle)) else none

/-- TAMPER_ACK (R314, opcode 0x0051): source and isle, latched for the boundary; ST_DENIED while RAISED. -/
def execTamperAck (l : Link) (args : List Byte) (st : State) : Host.Outcome State Fault Refusal :=
  .next (st.onDev (fun d => d.exec l 0x51 args (args.length == 2) false true (fun _ d =>
    match argKey (u8 args 0) (u8 args 1) with
    | none => (.range, [], d)
    | some k =>
      if (d.ledger k).raised then (.denied, [], d)
      else (.done, [], d.mapLink (fun h => { h with acks := h.acks ++ [k] })))))

/-- FREEZE_RELEASE (R314, opcode 0x0052): in a METROLOGY session, with no source with FREEZE raised. -/
def execFreezeRelease (l : Link) (args : List Byte) (st : State) : Host.Outcome State Fault Refusal :=
  .next (st.onDev (fun d => d.exec l 0x52 args args.isEmpty false true (fun sess d =>
    if d.roleOf sess ≠ 1 ∨ d.anyRaisedWith 6 = true then (.denied, [], d)
    else (.done, [], d.mapLink (fun h => { h with unfreeze := true })))))

/-! ## Monitor tests (R316) -/

/-- MONITOR_TEST (R316, opcode 0x0050): source and isle. -/
def execMonitorTest (l : Link) (args : List Byte) (st : State) : Host.Outcome State Fault Refusal :=
  .next (st.onDev (fun d => d.execJob l 0x50 args (args.length == 2) false true))

/-- The start of a MONITOR_TEST job: its refusals, then the housekeeping request; the grant time is 0 until it is made. -/
def Dev.startMonitorTest (d : Dev) (j : Job) : Dev :=
  match argKey (u8 j.args 0) (u8 j.args 1) with
  | none => d.finish j.num .range 0 []
  | some k =>
    if 1 < j.role then d.finish j.num .denied 0 []
    else if (d.ledger k).raised || d.tam.test.isSome then d.finish j.num .busy 0 []
    else ((d.mapTam (fun t => { t with test := some (k, j.num, 0), testReal := none })).upJob j.num
      (fun x => { x with stage := 4 })).file .housekeeping 6 2 16

/-- The housekeeping grant starts the stimulus. -/
def Dev.beginTest (d : Dev) : Dev :=
  match d.tam.test with
  | some (k, j, 0) =>
    if d.grantedNow .housekeeping then
      (d.mapTam (fun t => { t with test := some (k, j, d.clk.runTick) })).upLedger k (fun l => { l with testing := true })
    else d
  | _ => d

/-- The test of a source is over: a real raise that came during it is raised with its own time, and a pin that has gone
back clears at once. -/
def Dev.endTest (d : Dev) (k : Nat) : Dev :=
  let real := d.tam.testReal
  let d := (d.mapTam (fun t => { t with test := none, testReal := none })).upLedger k (fun l => { l with testing := false })
  match real with
  | some (s, t) =>
    let d := d.raiseAt k s t
    let back := (k == 1 && d.tam.cover) || (k == 2 && d.tam.tcover) || (k == 3 && d.tam.sealPin) || (k == 4 && d.tam.mag)
    if back then d.clearSrc k else d
  | none => d

/-- A test whose stimulus has not begun has its housekeeping request filed until it is granted. -/
def Dev.testFile (d : Dev) : Dev :=
  match d.tam.test with
  | some (_, _, 0) => d.file .housekeeping 6 2 16
  | _ => d

/-- An ABORT of a test removes the stimulus and records nothing; a grant in hand is not revoked (10_power R243). -/
def Dev.abortTest (d : Dev) (job : Nat) : Dev :=
  match d.tam.test with
  | some (k, j, _) => if j = job then (d.withdraw .housekeeping).endTest k else d
  | none => d

/-- MONITOR_TEST_END (R316): after 16 ticks, or after the next events slice of the isle, with what the monitor did under
the stimulus: 1 pass, 2 no raise, 3 no clear. -/
def execMonitorTestEnd (raised cleared : Bool) (st : State) : Host.Outcome State Fault Refusal :=
  .next (st.onDev (fun d =>
    match d.tam.test with
    | some (k, j, t) =>
      let over_ := match keyIsle k with
        | none => decide (t + 16 ≤ d.clk.runTick + 1)
        | some n => d.off == 336 + n && decide (t ≤ d.clk.runTick) && decide (d.run.off = 337 + n)
      if t ≠ 0 ∧ over_ = true then
        let res := if !raised then 2 else if !cleared then 3 else 1
        let isle := (keyIsle k).getD 0xFF
        let d := d.upLedger k (fun l => { l with test := res, testAt := d.clk.secs })
        let d := d.logAt d.clk.secs d.clk.tick 0x091 (keyOrigin k) [byteOf (keySource k), byteOf isle, byteOf res] 2
        (d.finish j .done res []).endTest k
      else d
    | none => d))

end Sys2Proof.Machine
end

