-- ==== Sys2Proof/Machine/Power.lean ====
section
/-! DEFINITION. Power failure, power states and supplies (10_power R233 to R261, 16_startup R390). -/

namespace Sys2Proof.Machine

/-! ## Reserve-guarded writes in progress (09_store R219) -/

/-- The engines end the samples they hold: four ticks without deliveries, then the last run is settled (09_store R227). -/
def Dev.drain (d : Dev) : Dev :=
  let d := (List.range 4).foldl (fun d _ => ((List.range 9).foldl (fun d k => d.engineTick k 0 false) d).resolveTicks) d
  { d.settleTicks (d.clk.runTick + 1) with engines := [], ticks := [] }

/-- NAP or SLEEP begins: metering stops and the windows of the voltage check start empty (R246, R250); in SLEEP the pins are
sampled once a second (07_legal_readout R161). -/
def Dev.fallAsleep (d : Dev) (m : PMode) : Dev :=
  let d := d.drain
  let d := d.forEach (List.range 16) (fun s d => d.upStrait s (fun x => { x with recent := [] }))
  let d := if m = .sleep then d.mapTam (fun t => { t with pinRun := [0, 0, 0, 0] }) else d
  d.mapPwr (fun p => { p with mode := m, sleepReq := false, waking := false, check := false, grants := [] })

/-- Nothing requests draw, no job runs, and every grant has ended by a tick (R248). -/
def Dev.quietBy (d : Dev) (now : Nat) : Bool :=
  d.pwr.reqs.isEmpty && d.pwr.grants.all (fun g => decide (g.until_ ≤ now)) && d.link.jobs.all (fun j => decide (j.phase = .finished))

/-- Nothing holds or requests draw, and no job runs (R248). -/
def Dev.quietDraw (d : Dev) : Bool := d.quietBy 0

/-- NAP begins at the end of the running tick: it was chosen, or the entry save of SLEEP was refused (R248, R252), and nothing
of the tick holds it back. -/
def Dev.napNow (d : Dev) : Bool := d.pwr.sleepReq && d.quietBy (d.clk.runTick + 1) && d.tam.fresh.isEmpty

/-- A save image is in the LASTGASP region (R225, R227, R252). -/
def Dev.gaspWritten (d : Dev) : Dev :=
  let d := d.verifyWork
  d.putGasp { seq := d.nextSave, kind := 1, run := d.captureNow, latch := d.bak.latchS, live := d.bak.live }

/-- The reserve-guarded write in progress is complete: its effect, and its grant is over. -/
def Dev.rgComplete (d : Dev) : Dev :=
  match d.store.rgRun with
  | none => d
  | some w =>
    let d := (d.mapStore (fun s => { s with rgRun := none })).giveBack .reserveWrite
    let onJob (d : Dev) (n : Nat) (f : Dev → Job → Dev) : Dev :=
      match d.findJob n with
      | some j => if j.phase = .running ∧ j.fin = none then f d j else d
      | none => d
    match w with
    | .slots m => (d.putVault slotTileNos).mapBak (fun b => { b with wipe := b.wipe &&& ~~~m })
    | .counter n =>
      let d := match (d.findJob n).filter (fun j => decide (j.phase = .running) && j.fin.isNone) with
        | some j => d.counterWritten j
        | none => d.mapVault (fun v => { v with mono := (v.mono + 1) % 2 ^ 64 })
      d.putVault [0]
    | .resplit => d.resplitWritten.putVault [0, 16, 24]
    | .sealRec => d.putSeal d.tam.sealPin
    | .sleepSave =>
      if decide (d.pwr.mode = .run ∨ d.pwr.mode = .doze) && d.quietDraw && decide (736 ≤ d.off) then (d.fallAsleep .sleep).gaspWritten else d.gaspWritten
    | .authority n => onJob d n (fun d j => (d.authWritten j).putVault [1])
    | .keys n => onJob d n (fun d j =>
        if j.op = 0x6A then (d.rootWritten j).putVault [0, 2, 16, 24] else (d.keyWritten j).putVault slotTileNos)

/-- The write in progress has its grant behind it at the boundary that starts the running tick. -/
def Dev.rgEnds (d : Dev) : Dev :=
  match d.grantOf .reserveWrite with
  | some g => if g.until_ ≤ d.clk.runTick ∧ d.store.rgRun.isSome then d.rgComplete else d
  | none => if d.store.rgRun.isSome then d.rgComplete else d

/-! ## Power fail (R254 to R260) -/

/-- Power lost in the middle of a page write (09_store R212): a free number of its words is new, the side word pends, its tag
that of the old contents. -/
def Dev.tornFlight (d : Dev) : Dev :=
  match d.store.flight with
  | none => d
  | some f =>
    let (x, d) := d.fresh
    let k := x % (f.words.length + 1)
    let c := crcChanges d.store.mram (f.words.take k)
    let d := (f.words.drop k).foldl (fun d w => d.putWord f.tile.isNone w.1 w.2) (d.mapStore (fun s => { s with flight := none }))
    match f.tile with
    | some t => d.setSide t { f.side with dif := f.side.dif ^^^ c }
    | none => d

/-- Supplies are gone in the middle of the store's work: a save that has begun leaves its copy invalid, and whether a
transaction was prepared and had committed is free (09_store R217, R220, R221). -/
def Dev.cutStore (d : Dev) : Dev :=
  let d := match d.store.saveCap, d.grantOf .save with
    | some img, some _ => d.cutSave img
    | _, _ => d
  let d := d.mapStore (fun s => { s with saveCap := none })
  if d.store.ring.isEmpty then d
  else
    let (x, d) := d.fresh
    if x % 3 = 0 then (d.store.ring.foldl (fun d e => d.putState e 0) d).mapStore (fun s => { s with ring := [] })
    else if x % 3 = 1 then d
    else (d.store.ring.foldl (fun d e => d.putState e 3) d).mapStore (fun s => { s with ring := s.ring.map (fun e => { e with state := 3 }) })

/-- The straits that were live over the 320 ticks up to the latch (R258). -/
def Dev.liveStraits (d : Dev) : List Nat :=
  d.tickStraits.filter (fun s =>
    let l := (d.strait s).recent.take 320
    let u : Rat := (d.deadPct : Rat) / 100 * d.uDin s
    !l.isEmpty && decide (u * u ≤ d.vWeight s * d.vWeight s * (sumQ l / l.length)))

/-- The running conditions of every strait end with the power fail (04_isles_windows R102). -/
def Dev.cutConds (d : Dev) : Dev :=
  d.forEach (List.range 16) (fun s d => CondKind.all.foldl (fun d k =>
    match (d.strait s).cond k with
    | some c => d.endCond s k c true
    | none => d) d)

/-- The part of the running frame that passed asleep counts as metered with zero energy (R251). -/
def Dev.sleptPart (d : Dev) : Dev :=
  d.forEach ((List.range 128).filter (fun n => d.ilType n != 0)) (fun n d =>
    (d.joinAsleep n d.clk.frameNo).upBank n (d.clk.frameNo % 2 == 1) (fun b => { b with nm := d.off }))

/-- Power fail latches (R254, R260, 06_billing R156, R157); `next` is the CAUSE of the reset that follows. A latch in
SLEEP runs no last gasp: the save of its entry stands. -/
def Dev.latchFail (d : Dev) (next : Nat) : Dev :=
  let m := d.pwr.mode
  let on := decide (m = .run ∨ m = .doze)
  if !on && !decide (m = .nap ∨ m = .sleep) then d
  else
    let d := if on && d.off == 0 && !d.clk.evald && !d.pwr.check then d.frameBoundary else d
    let d := if m = .nap ∨ (on && d.pwr.check) = true then (d.closeSlept true).sleptPart else d
    let d := if on && !d.pwr.check then d else d.mapImg (fun i => { i with meter := false })
    let d := ((d.cutConds).endSession 2).mapVault (fun v => { v with joining := none, leaving := false })
    let t := d.timeTicks - d.off + 3200
    let d := d.mapRun (fun r => { r with pendB := some (ofTicks t) })
    let d := d.mapBak (fun b =>
      { b with valid := true, latched := true, latchS := d.clk.secs, latchT := d.clk.tick, skipped := false, live := [],
               set := d.clk.set })
    d.mapPwr (fun p =>
      { p with mode := .failing, next := next, lastLatch := d.clk.secs, drainAt := some d.clk.runTick, check := false,
               gaspOk := false, gaspDone := decide (m = .sleep) })

/-- The report of a raise whose actions a latch defers: LOG and PIN are executed, the rest stands in byte 3
(12_events_tamper R296, R315). -/
def Dev.deferReport (d : Dev) (key : Nat) : Dev :=
  match d.findKnot 0x090 (keyOrigin key) (keySource key) with
  | some i =>
    let k := d.knot i
    let ex := u8 k.detail 2
    if u8 k.detail 1 = 1 then
      d.setKnot i { k with detail := k.detail.take 2 ++ [byteOf (ex &&& 5), byteOf (u8 k.detail 3 ||| (ex &&& 0xFA))] ++ k.detail.drop 4 }
    else d
  | none => d

/-- What the latch leaves of the raises of its tick: PIN executes, a WIPE pends in the backup register file, the rest is
deferred (12_events_tamper R315). -/
def Dev.latchTampers (d : Dev) : Dev :=
  let l := d.tam.fresh.dedup
  let d := l.foldl (fun d k => d.deferReport k) (d.mapTam (fun t => { t with fresh := [] }))
  let d := (l.filter (fun k => bitOf (d.srcActions k) 2)).foldl (fun d k => d.tamPin k) d
  d.mapBak (fun b =>
    { b with deferred := b.deferred ++ l,
             wipe := (l.filter (fun k => bitOf (d.srcActions k) 7)).foldl (fun m k => m ||| (1#64 <<< (d.srcWipe k % 64))) b.wipe })

/-- The choice of R255 and R257 once no other write runs: the last gasp is granted over every grant of classes 1 to 6, or
skipped. -/
def Dev.gaspChoice (d : Dev) : Dev :=
  if d.store.rgRun.isSome || d.pwr.gaspOk || d.pwr.gaspDone then d
  else if reserveOk d.pwr.vres then
    let d := d.cutStore
    let g : Draw := { who := .lastGasp, cls := 0, k := 40, d := 16, filed := d.clk.runTick, seen := 0,
                      until_ := d.clk.runTick + 16 }
    let d := { d with rtdOn := false, ports := d.ports.map (fun (e : Nat × PortSt) => (e.1, { e.2 with txn := none, susp := none })) }
    (d.mapDsp (fun s => { s with pmic := false })).mapPwr (fun p => { p with gaspOk := true, reqs := [], grants := [g] })
  else
    ((d.cutStore.tornFlight).mapBak (fun b => { b with skipped := true })).mapPwr (fun p =>
      { p with gaspDone := true, reqs := [], grants := [] })

/-- One tick of the sequence after a latch (R255, 09_store R227): tick t is metered, four ticks drain, no boundary is
evaluated; a write in progress completes, then comes the last gasp. -/
def Dev.failTick (d : Dev) (inp : TickInput) : Dev :=
  match d.pwr.drainAt with
  | none => d.mapClk Clock.advance
  | some t =>
    let now := d.clk.runTick
    let d := (d.mapPwr (fun p => { p with vres := inp.vres })).latchTampers
    let d := if now ≤ t + 4 then d.meterTick inp (decide (now = t)) (decide (now = t) && d.isLive && d.img.meter) else d
    let d := if now = t then d.mapBak (fun b => { b with live := if d.img.meter then d.liveStraits else [] }) else d
    ((d.mapClk Clock.advance).rgEnds).gaspChoice

/-- POWER_FAIL (R254): eight samples of VDD33 below V_PF latch power fail; the dip raises the VDD33 glitch source in the
same tick (17_electrical_package R410). -/
def execPowerFail (st : State) : Host.Outcome State Fault Refusal :=
  .next (st.onDev (fun d =>
    if d.pwr.mode = .run ∨ d.pwr.mode = .doze ∨ d.pwr.mode = .nap ∨ d.pwr.mode = .sleep then (d.raiseSrc 0x05).latchFail 3 else d))

/-- LAST_GASP (R255, 09_store R227): after the drain the running state is written to the LASTGASP region. -/
def execLastGasp (st : State) : Host.Outcome State Fault Refusal :=
  .next (st.onDev (fun d =>
    match d.pwr.drainAt with
    | some t =>
      if d.pwr.mode = .failing ∧ d.pwr.gaspOk ∧ d.pwr.gaspDone = false ∧ t + 5 ≤ d.clk.runTick then
        (({ d.settleTicks (d.clk.runTick + 1) with engines := [], ticks := [] }).gaspWritten).mapPwr (fun p =>
          { p with gaspDone := true, grants := [] })
      else d
    | none => d))

/-- HOLD_ENTRY (R256): the last gasp is done or skipped and VDD33 is below 2.70 V. The backup domain starts from the
levels counted last; for the seal, from the newest seal-state record (16_startup R396). -/
def execHoldEntry (st : State) : Host.Outcome State Fault Refusal :=
  .next (st.onDev (fun d =>
    if d.pwr.mode = .failing ∧ d.pwr.gaspDone = true then
      let shut := if d.tam.sealTry then d.tam.sealPin else ((d.tam.sealRec.map (fun r => r.1)).getD d.tam.sealPin)
      let pins := (if d.tam.cover then [] else [1]) ++ (if d.tam.tcover then [] else [2]) ++ (if shut then [] else [3]) ++
        [0x0B, 0x0C].filter (fun k => (d.ledger k).raised)
      (d.mapBak (fun b => { b with pins := pins })).mapPwr (fun p => { p with mode := .hold, next := 2 })
    else d))

/-- One source of the backup domain at a sample (12_events_tamper R317): a raise counts, asserts ALARM_N with PIN, and
marks its WIPE_SLOT. -/
def Dev.holdSource (d : Dev) (src : Nat) (cond : Bool) : Dev :=
  let was := decide (src ∈ d.bak.pins)
  if cond && !was then
    d.mapBak (fun b =>
      let a := tabGet { count := 0, first := 0, last := 0 } b.alarms src
      { b with
        pins := src :: b.pins,
        alarms := tabPut { count := 0, first := 0, last := 0 } src
          { count := satU 32 (a.count + 1), first := if a.count = 0 then d.clk.secs else a.first, last := d.clk.secs } b.alarms,
        wipe := match (b.policy.find? (fun p => p.1 == src)).bind (fun p => p.2.2) with
          | some k => b.wipe ||| (1#64 <<< k)
          | none => b.wipe })
  else if !cond && was then d.mapBak (fun b => { b with pins := b.pins.filter (fun x => decide (x ≠ src)) })
  else d

/-- HOLD_SAMPLE (R317): the backup domain's sample of one second. -/
def execHoldSample (calseal cover tcover : Bool) (vbat : Nat) (glitch : Bool) (st : State) : Host.Outcome State Fault Refusal :=
  .next (st.onDev (fun d =>
    if d.pwr.mode = .hold then
      let (a, b) := d.srcThresh 0x0C none 2200 3650
      let slow := decide (vbat < a ∨ b < vbat) ||
        (decide (0x0C ∈ d.bak.pins) && !decide (a * 101 ≤ vbat * 100 ∧ vbat * 100 ≤ b * 99))
      ((((d.holdSource 1 (!cover)).holdSource 2 (!tcover)).holdSource 3 (!calseal)).holdSource 0x0B glitch).holdSource 0x0C slow
    else d))

/-- CORE_RESET (R260): VDDC leaves its range while VDD33 is valid. A reserve-guarded write in progress completes; every
other write is cut; the latch is recorded as SKIPPED. -/
def execCoreReset (st : State) : Host.Outcome State Fault Refusal :=
  .next (st.onDev (fun d =>
    if d.pwr.mode = .run ∨ d.pwr.mode = .doze ∨ d.pwr.mode = .nap ∨ d.pwr.mode = .sleep then
      let live := if d.pwr.mode = .run ∨ d.pwr.mode = .doze then d.liveStraits else []
      let d := ((d.latchTampers.rgComplete).cutStore).tornFlight
      let d := d.mapBak (fun b =>
        { b with valid := true, latched := true, latchS := d.clk.secs, latchT := d.clk.tick, skipped := true, live := live,
                 set := d.clk.set })
      d.mapPwr (fun p => { p with mode := .reset, next := 4, lastLatch := d.clk.secs, drainAt := none, reqs := [], grants := [] })
    else d))

/-- RESET_N (16_startup R390): low for `ns` nanoseconds; 10 us or more latches power fail, less than 1 us is ignored, and
between the two the filter's choice is free. -/
def execResetN (ns : Nat) (st : State) : Host.Outcome State Fault Refusal :=
  .next (st.onDev (fun d =>
    if 10000 ≤ ns then d.latchFail 5
    else if ns < 1000 then d
    else
      let (x, d) := d.fresh
      if x % 2 = 1 then d.latchFail 5 else d))

/-- VBAT_LOSS (R233): VBAT falls below V_BR in HOLD; time and the backup register file are lost at that moment. -/
def execVbatLoss (st : State) : Host.Outcome State Fault Refusal :=
  .next (st.onDev (fun d =>
    if d.pwr.mode = .hold then
      (({ d with bak := Backup.reset }).mapClk (fun c => { c with secs := 0, tick := 0, set := false })).mapPwr (fun p =>
        { p with next := 1 })
    else d))

/-- DEBUG_UNLOCK (13_keys R343, opcode 0x006B): with DBG_EN high at the last reset it latches power fail like a pin reset;
otherwise it is denied. -/
def execDebugUnlock (l : Link) (args : List Byte) (st : State) : Host.Outcome State Fault Refusal :=
  .next (st.onDev (fun d => d.exec l 0x6B args args.isEmpty false false (fun _ d =>
    if d.vault.dbgEn then (.done, [], (d.latchFail 6).mapPwr (fun p => { p with dbgAsk := true })) else (.denied, [], d))))

/-! ## Supplies (R233, R235, 11_ports_partners R263) -/

/-- The charger withholds while VDD5P is valid and VRES is below 11.0 V (R235). -/
def Dev.charger (d : Dev) : Dev := d.mapPwr (fun p => { p with charging := p.vdd5p && decide (p.vres < 11000) })

/-- VDD5P_CHANGE (R233, R263): RS485 ports stop, their frame is cut and waits to be sent again; the charger stops. -/
def execVdd5pChange (ok : Bool) (st : State) : Host.Outcome State Fault Refusal :=
  .next (st.onDev (fun d =>
    let d := (d.mapPwr (fun p => { p with vdd5p := ok })).charger
    let d := d.forEach ((List.range 32).filter (fun p => d.poModule p == 2)) (fun p d => d.upPort p (fun s =>
      { s with no5v := !ok, txn := if ok then s.txn else s.txn.map (fun t => { t with sent := false }),
               ask := if ok then s.ask else [], answer := if ok then s.answer else [] }))
    d))

/-- CHARGER_THRESHOLD (R235): VRES crosses 11.0 V. -/
def execChargerThreshold (vres : Nat) (st : State) : Host.Outcome State Fault Refusal :=
  .next (st.onDev (fun d => (d.mapPwr (fun p => { p with vres := vres })).charger))

/-! ## The event calendar (R249) -/

/-- The first whole multiple of `len` seconds of local time after now, as device seconds. -/
def Dev.nextLocal (d : Dev) (len : Nat) : Nat :=
  let n := max 1 len
  d.clk.secs + (n - d.local_ % n)

/-- A local minute at which a tariff switches or a billing period closes. -/
def Dev.minuteEntry (d : Dev) (loc : Nat) : Bool :=
  (List.range 4).any (fun p =>
    match d.calendar p false with
    | some b => calTariff b (dateTime loc) != calTariff b (dateTime (loc - 60)) || calBillAt b (dateTime loc)
    | none => false)

/-- The device seconds of the next instance of each calendar entry at whole seconds. -/
def Dev.entrySecs (d : Dev) : List Nat :=
  let now := d.clk.secs
  let isles := (List.range 128).filter (fun n => d.ilType n != 0)
  let hour := (now / 3600 + 1) * 3600
  let save := 60 * max 1 d.saveMin
  let minute0 := d.nextLocal 60
  let minutes : List Nat := if d.clk.set then
      (((List.range 60).map (fun k => minute0 + 60 * k)).find? (fun (t : Nat) =>
        d.minuteEntry ((t : Int) + 60 * d.clk.offset).toNat)).toList else []
  let acts : List Nat := if d.clk.set then (List.range 4).filterMap (fun p =>
      (d.calendar p true).bind (fun b =>
        if calActivation b = 0xFFFFFFFF then none else some (now + max 1 (calActivation b - d.local_)))) else []
  let polls : List Nat := (List.range 32).flatMap (fun p =>
    if d.poModule p = 2 ∧ d.pwr.vdd5p = false then []
    else if !d.rEnable p then []
    else if (d.port p).backoff then [(d.port p).probeAt + d.ppBackoff p]
    else (d.polledPartners p).map (fun i => (d.partner i).due))
  let adv := u8 (d.listBytes d.dsp.list) 1
  [hour, (now / save + 1) * save] ++
  isles.map (fun n => d.nextLocal (d.rMins n * 60 / max 1 (d.rSubint n))) ++
  (isles.filter (fun n => profMin (d.ilProfile n) != 0)).map (fun n => d.nextLocal (profMin (d.ilProfile n) * 60)) ++
  minutes ++ acts ++ (if d.clk.set then d.clk.sched.map (fun x => max (now + 1) x.1) else []) ++ polls ++
  (if adv = 0 then [] else [d.dsp.advAt + adv]) ++ (if d.rtdLanes.isEmpty then [] else [now + 1]) ++ d.pwr.wakes

/-- Ticks to the next voltage check, 50 frames after the entry or the last check (R250). -/
def Dev.nextCheck (d : Dev) : Nat := 3200 * (50 - min 50 d.pwr.idle) - min d.off (3200 * (50 - min 50 d.pwr.idle))

/-- A wall-clock change, a manual close or a save waits for the next frame boundary (R249, 01_archipelago R12). -/
def Dev.boundaryWork (d : Dev) : Bool :=
  d.clk.step.isSome || d.clk.newOff.isSome || d.store.saveAsk || d.link.closeNow != 0

/-- Ticks to the next calendar entry but the voltage check. -/
def Dev.nextOther (d : Dev) : Nat :=
  let now := d.timeTicks
  let l := d.entrySecs.map (fun t => 16000 * t - now)
  let l := if d.boundaryWork then (3200 - d.off) :: l else l
  let l := if d.dsp.regions.isEmpty && !d.dsp.dirty then l else 0 :: l
  l.foldl min (2 ^ 32 - 1)

/-- Ticks to the next calendar entry (R249, PWR_NEXT_EVENT); only NAP and SLEEP hold a voltage check (R250). -/
def Dev.nextEntry (d : Dev) : Nat :=
  if d.pwr.mode = .nap ∨ d.pwr.mode = .sleep then min d.nextCheck d.nextOther else d.nextOther

/-! ## Choosing a state (R247, R248) -/

/-- sleep_allowed (R248): no WATER or HEAT isle has a PULSE volume source or an RTD temperature source. -/
def Dev.sleepAllowed (d : Dev) : Bool :=
  !(List.range 128).any (fun n => decide (d.ilType n = 5 ∨ d.ilType n = 6) && (d.ilVolSrc n == 1 || (d.ilType n == 6 && d.ilTempSrc n == 1)))

/-- The conditions of R248 for NAP or SLEEP, outside a check frame and the second of a host wake (R249, R250). -/
def Dev.mayRest (d : Dev) : Bool :=
  decide (d.pwr.mode = .run ∨ d.pwr.mode = .doze) && d.isDead && d.quietDraw &&
  decide (d.link.lastTxn + 3200 ≤ d.clk.runTick) && !d.pwr.check && decide (d.pwr.awake ≤ d.clk.runTick)

/-- STATE_PICKER (R248): SLEEP by way of its entry save, NAP at the end of the tick, or DOZE. -/
def execStatePicker (st : State) : Host.Outcome State Fault Refusal :=
  .next (st.onDev (fun d =>
    if !d.mayRest then d
    else if d.sleepEn && d.sleepAllowed && decide (8480 ≤ d.nextEntry) && decide (736 ≤ d.off) then
      if d.store.rgq.any (fun w => w == .sleepSave) || d.store.rgRun.isSome then d else d.guarded .sleepSave
    else if d.napEn && decide (384 ≤ d.nextEntry) then d.mapPwr (fun p => { p with sleepReq := true })
    else d))

/-! ## Waking (R250 to R253) -/

/-- The frames that passed asleep are closed; at a boundary not yet evaluated the work that starts with a frame follows. -/
def Dev.afterSleep (d : Dev) (metered : Bool) : Dev :=
  let passed := decide (d.run.frame + 1 < d.clk.frameNo)
  let here := d.off == 0 && !d.clk.evald
  let d := d.closeSlept metered
  let d := if here then d.retryGuarded.dueSaves else d
  let d := if passed then d.newParity else d
  d.mapClk (fun c => { c with evald := true })

/-- NAP or SLEEP ends in DOZE: frames closed at the first tick, lanes restarted, attention raised with WOKE. -/
def Dev.wakeUp (d : Dev) : Dev :=
  let d := ((d.afterSleep true).sleptPart).restartLanes
  let d := if d.pwr.mode = .sleep then d.restartPulses else d
  (d.mapPwr (fun p => { p with mode := .doze, idle := 0, check := false, waking := false })).cause 3

/-- Asleep, with the tick able to resume: from SLEEP at a multiple of 125 ticks (R252). -/
def Dev.canWake (d : Dev) : Bool :=
  decide (d.pwr.mode = .nap) || (decide (d.pwr.mode = .sleep) && d.clk.tick % 125 == 0)

/-- WAKE (R253): HCS_N, WAKE_N, a tamper source or VDD33 ends NAP or SLEEP. -/
def execWake (st : State) : Host.Outcome State Fault Refusal :=
  .next (st.onDev (fun d => if d.canWake then d.wakeUp else d))

/-- CALENDAR_WAKE (R248, R250): one wake latency before the next entry; a voltage check keeps the frames unclosed until it
has judged them. -/
def execCalendarWake (st : State) : Host.Outcome State Fault Refusal :=
  .next (st.onDev (fun d =>
    let lat := if d.pwr.mode = .sleep then 480 else 64
    if d.canWake && decide (d.nextOther ≤ lat) then d.wakeUp
    else if d.canWake && decide (d.nextCheck ≤ lat) then
      let d := if d.pwr.mode = .sleep then d.restartPulses else d
      (d.mapPwr (fun p => { p with mode := .doze, check := true, waking := false })).cause 3
    else d))

/-- HOST_WAKE (R249): the time of a host wake has come; RUN or DOZE for at least 1 s. -/
def execHostWake (st : State) : Host.Outcome State Fault Refusal :=
  .next (st.onDev (fun d =>
    if d.pwr.wakes.any (fun t => decide (t ≤ d.clk.secs)) && (d.canWake || decide (d.pwr.mode = .run ∨ d.pwr.mode = .doze)) then
      let d := if d.canWake then d.wakeUp else d
      d.mapPwr (fun p => { p with wakes := p.wakes.filter (fun t => decide (d.clk.secs < t)), awake := d.clk.runTick + 16000 })
    else d))

/-- The busbar has returned (R250): a strait's RMS over the last 1,600 ticks of the check frame reaches DEAD_PCT + 5 %. -/
def Dev.busReturned (d : Dev) : Bool :=
  d.tickStraits.any (fun s =>
    let l := (d.strait s).recent
    let u : Rat := ((d.deadPct + 5 : Nat) : Rat) / 100 * d.uDin s
    !l.isEmpty && decide (u * u ≤ d.vWeight s * d.vWeight s * (sumQ l / l.length)))

/-- VOLTAGE_CHECK (R250): the check frame is over. Voltage returned leaves its frames unmetered, resumes metering and ends the
dead busbar; else they closed as slept, and the picker runs again. -/
def execVoltageCheck (st : State) : Host.Outcome State Fault Refusal :=
  .next (st.onDev (fun d =>
    if d.pwr.check && d.off == 0 && !d.clk.evald && decide (d.pwr.mode = .run ∨ d.pwr.mode = .doze) then
      let back := d.busReturned
      let d := d.afterSleep (!back)
      d.mapPwr (fun p => { p with dead := p.dead && !back, deadN := if back then 0 else p.deadN,
                                  check := false, idle := if back then 0 else 1, checks := satU 32 (p.checks + 1) })
    else d))

/-- WAKE_AT (R249, opcode 0x0012): a host wake at a device time; a seventeenth is busy. -/
def execWakeAt (l : Link) (args : List Byte) (st : State) : Host.Outcome State Fault Refusal :=
  .next (st.onDev (fun d => d.exec l 0x12 args (args.length == 4) false true (fun _ d =>
    if 16 ≤ d.pwr.wakes.length then (.busy, [], d)
    else (.done, [], d.mapPwr (fun p => { p with wakes := p.wakes ++ [u32 args 0] })))))

/-- WAKE_CLEAR (R249, opcode 0x0013). -/
def execWakeClear (l : Link) (args : List Byte) (st : State) : Host.Outcome State Fault Refusal :=
  .next (st.onDev (fun d => d.exec l 0x13 args args.isEmpty false true (fun _ d =>
    (.done, [], d.mapPwr (fun p => { p with wakes := [] })))))

end Sys2Proof.Machine
end

