-- ==== Sys2Proof/Machine/Pins.lean ====
section
/-! DEFINITION. The sampled pads: tamper pins and supply glitches outside HOLD (07_legal_readout R161, R163, 12_events_tamper
R306), and PULSE inputs (11_ports_partners R277, 05_utility_isles R110). Pin arguments are counted levels: true is high. -/

namespace Sys2Proof.Machine

/-! ## Sampling -/

/-- The counted levels of CALSEAL_N, COVER_N, TCOVER_N and MAG_N, in the order of `pinRun`. -/
def Tamper.counted (t : Tamper) (k : Nat) : Bool := nth [t.sealPin, t.cover, t.tcover, t.mag] k true

/-- Every tick the four pins are sampled: how long each has been at another level than the counted one (R161). -/
def Dev.samplePins (d : Dev) (low : List Nat) : Dev :=
  d.mapTam (fun t => { t with pinRun := (List.range 4).map (fun k =>
    if (!decide (k ∈ low)) == t.counted k then 0 else min 160 (t.pinRun.getD k 0 + 1)) })

/-- SCROLL_N is sampled as CALSEAL_N is in RUN, DOZE and NAP (14_display R364): a counted press is held with its tick, and
whether its 2 s have taken effect; the 160th sample at the other level in a row counts. -/
def Dev.sampleScroll (d : Dev) (low : List Nat) : Dev :=
  let press := decide (4 ∈ low)
  d.mapDsp (fun s =>
    if press == s.scroll.isSome then { s with scrollRun := 0 }
    else if s.scrollRun < 159 then { s with scrollRun := s.scrollRun + 1 }
    else { s with scrollRun := 0, scroll := if press then some (d.clk.runTick, false) else none })

/-- The pads sampled every tick. -/
def Dev.samplePads (d : Dev) (low : List Nat) : Dev := (d.samplePins low).sampleScroll low

/-- An enabled input of a PULSE port, where its pulses count. -/
def Dev.pulseOn (d : Dev) (p i : Nat) : Bool :=
  d.isLive && d.poModule p == 3 && bitOf (d.poParam p (8 * i)) 0 &&
  decide (d.pwr.mode = .run ∨ d.pwr.mode = .doze ∨ d.pwr.mode = .nap)

/-- MIN_ON_MS and MIN_OFF_MS of an input, in ticks (R277). -/
def Dev.pulseMin (d : Dev) (p i : Nat) : Nat × Nat := (16 * d.poParam p (8 * i + 1), 16 * d.poParam p (8 * i + 2))

/-- One sample of an input: at an ON edge the OFF time before it decides whether the ON period may count (R277). -/
def PortSt.samplePulse (s : PortSt) (i minOff : Nat) (on : Bool) : PortSt :=
  let n := s.onRun.getD i 0
  let m := s.offRun.getD i 0
  if on then { s with onRun := s.onRun.set i (min 4095 (n + 1)), offRun := s.offRun.set i 0,
                      onOk := if n = 0 then s.onOk.set i (decide (minOff ≤ m)) else s.onOk }
  else { s with onRun := s.onRun.set i 0, offRun := s.offRun.set i (min 4095 (m + 1)), onOk := s.onOk.set i false }

/-- Every tick the enabled PULSE inputs are sampled; ON is low, or high with ACTIVE_HIGH (R277). -/
def Dev.samplePulses (d : Dev) (low : List Nat) : Dev :=
  d.forEach ((List.range 32).filter (fun p => d.isLive && d.poModule p == 3)) (fun p d =>
    d.forEach ((List.range 4).filter (fun i => d.pulseOn p i)) (fun i d => d.upPort p (fun s =>
      s.samplePulse i (d.pulseMin p i).2 (decide (16 + 4 * p + i ∈ low) != bitOf (d.poParam p (8 * i)) 1))))

/-! ## Tamper pins -/

/-- The monitors of the device domain watch the pins: neither held in reset, nor failing, nor in HOLD. -/
def Dev.watching (d : Dev) : Bool :=
  decide (d.pwr.mode = .run ∨ d.pwr.mode = .doze ∨ d.pwr.mode = .nap ∨ d.pwr.mode = .sleep)

/-- A change of pin k to a level counts in this tick: the 160th in a row at the new level, or the one sample of a second in
SLEEP, taken at its start (R161). -/
def Dev.pinCounts (d : Dev) (k : Nat) (high : Bool) : Bool :=
  d.watching && d.tam.counted k != high &&
  (if d.pwr.mode = .sleep then d.clk.tick == 0 else decide (159 ≤ d.tam.pinRun.getD k 0))

/-- A change of a tamper source ends NAP at once, and SLEEP at the next point at which the tick resumes (10_power R252,
R253). -/
def Dev.tamperWake (d : Dev) : Dev :=
  if d.canWake then d.wakeUp else if d.pwr.mode = .sleep then d.mapPwr (fun p => { p with waking := true }) else d

/-- A counted change of pin k: asleep it wakes the device; the count starts anew. -/
def Dev.pinChange (d : Dev) (k : Nat) : Dev := d.tamperWake.mapTam (fun t => { t with pinRun := t.pinRun.set k 0 })

/-- One change of the seal state counts (R161): event, SEAL_OPENS, the SEAL source, the seal-state record. -/
def Dev.sealCounted (d : Dev) : Dev :=
  let d := if d.sealOpen then
      (d.mapTam (fun t => { t with opens := satU 32 (t.opens + 1) })).logNow 0x050 orgDev []
    else d.logNow 0x051 orgDev []
  (d.setSrc 0x03 d.sealOpen).guarded .sealRec

/-- LK values not yet frozen go when the seal closes (R163). -/
def Dev.dropLk (d : Dev) : Dev :=
  if d.sealOpen then d else d.mapLink (fun l => { l with shadow := l.shadow.filter (fun e => !isLk e.1) })

/-- CALSEAL_N (R161, 16_startup R396): a change that counts takes effect on the seal state at once; until an image is live it
leaves no event, ledger entry or record. -/
def execCalsealN (high : Bool) (st : State) : Host.Outcome State Fault Refusal :=
  .next (st.onDev (fun d =>
    if !d.pinCounts 0 high then d
    else
      let d := ((d.pinChange 0).mapTam (fun t => { t with sealPin := high })).dropLk
      if d.isLive then d.sealCounted else d))

/-- COVER_N (R306). -/
def execCoverN (high : Bool) (st : State) : Host.Outcome State Fault Refusal :=
  .next (st.onDev (fun d =>
    if !d.pinCounts 1 high then d
    else ((d.pinChange 1).mapTam (fun t => { t with cover := high })).setSrc 0x01 (!high)))

/-- TCOVER_N (R306). -/
def execTcoverN (high : Bool) (st : State) : Host.Outcome State Fault Refusal :=
  .next (st.onDev (fun d =>
    if !d.pinCounts 2 high then d
    else ((d.pinChange 2).mapTam (fun t => { t with tcover := high })).setSrc 0x02 (!high)))

/-- MAG_N (R306). -/
def execMagN (high : Bool) (st : State) : Host.Outcome State Fault Refusal :=
  .next (st.onDev (fun d =>
    if !d.pinCounts 3 high then d
    else ((d.pinChange 3).mapTam (fun t => { t with mag := high })).setSrc 0x04 (!high)))

/-- The glitch source of a rail: VDD33, VDDC, VDD5P, VBAT. -/
def glitchSource (rail : Nat) : Nat := nth [0x05, 0x07, 0x09, 0x0B] rail 0x05

/-- SUPPLY_GLITCH (R306): a supply has been outside its glitch window for `ns` nanoseconds. -/
def execSupplyGlitch (rail ns : Nat) (st : State) : Host.Outcome State Fault Refusal :=
  onUnit (decide (rail < 4)) "supply" st (fun d =>
    let src := glitchSource rail
    if d.watching && decide ((d.srcThresh src none 100 0).1 ≤ ns) then d.tamperWake.raiseSrc src else d)

/-! ## Pulses (R277, R110) -/

/-- PULSE_ACCEPTED (R277, R110): in the tick in which an ON period that may count has lasted MIN_ON_MS, the input counts. While
the device meters, the isle bound to it takes PULSE_WEIGHT in this frame. -/
def execPulseAccepted (p i : Nat) (st : State) : Host.Outcome State Fault Refusal :=
  onUnit (decide (p < 32) && decide (i < 4)) "pulse input" st (fun d =>
    let s := d.port p
    if !d.pulseOn p i || !s.onOk.getD i false || decide (s.onRun.getD i 0 + 1 ≠ (d.pulseMin p i).1) then d
    else
      let d := d.upPort p (fun s =>
        { s with pulses := s.pulses.set i (satU 32 (s.pulses.getD i 0 + 1)), onOk := s.onOk.set i false })
      match (List.range 128).find? (fun n => decide (d.ilType n = 5 ∨ d.ilType n = 6) && d.ilVolSrc n == 1 && d.ilPulsePort n == p &&
          d.ilPulseIn n == i) with
      | some n =>
        if !d.img.meter then d
        else d.upNow n (fun b => { b with vol := b.vol + d.ilPulseW n })
      | none => d)

/-- PULSE_GLITCH (R277): in the tick in which an input goes OFF, an ON period shorter than MIN_ON_MS is counted. -/
def execPulseGlitch (p i : Nat) (st : State) : Host.Outcome State Fault Refusal :=
  onUnit (decide (p < 32) && decide (i < 4)) "pulse input" st (fun d =>
    let n := (d.port p).onRun.getD i 0
    if !d.pulseOn p i || decide (n = 0) || decide ((d.pulseMin p i).1 ≤ n) then d
    else d.upPort p (fun s => { s with glitch := s.glitch.set i (satU 8 (s.glitch.getD i 0 + 1)), onRun := s.onRun.set i 0 }))

end Sys2Proof.Machine
end

