-- ==== Sys2Proof/Machine/Display.lean ====
section
/-! DEFINITION. The display engine (14_display R348 to R366): memories, panel frames, update regions, the legal strip. -/

namespace Sys2Proof.Machine

/-! ## Memories (R351) -/

/-- The DISPLAY region of the working SRAM. -/
def Dev.dspBase (d : Dev) : Nat := d.regionBase 34

/-- Write bytes of the working SRAM. -/
def Dev.sramPut (d : Dev) (a : Nat) (l : List Byte) : Dev := d.mapStore (fun s => { s with sram := memWrite s.sram a l })
def Dev.sramByte (d : Dev) (a : Nat) : Nat := (memGet d.store.sram a).toNat

/-- The target of a pixel: 0 black to 3 white. -/
def Dev.target (d : Dev) (x y : Nat) : Nat :=
  bitsOf (d.sramByte (d.dspBase + 200 * y + x / 4)) (2 * (x % 4) + 1) (2 * (x % 4))
def Dev.setTarget (d : Dev) (x y v : Nat) : Dev :=
  let a := d.dspBase + 200 * y + x / 4
  let b := d.sramByte a
  d.sramPut a [byteOf (b - d.target x y * 4 ^ (x % 4) + v % 4 * 4 ^ (x % 4))]

/-- A pixel state word: FROM, TO, FRAME, MODE (3 idle), BAND. -/
structure PixelSt where
  from_ : Nat
  to_ : Nat
  frame : Nat
  mode : Nat
  band : Nat
  deriving DecidableEq, Repr

def Dev.pixel (d : Dev) (x y : Nat) : PixelSt :=
  let a := d.dspBase + 0x18000 + 2 * (800 * y + x)
  let w := d.sramByte a + 256 * d.sramByte (a + 1)
  { from_ := bitsOf w 1 0, to_ := bitsOf w 3 2, frame := bitsOf w 9 4, mode := bitsOf w 11 10, band := bitsOf w 15 12 }

def PixelSt.bytes (p : PixelSt) : List Byte :=
  leBytes 2 (p.from_ % 4 + 4 * (p.to_ % 4) + 16 * (p.frame % 64) + 1024 * (p.mode % 4) + 4096 * (p.band % 16))

def Dev.setPixel (d : Dev) (x y : Nat) (p : PixelSt) : Dev := d.sramPut (d.dspBase + 0x18000 + 2 * (800 * y + x)) p.bytes

/-- The OWED bit of a pixel. -/
def Dev.owed (d : Dev) (x y : Nat) : Bool := bitOf (d.sramByte (d.dspBase + 0xD4000 + (800 * y + x) / 8)) ((800 * y + x) % 8)
def Dev.setOwed (d : Dev) (x y : Nat) (v : Bool) : Dev :=
  let a := d.dspBase + 0xD4000 + (800 * y + x) / 8
  let k := (800 * y + x) % 8
  let b := d.sramByte a
  if bitOf b k = v then d else d.sramPut a [byteOf (if v then b + 2 ^ k else b - 2 ^ k)]

/-! ## Regions (R355, R357 to R359) -/

def Region.holds (r : Region) (x y : Nat) : Bool := decide (r.x ≤ x ∧ x < r.x + r.w ∧ r.y ≤ y ∧ y < r.y + r.h)

/-- The pixels of a rectangle, row by row. -/
def rectPixels (x y w h : Nat) : List (Nat × Nat) :=
  (List.range h).flatMap (fun j => (List.range w).map (fun i => (x + i, y + j)))

/-- The most recently activated region over a pixel. -/
def Dev.topRegion (d : Dev) (x y : Nat) : Option Region :=
  (d.dsp.regions.filter (fun r => r.holds x y)).foldl (fun best r =>
    match best with
    | none => some r
    | some q => some (if q.order < r.order then r else q)) none

/-- A region becomes active; GC sets the OWED bits of its rectangle (R357). -/
def Dev.activate (d : Dev) (slot x y w h mode : Nat) (job : Option Nat) : Dev :=
  let d := d.mapDsp (fun s =>
    { s with order := s.order + 1,
             regions := s.regions ++ [{ slot := slot, x := x, y := y, w := w, h := h, mode := mode, order := s.order + 1, job := job,
                                        since := d.clk.runTick }] })
  if mode = 0 then (rectPixels x y w h).foldl (fun d p => d.setOwed p.1 p.2 true) d else d

/-- DISPLAY_UPDATE (R357, opcode 0x0070): X, Y, W, H, MODE. -/
def execDisplayUpdate (l : Link) (args : List Byte) (st : State) : Host.Outcome State Fault Refusal :=
  .next (st.onDev (fun d => d.execJob l 0x70 args (args.length == 9) false true))

/-- The start of a DISPLAY_UPDATE job. -/
def Dev.startUpdate (d : Dev) (j : Job) : Dev :=
  let x := u16 j.args 0
  let y := u16 j.args 2
  let w := u16 j.args 4
  let h := u16 j.args 6
  let mode := u8 j.args 8
  if y < 96 then d.finish j.num .sealed 0 []
  else if w = 0 ∨ h = 0 ∨ d.dspWidth < x + w ∨ d.dspHeight < y + h ∨ 1 < mode then d.finish j.num .range 0 []
  else match (List.range 16).find? (fun s => s != 0 && !d.dsp.regions.any (fun r => r.slot == s)) with
    | none => d.finish j.num .busy 0 []
    | some s => (d.activate s x y w h mode (some j.num)).upJob j.num (fun z => { z with stage := 4 })

/-- An abort frees the job's region; its OWED bits clear where no other active GC region covers the pixel (R359). -/
def Dev.abortUpdate (d : Dev) (job : Nat) : Dev :=
  let gone := d.dsp.regions.filter (fun r => decide (r.job = some job))
  let d := d.mapDsp (fun s => { s with regions := s.regions.filter (fun r => decide (r.job ≠ some job)) })
  gone.foldl (fun d r => (rectPixels r.x r.y r.w r.h).foldl (fun d p =>
    if d.dsp.regions.any (fun q => q.mode == 0 && q.holds p.1 p.2) then d else d.setOwed p.1 p.2 false) d) d

/-! ## Panel frames (R349, R350, R353 to R356) -/

/-- FRAMES of a mode (R353). -/
def Dev.waveFrames (d : Dev) (mode : Nat) : Nat := u8 (d.dspBytes (0x1150 + mode) 1) 0

/-- The drive code of a waveform frame: 0 none, 1 toward black, 2 toward white (R353). -/
def Dev.driveCode (d : Dev) (mode band o n f : Nat) : Nat :=
  bitsOf (u8 (d.dspBytes (0x1160 + 0x100 * (12 * mode + band) + 0x10 * (4 * o + n) + f / 4) 1) 0) (2 * (f % 4) + 1) (2 * (f % 4))

/-- One step of a waveform in progress (R355). -/
def Dev.driveNext (d : Dev) (p : PixelSt) : PixelSt :=
  if d.waveFrames p.mode ≤ p.frame + 1 then { p with mode := 3, from_ := p.to_ } else { p with frame := p.frame + 1 }

/-- The slots of the active regions over a pixel. -/
def Dev.slotsAt (d : Dev) (x y : Nat) : List Nat := (d.dsp.regions.filter (fun r => r.holds x y)).map (fun r => r.slot)

/-- A pixel that the scanner leaves idle, with OWED clear and FROM equal to its target, is done for its regions (R358). -/
def Dev.pixelDone (d : Dev) (x y : Nat) : Bool :=
  let p := d.pixel x y
  p.mode == 3 && !d.owed x y && p.from_ == d.target x y

/-- The scanner treats one pixel (R355); answers its drive code. -/
def Dev.scanPixel (d : Dev) (band x y : Nat) : Nat × Dev :=
  let p := d.pixel x y
  if p.mode ≠ 3 then (d.driveCode p.mode p.band p.from_ p.to_ p.frame, d.setPixel x y (d.driveNext p))
  else match d.topRegion x y with
    | none => (0, d)
    | some r =>
      let t := d.target x y
      if t ≠ p.from_ ∨ d.owed x y = true then
        let q : PixelSt := { p with to_ := t, frame := 0, mode := r.mode, band := band }
        (d.driveCode q.mode q.band q.from_ q.to_ 0, (d.setOwed x y false).setPixel x y (d.driveNext q))
      else (0, d)

/-- The scanner treats a row: its drive codes, and the slots of regions it leaves with a pixel not done. -/
def Dev.scanRow (d : Dev) (band y : Nat) (bad : List Nat) : List Nat × List Nat × Dev :=
  (List.range d.dspWidth).foldl (fun (acc : List Nat × List Nat × Dev) x =>
    let (c, d) := acc.2.2.scanPixel band x y
    let l := if d.pixelDone x y then [] else d.slotsAt x y
    (acc.1 ++ [c], l.filter (fun s => decide (s ∉ acc.2.1)) ++ acc.2.1, d)) ([], bad, d)

/-- System clocks of a line period (R349). -/
def Dev.lineClocks (d : Dev) : Nat := 8 * (d.panelTicks * 12288 / (8 * (d.dspHeight + 10)))

/-- The rows read in a tick of a panel frame. -/
def Dev.rowsIn (d : Dev) (k : Nat) : List Nat := (List.range d.dspHeight).filter (fun y => y * d.lineClocks / 12288 == k)

/-- The scan of the ending tick, which leaves its rows on the source data lines, and the end of the panel frame: regions that
it leaves with every pixel done complete (R358). -/
def Dev.scanTick (d : Dev) : Dev :=
  match d.dsp.scan with
  | none => d
  | some (t0, band, bad) =>
    let k := d.clk.runTick - t0
    let d := d.mapDsp (fun s => { s with rows := [] })
    let (bad, d) := (d.rowsIn k).foldl (fun (acc : List Nat × Dev) y =>
      let (l, bad, d) := acc.2.scanRow band y acc.1
      (bad, d.mapDsp (fun s => { s with rows := s.rows ++ [(y, l)] }))) (bad, d)
    if k + 1 < d.panelTicks then d.mapDsp (fun s => { s with scan := some (t0, band, bad) })
    else
      let ended := d.dsp.regions.filter (fun r => decide (r.since ≤ t0) && decide (r.slot ∉ bad))
      let d := d.mapDsp (fun s => { s with scan := none, regions := s.regions.filter (fun r => decide (r ∉ ended)) })
      ended.foldl (fun d r => match r.job with | some j => d.finish j .done 0 [] | none => d) d

/-- The grant the scanner holds, of class 5 or 1. -/
def Dev.dspGrant (d : Dev) : Option Draw := (d.grantOf .scanner).orElse (fun _ => d.grantOf .tamperDisplay)

/-- PANEL_FRAME (R350, R355): a panel frame starts under the grant, while it ends within it. -/
def execPanelFrame (st : State) : Host.Outcome State Fault Refusal :=
  .next (st.onDev (fun d =>
    match d.dspGrant with
    | some g =>
      if d.isLive && d.dsp.scan.isNone && d.dsp.pmic && decide (d.dsp.nextAt ≤ d.clk.runTick) &&
          decide (d.clk.runTick + d.panelTicks ≤ g.until_) then
        d.mapDsp (fun s =>
          { s with scan := some (d.clk.runTick, d.band, []), frames := satU 32 (s.frames + 1), nextAt := d.clk.runTick + d.panelTicks })
      else d
    | none => d))

/-! ## Panel signals (R348, R349, R415) -/

/-- The levels of the panel's control signals: SDLE, SDOE, GDCLK, GDSP, GDOE, PMIC_EN. -/
structure PanelPins where
  sdle  : Bool
  sdoe  : Bool
  gdclk : Bool
  gdsp  : Bool
  gdoe  : Bool
  pmic  : Bool
  deriving DecidableEq, Repr

/-- The control signals in SDCLK period `c` of line period `j`. GDCLK is high for two periods, and GDSP for one period before
and after row 0's edge at least (R349, R415). -/
def Dev.linePins (d : Dev) (j c : Nat) : PanelPins :=
  let w := d.dspWidth / 4
  let row := decide (j < d.dspHeight)
  { sdle := row && decide (w ≤ c ∧ c < w + 2), sdoe := row && decide (w + 3 ≤ c ∧ c + 9 ≤ d.lineClocks / 8),
    gdclk := row && decide (w + 2 ≤ c ∧ c < w + 4), gdsp := decide (j = 0 ∧ w < c ∧ c < w + 4), gdoe := row, pmic := d.dsp.pmic }

/-- The control signals at system clock `n` of the running tick: low without a running panel frame, and all low from the
power-fail latch and in HOLD (R348). -/
def Dev.panelPins (d : Dev) (n : Nat) : PanelPins :=
  let low : PanelPins := { sdle := false, sdoe := false, gdclk := false, gdsp := false, gdoe := false, pmic := false }
  if d.pwr.mode = .failing ∨ d.pwr.mode = .hold ∨ d.pwr.mode = .reset then low
  else match d.dsp.scan with
    | none => { low with pmic := d.dsp.pmic }
    | some (t0, _, _) =>
      let c := 12288 * (d.clk.runTick - t0) + n
      d.linePins (c / d.lineClocks) (c % d.lineClocks / 8)

/-- SD[0..7] in SDCLK cycle `c` of a row that the last tick scanned: pixel x on SD[2(x mod 4) + 1] and SD[2(x mod 4)] in cycle
x / 4 (R348). -/
def Dev.sourceData (d : Dev) (y c : Nat) : Byte :=
  match (if d.pwr.mode = .run ∨ d.pwr.mode = .doze then d.dsp.rows else []).find? (fun r => r.1 == y) with
  | some (_, l) => byteOf (sumN ((List.range 4).map (fun i => l.getD (4 * c + i) 0 * 4 ^ i)))
  | none => 0#8

/-- A pixel runs a waveform or needs to start one (R350). -/
def Dev.pixelWork (d : Dev) : Bool :=
  (rectPixels 0 0 d.dspWidth d.dspHeight).any (fun (x, y) =>
    let p := d.pixel x y
    p.mode != 3 || (d.dsp.regions.any (fun r => r.holds x y) && (d.target x y != p.from_ || d.owed x y)))

/-- The scanner files in a tick in which it has work, no grant and no request (R350). -/
def Dev.scanFile (d : Dev) : Dev :=
  if !d.isLive || d.dspGrant.isSome || d.outstanding .scanner || d.outstanding .tamperDisplay || !d.pixelWork then d
  else (d.mapDsp (fun s => { s with nextAt := max s.nextAt (d.clk.runTick + 1) })).file .scanner 5 12 d.scanTicks

/-- A panel frame that would have started in the ending tick without a grant is counted as skipped (R350). -/
def Dev.scanSkip (d : Dev) : Dev :=
  if d.isLive && d.dspGrant.isNone && (d.waiting .scanner || d.waiting .tamperDisplay) && decide (d.dsp.nextAt ≤ d.clk.runTick) then
    d.mapDsp (fun s => { s with skipped := satU 32 (s.skipped + 1), nextAt := d.clk.runTick + d.panelTicks })
  else d

/-- PMIC_EN and the first panel frame at a grant boundary; the tick at which a grant returned (R350). `had` is the grant
held until this boundary. -/
def Dev.scanGrants (d : Dev) (had : Option Draw) : Dev :=
  let now := d.clk.runTick
  let d := match had with
    | some g => if g.until_ ≤ now then d.mapDsp (fun s => { s with retAt := now }) else d
    | none => d
  if d.grantedNow .scanner || d.grantedNow .tamperDisplay then
    d.mapDsp (fun s =>
      if s.pmic then { s with nextAt := now } else { s with pmic := true, pmicAt := now, nextAt := now + 16 })
  else d

/-- PMIC_EN_FALL (R350): 16 ticks after a grant returned without a new one. -/
def execPmicEnFall (st : State) : Host.Outcome State Fault Refusal :=
  .next (st.onDev (fun d =>
    if d.dsp.pmic && d.dspGrant.isNone && decide (d.dsp.retAt + 16 ≤ d.clk.runTick) then d.mapDsp (fun s => { s with pmic := false })
    else d))

/-! ## The strip (R361 to R364) -/

/-- The item shown. -/
def Dev.shown (d : Dev) : Item := d.item d.dsp.list d.dsp.item

/-- Characters as cell codes: ASCII, 0xB3 for the cubed sign, 0x80 to 0x87 for the eight icons in the order of R362. -/
def cellCodes (s : String) : List Nat := s.toList.map (fun c => c.toNat)

/-- The icons of the FLAGS field: one for each set bit, in order (R362). -/
def Dev.stripFlags (d : Dev) : List Nat :=
  let x := d.shown
  let i := d.isle x.isle
  let own := decide (x.kind ≠ 2)
  let bits := [d.tam.ledger.any (fun e => e.2.disp), d.sealOpen, d.tam.freeze, d.vault.debug,
    own && (bitOf i.status 1 || bitOf i.status 2 || bitOf i.status 3), own && bitOf i.status 6,
    own && decide (d.ilRelay x.isle ≠ 0xFFFF) && d.relayOpen (d.ilRelay x.isle), own && i.dem.warn]
  (List.range 8).filterMap (fun k => if bits.getD k false then some (0x80 + k) else none)

/-- The lowest-numbered source with DISPLAY_LATCH (R362). -/
def Dev.stripSource (d : Dev) : Option Nat :=
  ((d.tam.ledger.filter (fun e => e.2.disp)).map (fun e => keySource e.1)).foldl (fun best s =>
    match best with | none => some s | some b => some (min b s)) none

/-- The cells of a field: MAXCHARS codes, 32 for blank. -/
def Dev.fieldCells (d : Dev) (f : List Byte) : List Nat :=
  let n := u8 f 8
  let x := d.shown
  let hex (k : Nat) : Nat := if k < 10 then 0x30 + k else 0x37 + k
  let left (l : List Nat) : List Nat := (l ++ List.replicate n 32).take n
  match u8 f 0 with
  | 1 => left (cellCodes (d.obisText x))
  | 2 => let l := cellCodes (d.valueText x); List.replicate (n - l.length) 32 ++ l.drop (l.length - n)
  | 3 => left (cellCodes (d.unitText (String.ofList ['m', Char.ofNat 0xB3]) x))
  | 4 => left d.stripFlags
  | 5 => left (match d.stripSource with | some s => [0x54, 0x41, hex (s / 16 % 16), hex (s % 16)] | none => [])
  | 6 => left (cellCodes (toString d.dsp.list ++ "." ++ padDec 2 d.dsp.item))
  | _ => []

/-- Draw a field's pixels into the target memory; answers whether any pixel changed. -/
def Dev.drawField (d : Dev) (f : List Byte) : Bool × Dev :=
  let (w, h) := cellSize (u8 f 1)
  let cells := d.fieldCells f
  (rectPixels 0 0 (w * cells.length) h).foldl (fun (acc : Bool × Dev) p =>
    let x := u16 f 2 + p.1
    let y := u16 f 4 + p.2
    let v := if Config.glyph (u8 f 1) (cells.getD (p.1 / w) 32) (p.1 % w) p.2 then u8 f 6 else u8 f 7
    if acc.2.target x y = v then acc else (true, acc.2.setTarget x y v)) (false, d)

/-- Render the strip; slot 0 becomes active in LEGAL mode when a pixel changes and it is not active already (R363). -/
def Dev.renderStrip (d : Dev) : Dev :=
  let fs := ((List.range 16).map (fun i => d.dspBytes (0x10 + 16 * i) 16)).filter (fun f => u8 f 0 != 0)
  let (changed, d) := fs.foldl (fun (acc : Bool × Dev) f =>
    let (c, d) := acc.2.drawField f
    (acc.1 || c, d)) (false, d)
  let d := d.mapDsp (fun s => { s with dirty := false })
  if changed && !d.dsp.regions.any (fun r => r.slot == 0) then d.activate 0 0 0 d.dspWidth 96 2 none else d

/-- STRIP_RENDER (R363): offset 736 of frame 0 of a device second, and of a frame in which the item, the list or a
DISPLAY_LATCH changed. -/
def execStripRender (st : State) : Host.Outcome State Fault Refusal :=
  .next (st.onDev (fun d =>
    if d.isLive && d.off == 736 && (d.frameInSec == 0 || d.dsp.dirty) && decide (d.pwr.mode = .run ∨ d.pwr.mode = .doze) then
      d.renderStrip
    else d))

/-- Show an item of a list; the timer starts again. -/
def Dev.showItem (d : Dev) (list item : Nat) : Dev :=
  d.mapDsp (fun s => { s with list := list, item := item, dirty := true, advAt := d.clk.secs })

/-- The next item of the list shown, wrapping (R364). -/
def Dev.nextItem (d : Dev) : Dev :=
  d.showItem d.dsp.list (if d.dsp.item + 1 < d.listCount d.dsp.list then d.dsp.item + 1 else 0)

/-- A press of SCROLL_N counts (R364): not sampled in SLEEP or HOLD. -/
def Dev.pressed (d : Dev) : Bool := d.isLive && decide (d.pwr.mode = .run ∨ d.pwr.mode = .doze ∨ d.pwr.mode = .nap)

def Dev.pressNow (d : Dev) : Dev := d.mapDsp (fun s => { s with pressAt := d.clk.secs })

/-- Two seconds in ticks. -/
def twoSeconds : Nat := 32000

/-- The release of the counted press counts in this tick, within 2 s of it. -/
def Dev.released (d : Dev) : Bool :=
  d.pressed && decide (159 ≤ d.dsp.scrollRun) &&
  d.dsp.scroll.any (fun p => !p.2 && decide (d.clk.runTick < p.1 + twoSeconds))

/-- The counted press has been held for 2 s. -/
def Dev.heldPress (d : Dev) : Bool :=
  d.pressed && d.dsp.scroll.any (fun p => !p.2 && decide (p.1 + twoSeconds ≤ d.clk.runTick))

/-- SCROLL_N (R364): a press released within 2 s, in the tick in which its release counts. -/
def execScrollN (st : State) : Host.Outcome State Fault Refusal :=
  .next (st.onDev (fun d =>
    if d.released then d.nextItem.pressNow.mapDsp (fun s => { s with scroll := none, scrollRun := 0 }) else d))

/-- The next list with items after one, wrapping to list 0. -/
def Dev.nextList (d : Dev) (k : Nat) : Nat :=
  ((List.range 8).find? (fun j => decide (k < j) && d.listCount j != 0)).getD 0

/-- SCROLL_N_HOLD (R364): a press held for 2 s, once for each press. -/
def execScrollNHold (st : State) : Host.Outcome State Fault Refusal :=
  .next (st.onDev (fun d =>
    if d.heldPress then
      (d.showItem (d.nextList d.dsp.list) 0).pressNow.mapDsp (fun s => { s with scroll := s.scroll.map (fun p => (p.1, true)) })
    else d))

/-- SCROLL_TIMER (R364): at tick-of-second 0, ADVANCE seconds after the last advance. -/
def execScrollTimer (st : State) : Host.Outcome State Fault Refusal :=
  .next (st.onDev (fun d =>
    let adv := u8 (d.listBytes d.dsp.list) 1
    if d.isLive && d.clk.tick == 0 && adv != 0 && decide (d.dsp.advAt + adv ≤ d.clk.secs) &&
        decide (d.pwr.mode = .run ∨ d.pwr.mode = .doze) then d.nextItem
    else d))

/-- LIST_RETURN (R364): 120 s without a press or a DSP_CTL write on another list. -/
def execListReturn (st : State) : Host.Outcome State Fault Refusal :=
  .next (st.onDev (fun d =>
    if d.pressed && d.dsp.list != 0 && decide (d.dsp.pressAt + 120 ≤ d.clk.secs) then d.showItem 0 0 else d))

/-- A DSP_CTL write takes effect: item 0 of its list (R364, R365). -/
def Dev.selectList (d : Dev) (k : Nat) : Dev := (d.showItem (k % 8) 0).pressNow

/-! ## Host writes (R352, 09_store R203) -/

/-- The refusal of a write to the display region: strip rows, then the state planes. -/
def displayRefusal (off n : Nat) : Option Status :=
  if off < 0x4B00 then some .sealed else if 0x17700 < off + n then some .denied else none

/-- One WR to the SRAM window: region rules, then R352 in the DISPLAY region; it takes effect at the next tick boundary. -/
def Dev.wrSram (d : Dev) (l : Link) (addr : Nat) (data : List Byte) : Dev :=
  let n := data.length
  d.transact l 1 (0x01000000 + addr) n data (decide (addr % 4 = 0 ∧ n % 4 = 0 ∧ 0 < n)) (decide (addr < 0x800000 ∧ addr + n ≤ 0x800000))
    (fun _ d =>
      match d.sramRefusal addr n 4 with
      | some st => (st, [], d)
      | none =>
        let off := addr - d.dspBase
        match (if (tilesOf addr n).any (fun t => (d.regionAt true (1024 * t)).any (fun r => r.1 == 34)) then
                 displayRefusal off (addr + n - d.dspBase - off) else none) with
        | some st => (st, [], d)
        | none => (.done, [], d.mapLink (fun k => { k with plain := k.plain ++ [.bytes addr data] })))

/-- SRAM_WINDOW_WRITE (R203, R207). -/
def execSramWindowWrite (l : Link) (addr : Nat) (data : List Byte) (st : State) : Host.Outcome State Fault Refusal :=
  .next (st.onDev (fun d => d.wrSram l addr data))

/-- DISPLAY_REGION_WRITE (R352): a write at an offset of the DISPLAY region. -/
def execDisplayRegionWrite (l : Link) (off : Nat) (data : List Byte) (st : State) : Host.Outcome State Fault Refusal :=
  .next (st.onDev (fun d => d.wrSram l (d.dspBase + off) data))

/-! ## Power-up (R366) -/

/-- The display after a go-live of the power-up order (16_startup R392, step 9): targets grey 3, every pixel idle from 3, every
OWED bit set, the strip rendered, slot 0 over the whole panel in GC mode. -/
def Dev.setUpDisplay (d : Dev) : Dev :=
  let idle : PixelSt := { from_ := 3, to_ := 0, frame := 0, mode := 3, band := d.band }
  let now := d.clk.secs
  let d := d.mapDsp (fun s => { s with regions := [], list := 0, item := 0, advAt := now, pressAt := now, scan := none, rows := [] })
  let d := d.sramPut d.dspBase (List.replicate 96000 0xFF#8)
  let d := d.sramPut (d.dspBase + 0x18000) ((List.range 384000).flatMap (fun _ => idle.bytes))
  let d := d.sramPut (d.dspBase + 0xD4000) (List.replicate 48000 0xFF#8)
  let d := d.renderStrip
  let d := d.mapDsp (fun s => { s with regions := [] })
  d.activate 0 0 0 d.dspWidth d.dspHeight 0 none

end Sys2Proof.Machine
end

