-- ==== Sys2Proof/Machine/Views.lean ====
section
/-! DEFINITION. What an RD returns (15_host_link R374, R376, R381): every register word and every word of view space,
each from the device as it stands in the running tick. -/

namespace Sys2Proof.Machine

/-- A word of a digest (R383, R192): word i holds bytes 4i to 4i + 3; 0 without one. -/
def digestWord (l : List Byte) (o : Nat) : Nat := u32 l o

/-- The high word of a number. -/
def hiWord (x : Nat) : Nat := x / 2 ^ 32

/-- How many of a list hold. -/
def countIf {α : Type} (p : α → Bool) (l : List α) : Nat := (l.filter p).length

/-! ## Registers (R75, R76, R89, R264, R365, R383) -/

/-- A root is in force: the production root, or the test root with debug enabled (R347). -/
def Dev.rootInForce (d : Dev) : Bool := d.vault.rootOk || d.vault.debug

/-- The read-only bits of the device block. -/
def Dev.roDevice (d : Dev) (a : Nat) : Nat :=
  if a = 0 then 0xB09192
  else if a = 4 ∨ a = 8 ∨ a = 0xC then (Config.serial.toNat / 2 ^ (8 * (a - 4))) % 2 ^ 32
  else if a = 0x10 then flagAt 0 d.isLive + flagAt 1 d.img.meter + flagAt 2 d.vault.debug + flagAt 3 d.rootInForce
  else if a = 0x14 then d.pwr.cause
  else if a = 0x18 then d.sealWord
  else if a = 0x1C then d.tam.opens
  else if a = 0x20 then d.tam.calCnt
  else if a = 0x24 then d.causeWord.toNat
  else if a = 0x2C then d.link.lastSt + 256 * d.link.lastCmd + 65536 * d.link.crcErr
  else if 0x40 ≤ a ∧ a < 0x60 then digestWord d.legalDigest (a - 0x40)
  else if 0x60 ≤ a ∧ a < 0x80 then digestWord d.img.calDig (a - 0x60)
  else if a = 0x1000 then
    flagAt 0 d.clk.pllLock + flagAt 1 d.clk.slew.isSome + flagAt 2 (d.clk.slew.any (fun w => !w.advance)) + 8 * d.frameInSec
  else if a = 0x1004 then (d.clk.slew.map (fun w => twos 32 (roundOpen 19 w.left))).getD 0
  else if a = 0x1008 then d.clk.slips
  else if a = 0x3000 then d.clk.secs
  else if a = 0x3004 then d.clk.tick + flagAt 16 d.clk.set
  else if a = 0x3008 then twos 16 d.clk.offset + 65536 * d.clk.sched.length
  else if a = 0x5000 then
    match d.vault.session with
    | some s => s.role + 4 + 65536 * cdiv (s.lastT + 9600000 - d.clk.runTick) 16000
    | none => 0
  else if a = 0x6000 then
    flagAt 0 (d.tam.ledger.any (fun e => e.2.flagged)) + flagAt 1 (d.tam.ledger.any (fun e => e.2.raised)) +
    flagAt 2 d.tam.freeze + flagAt 3 d.alarmLow + flagAt 4 (decide (d.bak.wipe ≠ 0))
  else if a = 0x6004 then d.run.evtSeq
  else if a = 0x6008 then d.evt.queue.length + d.evt.released.length + 256 * d.evt.released.length
  else if a = 0x600C then d.evt.dropped
  else if a = 0x6010 then
    countIf (fun e => e.2.state == 1) d.run.knots + 65536 * countIf (fun e => e.2.state == 1 && e.2.suspect) d.run.knots
  else if a = 0x7008 then
    d.dsp.list + 8 * d.dsp.item + flagAt 9 d.dspGrant.isSome + flagAt 10 d.dsp.pmic +
    flagAt 11 (d.waiting .scanner || d.waiting .tamperDisplay) + 4096 * d.dsp.regions.length
  else if a = 0x700C then d.dsp.frames
  else if a = 0x7010 then d.dsp.skipped
  else 0

/-- PORT_STATUS (R264). -/
def Dev.portStatus (d : Dev) (p : Nat) : Nat :=
  let x := d.port p
  flagAt 0 (d.poModule p != 0) + flagAt 1 x.txn.isSome + flagAt 2 (d.waiting (.port p)) + flagAt 3 x.backoff +
  flagAt 4 (d.portSpliced p) + flagAt 5 x.disc.isSome + flagAt 6 x.fault + flagAt 7 x.no5v +
  256 * (d.polledPartners p).length + 2 ^ 18 * countIf (fun i => decide ((d.partner i).state = .lost)) (d.portPartners p)

/-- The read-only bits of a register. -/
def Dev.roBits (d : Dev) (a : Nat) : Nat :=
  if a < 0x8000 then d.roDevice a
  else if a < 0x8400 then
    let s := (a - 0x8000) / 0x40
    if a % 0x40 = 0 then d.stLane s + flagAt 8 (d.stGrid60 s) else 0
  else if 0x10000 ≤ a ∧ a < 0x11800 then
    let e := (a - 0x10000) / 0x20
    if a % 0x20 = 0 then
      bitsOf (d.elKind e) 2 0 + 256 * d.elLaneI e + 65536 * d.elLane2 e + 2 ^ 24 * (d.elStrait e % 32)
    else 0
  else if 0x20000 ≤ a ∧ a < 0x21000 then
    let n := (a - 0x20000) / 0x20
    if a % 0x20 = 0 then
      d.ilType n + flagAt 4 (d.ilX10 n) + flagAt 5 (d.ilVector n) + flagAt 6 (d.ilNever n) + 65536 * (d.isleElems n).length
    else 0
  else if 0x30000 ≤ a ∧ a < 0x30800 then
    let p := (a - 0x30000) / 0x40
    let o := a % 0x40
    if o = 0 then bitsOf (d.poModule p) 2 0 + flagAt 3 (d.portSlave p) + 256 * u8 (d.ent 6 p) 1
    else if o = 8 then d.portStatus p
    else if o = 0x10 then bitsOf (d.poDraw p) 2 0 + 65536 * d.poGuard p
    else 0
  else 0

/-- The word at a register address. A port in the OPTO module shows the baud rate in force (R264, R281). -/
def Dev.regWord (d : Dev) (a : Nat) : Nat :=
  if 0x30000 ≤ a ∧ a < 0x30800 ∧ a % 0x40 = 4 ∧ d.poModule ((a - 0x30000) / 0x40) = 5 then
    d.baud ((a - 0x30000) / 0x40)
  else d.regN a ||| d.roBits a

/-! ## Isle-level views -/

/-- One word of the register blocks of a billing view or a snapshot (R130, R150). -/
def regBlockWord (regs : Tab BReg) (o : Nat) : Nat :=
  let q := o % 0x80 / 8
  if q < 12 then (let (lo, hi) := regWords regs (o / 0x80) q; if o % 8 = 0 then lo else hi) else 0

/-- One word of the maximum-demand table of a demand view or a snapshot (R139, R150). -/
def maxWord (m : Tab (Nat × Nat)) (o : Nat) : Nat :=
  let x := tabGet (0, 0) m (4 * (o / 0x18) + o % 0x18 / 8)
  if o % 8 = 0 then x.1 else x.2

/-- Billing view (R130): 0 until the image goes live. -/
def Dev.billingWord (d : Dev) (n o : Nat) : Nat :=
  let i := d.isle n
  if o = 0x494 then (if d.isLive then d.ilModulus n + flagAt 2 (d.ilX10 n) else 2)
  else if !d.isLive then 0
  else if o < 0x480 then regBlockWord i.regs o
  else if o = 0x480 then i.closedS
  else if o = 0x484 then i.closedT
  else if o = 0x488 then i.cfgN.tariff + 16 * i.cfgN.plan + flagAt 6 i.cfgN.dflt
  else if o = 0x48C then i.lastClosed
  else if o = 0x490 then i.period
  else 0

/-- Demand view (R139). -/
def Dev.demandWord (d : Dev) (n o : Nat) : Nat :=
  let m := (d.isle n).dem
  if !d.isLive then 0
  else if o = 0 then m.vStat
  else if o < 0x10 then nth m.run ((o - 4) / 4) 0
  else if o < 0x1C then nth m.last ((o - 0x10) / 4) 0
  else if o = 0x1C then m.lastEnd
  else if 0x40 ≤ o ∧ o < 0x118 then maxWord m.max (o - 0x40)
  else 0

/-- Snapshot view (R150). -/
def Dev.snapWord (d : Dev) (n k o : Nat) : Nat :=
  match (d.isle n).snaps[k]? with
  | none => 0
  | some s =>
    if !d.isLive then 0
    else if o = 0 then s.close else if o = 4 then s.localS else if o = 8 then s.period else if o = 0xC then s.flags
    else if 0x80 ≤ o ∧ o < 0x500 then regBlockWord s.regs (o - 0x80)
    else if 0x500 ≤ o ∧ o < 0x5D8 then maxWord s.max (o - 0x500)
    else 0

/-- Isle view (R91): the energy words are the values of 2^-16 fine LSB shifted right arithmetically by 16. -/
def Dev.isleWord (d : Dev) (n o : Nat) : Nat :=
  let i := d.isle n
  let disc := satU 64 (i.disc / 65536)
  let ep := i.vEp / 65536
  let eq := i.vEq / 65536
  let s := i.vS / 65536
  if o = 0 then flagAt 0 (d.ilType n != 0) ||| i.status else if o = 4 then i.sticky
  else if o = 8 then twos 32 ep else if o = 0xC then hiWord (twos 64 ep)
  else if o = 0x10 then twos 32 eq else if o = 0x14 then hiWord (twos 64 eq)
  else if o = 0x18 then s % 2 ^ 32 else if o = 0x1C then hiWord s % 2 ^ 32
  else if o = 0x20 then i.crP else if o = 0x24 then i.crQ
  else if o = 0x28 then disc % 2 ^ 32 else if o = 0x2C then hiWord disc
  else if o = 0x30 then i.nrms else if o = 0x34 then i.vNm + 65536 * i.vUnm
  else 0

/-- Harmonic order profile (R99), newest record first. -/
def Dev.hxWord (d : Dev) (n o : Nat) : Nat :=
  match (d.isle n).hx[o / 0x100]? with
  | none => 0
  | some r =>
    let x := o % 0x100
    if x = 0 then r.hour
    else if x = 0xFC then flagAt 0 r.gap + flagAt 1 r.partl
    else satU 32 (rne (tabGet 0 r.e (x / 4 + 1))).toNat

/-- Utility view (R124). -/
def Dev.utilityWord (d : Dev) (n o : Nat) : Nat :=
  let u := (d.isle n).util
  let v := u.view
  let b := v.base
  if !d.isLive || d.ilElec n || d.ilType n == 0 then 0
  else if o = 0 then flagAt 0 v.leak + flagAt 1 v.reverse + flagAt 2 u.sensor + flagAt 3 u.noHist + flagAt 4 v.rebased
  else if o = 4 then twos 32 u.thS else if o = 8 then twos 32 u.thR else if o = 0xC then (f32 u.k).toNat
  else if o = 0x10 then u.volF else if o = 0x14 then b % 2 ^ 32 else if o = 0x18 then hiWord b % 2 ^ 32
  else if o = 0x1C then v.hours else if o = 0x20 then satU 32 (u.fault / 5)
  else 0

/-! ## Element-level views -/

/-- Strait view (R79). -/
def Dev.straitWord (d : Dev) (s o : Nat) : Nat :=
  let x := d.strait s
  if o = 0 then
    flagAt 0 x.vActive + flagAt 1 x.vLocked + flagAt 2 x.lost + flagAt 3 x.estF
  else if o = 4 then x.freq else if o = 8 then x.period else if o = 0xC then x.vrms
  else if o = 0x10 then x.qcorr.toNat else if o = 0x14 then x.vUnlocks
  else 0

/-- Element view (R79). -/
def Dev.elemWord (d : Dev) (e o : Nat) : Nat :=
  let x := d.elem e
  if o = 0 then flagAt 0 x.vActive + x.status + 65536 * (if d.elKind e = 0 then 0xFF else d.elIsle e)
  else if o = 4 then x.irms
  else if o = 8 then twos 32 x.ep else if o = 0xC then hiWord (twos 64 x.ep)
  else if o = 0x10 then twos 32 x.eq else if o = 0x14 then hiWord (twos 64 x.eq)
  else if o = 0x18 then twos 32 x.delay
  else 0

/-- A window record (R97). -/
def WinRec.word (w : WinRec) (o : Nat) : Nat :=
  let h (l : List Word) (b : Nat) : Nat := (nth l ((o - b) / 4) 0#32).toNat
  if o = 0 then w.secs
  else if o = 4 then w.tick + flagAt 16 w.locked + flagAt 17 w.flagged + 2 ^ 18 * w.limit
  else if o = 8 then w.len else if o = 0xC then w.f1.toNat else if o = 0x10 then w.rms.toNat
  else if o = 0x14 then w.thd.toNat else if o = 0x18 then w.seq
  else if 0x20 ≤ o ∧ o < 0x11C then h w.mag 0x20
  else if 0x120 ≤ o ∧ o < 0x21C then h w.p 0x120
  else if 0x220 ≤ o ∧ o < 0x31C then h w.q 0x220
  else 0

/-! ## Archipelago-level views -/

/-- Frames to the strictly next frame `at_` of the cycle. -/
def Dev.framesTo (d : Dev) (at_ : Nat) : Nat :=
  let c := d.rot.frames
  (at_ + c - d.cycleFrame - 1) % max 1 c + 1

/-- LANE_ROTATION (R58): of a lane the next parallel measurement and its ferry, of a ferry the next visit and the lane
connected. -/
def Dev.rotationWord (d : Dev) (n : Nat) : Nat :=
  if n < 192 then
    match (if d.rot.running then d.rot.lanes.findIdx? (fun x => x == n) else none) with
    | none => 0xFFFFFF
    | some j =>
      let k := d.rot.ferries.length
      satU 16 (d.framesTo (12 * (j / max 1 k) + 4)) + 65536 * nth d.rot.ferries (j % max 1 k) 0xFF
  else
    let f := n - 192
    let l := d.lane n
    let inRot := d.rot.running && d.rot.ferries.any (fun x => x == f)
    let next := if inRot then 12 - d.cycleFrame % 12 else 0xFFFF
    let target := match l.standFor with
      | some t => t
      | none => if inRot && decide (3 ≤ d.cycleFrame % 12) then (d.rot.target f (d.cycleFrame / 12)).getD 0xFF else 0xFF
    next + 65536 * target + flagAt 24 l.standFor.isSome + flagAt 25 l.faulty

/-- Lane diagnostic view (R58); reset values until the image goes live. -/
def Dev.laneViewWord (d : Dev) (n o : Nat) : Nat :=
  let l := d.lane n
  let w := d.settings n
  if !d.isLive then (if o = 0xC then 0xFFFFFFFF else if o = 0x1C then 0xFFFFFF else 0)
  else if o = 0 then
    flagAt 0 (d.converting n) + flagAt 1 l.standin.isSome + flagAt 2 l.failed + flagAt 3 (decide (l.estLeft ≠ 0) || l.stuck) +
    flagAt 4 l.inconcl + flagAt 5 l.rtdOpen + flagAt 6 l.rtdShort + flagAt 7 l.rtdStale + 256 * l.standin.getD 0 +
    65536 * laneResp w + 2 ^ 20 * laneGain w + 2 ^ 23 * laneMode w
  else if o = 4 then twos 32 l.gTrim else if o = 8 then twos 32 l.dTrim
  else if o = 0xC then (l.trimAt.map (fun t => satU 32 ((d.clk.runTick - t) / 16000))).getD 0xFFFFFFFF
  else if o = 0x10 then l.ovr
  else if o = 0x14 then
    (if laneMode w = 4 then twos 32 l.held
     else if laneMode w = 5 then twos 32 (d.lane (if n < 192 then d.serving n else n)).held else 0)
  else if o = 0x18 then l.estLeft
  else d.rotationWord n

/-- Image status view (R192). -/
def Dev.imageWord (d : Dev) (o : Nat) : Nat :=
  let l := d.img.live
  let dig (f : Live → List Byte) (b : Nat) : Nat := (l.map (fun x => digestWord (f x) (o - b))).getD 0
  if o = 0 then (l.map (fun x => x.slot)).getD 3 + flagAt 2 d.img.fallbk + 256 * d.img.reasonA + 65536 * d.img.reasonB
  else if o = 4 then u32 d.image 0x14 else if o = 8 then u32 d.image 0x10
  else if o = 0xC then (l.map (fun x => x.splices.length)).getD 0 + 65536 * d.img.pending.length
  else if o = 0x10 then d.img.spliceSeq
  else if 0x20 ≤ o ∧ o < 0x40 then dig Live.digest 0x20
  else if 0x40 ≤ o ∧ o < 0x60 then dig Live.base 0x40
  else if 0x60 ≤ o ∧ o < 0x80 then dig Live.legal 0x60
  else 0

/-- Store status view (R232). -/
def Dev.storeWord (d : Dev) (o : Nat) : Nat :=
  let s := d.store
  if o = 0 then
    flagAt 0 s.replayed + flagAt 1 s.fromPer + flagAt 2 s.lostSv + flagAt 3 s.busy + flagAt 4 s.late + 65536 * satU 8 (s.jqueue.length - s.ring.length)
  else if o = 4 then s.svTime else if o = 8 then s.svSeq else if o = 0xC then s.nBad else if o = 0x10 then s.nTorn
  else if o = 0x14 then s.nCorr else if o = 0x18 then s.nUncorr else if o = 0x1C then s.nConf
  else if o = 0x20 then s.fwd + 65536 * s.back else if o = 0x24 then s.lastBad else if o = 0x28 then s.nRef
  else 0

def PMode.code : PMode → Nat | .doze => 1 | .nap => 2 | .sleep => 3 | _ => 0

/-- Power status view (R261). -/
def Dev.powerWord (d : Dev) (o : Nat) : Nat :=
  let p := d.pwr
  let held (c : Nat) : Nat := satU 8 (heldQ (p.grants.filter (fun g => g.cls == c)))
  if o = 0 then
    p.mode.code + flagAt 3 d.isDead + flagAt 4 p.subscr + flagAt 5 p.charging + flagAt 6 (reserveOk p.vres) + flagAt 7 p.vdd5p +
    flagAt 8 p.raised + flagAt 9 p.skipped
  else if o = 4 then d.budget
  else if o = 8 then (if d.isLive then d.baseline else 0)
  else if o = 0xC then d.pool + 65536 * (d.pool - heldQ p.grants)
  else if o = 0x10 then held 0 + 256 * held 1 + 65536 * held 2 + 2 ^ 24 * held 3
  else if o = 0x14 then held 4 + 256 * held 5 + 65536 * held 6 + 2 ^ 24 * satU 8 (heldQ (p.grants.filter Draw.long))
  else if o = 0x18 then satU 8 p.reqs.length + 256 * satU 8 (countIf Draw.aged p.reqs)
  else if o = 0x1C then satU 32 p.maxWait
  else if o = 0x20 then (roundOpen 20 (eRes p.vres)).toNat
  else if o = 0x24 then p.vres
  else if o = 0x28 then (if d.isLive then d.nextEntry else 0xFFFFFFFF)
  else if o = 0x2C then p.lastLatch
  else if o = 0x30 then p.checks
  else 0

/-- Vault views and vault status (R347). -/
def Dev.vaultWord (d : Dev) (o : Nat) : Nat :=
  let v := d.vault
  if 0x800 ≤ o then
    if o = 0x800 then
      flagAt 0 d.rootInForce + flagAt 1 v.debug + flagAt 2 v.trngOk + flagAt 3 v.session.isSome +
      16 * (v.session.map (fun s => s.role)).getD 0 + flagAt 6 v.rspPend
    else if o = 0x804 then v.mono % 2 ^ 32 else if o = 0x808 then hiWord v.mono % 2 ^ 32
    else if o = 0x80C then v.resplit else if o = 0x810 then d.bak.wipe.toNat % 2 ^ 32
    else hiWord d.bak.wipe.toNat
  else
    let k := o / 0x20
    let x := d.slot k
    let there := d.slotExists k || decide (x.state ≠ .empty)
    if o % 0x20 = 0 then
      x.state.code + flagAt 3 (d.slotExists k) +
      (if there then 16 * bitsOf (d.slUsage k) 4 0 + flagAt 9 (d.slLimited k) + flagAt 10 (d.slExpires k) + flagAt 11 (d.slLegal k) +
         flagAt 12 (d.slInstalled k) + 65536 * bitsOf (d.slParent k) 5 0 + 2 ^ 24 * d.slLabel k else 0) + flagAt 13 x.working
    else if o % 0x20 = 4 then x.uses else if o % 0x20 = 8 then (if there then d.slLimit k else 0)
    else if o % 0x20 = 0xC then x.gen else if o % 0x20 = 0x10 then x.chgS
    else if o % 0x20 = 0x14 then x.chgT + 65536 * x.cause + 2 ^ 24 * x.origin
    else 0

/-- Port view (R292). -/
def Dev.portWord (d : Dev) (p o : Nat) : Nat :=
  let x := d.port p
  if o = 0 then x.frames else if o = 4 then x.replies else if o = 8 then x.timeouts else if o = 0xC then x.errors
  else if o = 0x10 then x.pollLate else if o = 0x14 then x.dProbed + 65536 * x.dFound
  else if 0x20 ≤ o ∧ o < 0x30 then nth x.pulses ((o - 0x20) / 4) 0
  else if o = 0x30 then sumN ((List.range 4).map (fun i => 256 ^ i * nth x.glitch i 0))
  else if o = 0x34 then
    flagAt 0 (nth x.out 0 false) + flagAt 1 (nth x.out 1 false) + flagAt 2 (nth x.mism 0 false) + flagAt 3 (nth x.mism 1 false)
  else 0

/-- Partner view (R291). -/
def Dev.partnerWord (d : Dev) (i o : Nat) : Nat :=
  let x := d.partner i
  if o = 0 then
    x.state.code + flagAt 3 x.second + 16 * x.port + 512 * x.kind + flagAt 12 x.replaced + flagAt 13 x.qtyMiss +
    65536 * x.isle + 2 ^ 24 * x.primary
  else if o = 4 then x.ident else if o = 8 then x.man + 65536 * x.ver + 2 ^ 24 * x.medium
  else if o = 0xC then x.seen else if o = 0x10 then x.period + 2 ^ 24 * x.missed else if o = 0x14 then x.due
  else if o = 0x18 then x.status + 256 * x.access else if o = 0x1C then x.enrolled
  else match x.vals[(o - 0x20) / 8]? with
    | some (c, v) => if o % 8 = 0 then c else twos 32 v
    | none => 0

/-- One ledger entry (R310). -/
def Dev.ledgerWord (d : Dev) (key o : Nat) : Nat :=
  let l := d.ledger key
  if srcExists (keySource key) then
    if o = 0 then
      flagAt 0 l.raised + flagAt 1 l.flagged + flagAt 2 l.pin + flagAt 3 l.disp + 16 * l.test + flagAt 6 l.testing +
      65536 * d.srcActions key
    else if o = 4 then l.count else if o = 8 then l.first else if o = 0xC then l.last
    else if o = 0x10 then (if l.raised then d.raisedFor l else l.dur)
    else if o = 0x14 then l.testAt
    else 0
  else 0

/-- One knot entry (R301). -/
def Knot.word (k : Knot) (o : Nat) : Nat :=
  if o = 0 then
    k.state + flagAt 2 k.suspect + flagAt 3 k.quiet + flagAt 4 k.early + flagAt 5 k.cont + flagAt 6 k.ovf + 256 * k.qual
  else if o = 4 then k.code + 65536 * k.origin
  else if o = 8 then k.count else if o = 0xC then k.first else if o = 0x10 then k.last else if o = 0x14 then k.seq
  else if o = 0x18 then k.ports else if o = 0x1C then satU 16 k.seen.length + 65536 * k.ranges.length
  else if 0x20 ≤ o ∧ o < 0x40 then (k.ranges[(o - 0x20) / 4]?.map (fun r => r.1 + 65536 * r.2)).getD 0
  else if o = 0x40 then k.extra
  else 0

/-- One byte of a capture slot's samples (R104): undefined in a FREE slot and where nothing is stored yet. -/
def Dev.capByte (d : Dev) (c o : Nat) : Byte :=
  let x := d.cap c
  let l := max 1 x.lanes.length
  let i := o - 0x40
  match (if x.state = 0 then none else x.data[i / (3 * l)]?) with
  | some row => byteOf (twos 24 (nth row (i % (3 * l) / 3) 0) / 256 ^ (i % 3))
  | none => Config.undefByte (0x100000 * c + o)

/-- Capture slot view (R104). -/
def Dev.capWord (d : Dev) (c o : Nat) : Nat :=
  let x := d.cap c
  if o = 0 then x.state + 16 * x.strait + 256 * x.trig + 4096 * x.lanes.length + 65536 * x.retrig
  else if o = 4 then x.secs else if o = 8 then x.tick else if o = 0xC then x.pre else if o = 0x10 then x.total
  else if o = 0x14 then x.seq
  else if 0x18 ≤ o ∧ o < 0x24 then leVal ((List.range 4).map (fun i => byteOf (nth x.lanes (o - 0x18 + i) 0xFF)))
  else if 0x40 ≤ o then leVal ((List.range 4).map (fun i => d.capByte c (o + i)))
  else 0

/-! ## The map (R381) -/

/-- The word at an address of register or view space. -/
def Dev.viewWord (d : Dev) (a : Nat) : Nat :=
  if a < 0x40000 then d.regWord a
  else if a < 0x20040000 then d.billingWord ((a - 0x20000000) / 0x800) (a % 0x800)
  else if a < 0x20110000 then d.demandWord ((a - 0x20100000) / 0x200) (a % 0x200)
  else if a < 0x21800000 then d.snapWord ((a - 0x21000000) / 0x10000) (a % 0x10000 / 0x800) (a % 0x800)
  else if a < 0x2D040000 then d.partnerWord ((a - 0x2D000000) / 0x40) (a % 0x40)
  else if a < 0x2E000400 then d.straitWord ((a - 0x2E000000) / 0x40) (a % 0x40)
  else if a < 0x2E401800 then d.elemWord ((a - 0x2E400000) / 0x20) (a % 0x20)
  else if a < 0x2E504000 then
    -- a strait record has no P and Q words
    (if a % 0x400 < 0x120 then (d.strait ((a - 0x2E500000) / 0x400)).win.word (a % 0x400) else 0)
  else if a < 0x2E630000 then (d.elem ((a - 0x2E600000) / 0x400)).win.word (a % 0x400)
  else if a < 0x2E802000 then d.isleWord ((a - 0x2E800000) / 0x40) (a % 0x40)
  else if a < 0x2E9C0000 then d.hxWord ((a - 0x2E900000) / 0x1800) ((a - 0x2E900000) % 0x1800)
  else if a < 0x2EA02000 then d.utilityWord ((a - 0x2EA00000) / 0x40) (a % 0x40)
  else if a < 0x2F000000 then d.capWord ((a - 0x2EC00000) / 0x100000) (a % 0x100000)
  else if a < 0x2F001900 then d.laneViewWord ((a - 0x2F000000) / 0x20) (a % 0x20)
  else if a < 0x2F100080 then d.imageWord (a - 0x2F100000)
  else if a < 0x2F200030 then d.storeWord (a - 0x2F200000)
  else if a < 0x2F300034 then d.powerWord (a - 0x2F300000)
  else if a < 0x2F400818 then d.vaultWord (a - 0x2F400000)
  else if a < 0x2F500800 then d.portWord ((a - 0x2F500000) / 0x40) (a % 0x40)
  else if a < 0x2F600200 then d.ledgerWord ((a - 0x2F600000) / 0x20) (a % 0x20)
  else if a < 0x2F618000 then d.ledgerWord (256 + (a - 0x2F610000) / 0x20) (a % 0x20)
  else if a < 0x2F708000 then (d.knot ((a - 0x2F700000) / 0x80)).word (a % 0x80)
  else 0

/-- The bytes of `n / 4` consecutive words. -/
def Dev.viewBytes (d : Dev) (a n : Nat) : List Byte :=
  (List.range (n / 4)).flatMap (fun i => leBytes 4 (d.viewWord (a + 4 * i)))

end Sys2Proof.Machine
end

