-- ==== Sys2Proof/Machine/Link.lean ====
section
/-! DEFINITION. The host link's transactions RD, STAT and WR (15_host_link R369 to R381, 09_store R203). -/

namespace Sys2Proof.Machine

/-! ## Reads -/

/-- Whether an address lies in register or view space, where words are read (R374). -/
def wordSpace (a : Nat) : Bool := decide (a < 0x40000) || decide (0x20000000 ≤ a ∧ a < 0x30000000)

/-- The alignment and length rule of an RD (R375, R203): multiples of 4 where words are read, 0 among them; from 1 byte on
in a window. -/
def rdShape (a n : Nat) : Bool :=
  decide (n ≤ 4096) && (if wordSpace a then a % 4 == 0 && n % 4 == 0 else decide (0 < n ∨ a = 0x30000000))

/-- The worse of two tile results (R387). -/
def TileRes.worse : TileRes → TileRes → TileRes
  | .bad, _ => .bad
  | _, .bad => .bad
  | .torn, _ => .torn
  | _, .torn => .torn
  | .good, .good => .good

/-- The status of a read's tiles (R206, R387). -/
def TileRes.status : TileRes → Status | .good => .done | .bad => .tileBad | .torn => .torn

/-- Decode the TN3003 group at an address for a reader (R214): a corrected group is written back, an uncorrectable one
is reported. -/
def Dev.readGroup (d : Dev) (a : Nat) : TileRes × Dev :=
  let v := leVal (memRead d.store.mram a 8)
  match hamDecode v (memGet d.store.check a).toNat with
  | (some w, fixed) =>
    if fixed then
      (.good, (d.putWord true a (leBytes 8 w)).mapStore (fun s => { s with nCorr := satU 32 (s.nCorr + 1) }))
    else (.good, d)
  | (none, _) =>
    (.bad, (d.mapStore (fun s => { s with nUncorr := satU 32 (s.nUncorr + 1) })).tileFailed (a / 1024 * 1024) 18 2 8 false orgDev)

/-- Verify what a host read of MRAM consumes in one tile: the tile, or its groups in the TN3003 area. -/
def Dev.readTile (d : Dev) (a n t : Nat) : TileRes × Dev :=
  if d.inTn (1024 * t) then
    let gs := (List.range 128).map (fun i => 1024 * t + 8 * i)
    (gs.filter (fun g => decide (a < g + 8 ∧ g < a + n))).foldl
      (fun (r, d) g => let (x, d) := d.readGroup g; (r.worse x, d)) (TileRes.good, d)
  else d.verifyTile t 2 0 (d.tileOrigin t)

/-- The region rule of an access to the MRAM window: unallocated bytes, then the host flag (R203). -/
def Dev.mramRefusal (d : Dev) (a n flag : Nat) : Option Status :=
  let tiles := (List.range ((a + n - 1) / 1024 - a / 1024 + 1)).map (fun i => d.regionAt false (1024 * (a / 1024 + i)))
  if tiles.any (fun r => r.isNone) then some .range
  else if tiles.any (fun r => r.any (fun x => !bitOf x.2 flag)) then some .denied else none

/-- An RD of the MRAM window: every tile is verified, and the bytes come as stored (R206, R387). -/
def Dev.rdMram (d : Dev) (a n : Nat) : Status × List Byte × Dev :=
  match d.mramRefusal a n 3 with
  | some st => (st, [], d)
  | none =>
    let (r, d) := (tilesOf a n).foldl (fun (r, d) t => let (x, d) := d.readTile a n t; (r.worse x, d)) (TileRes.good, d)
    (r.status, memRead d.store.mram a n, d)

/-- An RD of the working SRAM window (R203, R207). -/
def Dev.rdSram (d : Dev) (a n : Nat) : Status × List Byte × Dev :=
  match d.sramRefusal a n 3 with
  | some st => (st, [], d)
  | none =>
    let (r, d) := (tilesOf a n).foldl (fun (r, d) t => let (x, d) := d.verifySram t 2 0 orgDev; (r.worse x, d)) (TileRes.good, d)
    (r.status, memRead d.store.sram a n, d)

/-- An RD: register and view words as they stand in the tick, window bytes from the store. The mailbox takes EXEC only. -/
def Dev.rdBody (d seen : Dev) (a n : Nat) : Status × List Byte × Dev :=
  if wordSpace a then (.done, seen.viewBytes a n, d)
  else if a < 0x10000000 then d.rdSram (a - 0x01000000) n
  else if a < 0x20000000 then d.rdMram (a - 0x10000000) n
  else (.denied, [], d)

/-- RD (R369, R374, R375, R387). -/
def execRd (l : Link) (addr : Word) (len : Nat) (s : State) : Host.Outcome State Fault Refusal :=
  let a := addr.toNat
  .next (s.onDev (fun d => d.transact l 0 a len [] (rdShape a len) (spanInMap a len) (fun _ d => d.rdBody s.seen a len)))

/-! ## STAT (R380) -/

/-- The response payload of a STAT: the 16-byte header and result bytes from an offset. -/
def statPayload (j : Job) (off len : Nat) : List Byte :=
  let st : Status := if j.phase = .finished then j.status else .busy
  let result := if j.phase = .finished then j.result else []
  [byteOf st.code, 0#8] ++ leBytes 2 j.num ++ leBytes 4 (if j.phase = .finished then j.word else 0) ++
  leBytes 4 result.length ++ leBytes 4 0 ++ (result.drop off).take len

/-- A STAT's access: the job's status with its result; a finished job read to its end leaves the table. -/
def Dev.statBody (d : Dev) (job off len : Nat) : Status × List Byte × Dev :=
  match d.findJob job with
  | none => (.range, [], d)
  | some j =>
    if j.phase = .finished then
      let d := if j.result.length ≤ off + len then
          d.mapLink (fun k => { k with jobs := k.jobs.filter (fun x => x.num != job) }) else d
      (j.status, statPayload j off len, d)
    else (.busy, statPayload j off len, d)

/-- STAT (R380): job number and result offset are the address; the length is 0 to 4,080. -/
def execStat (l : Link) (job off len : Nat) (s : State) : Host.Outcome State Fault Refusal :=
  .next (s.onDev (fun d =>
    d.transact l 3 (65536 * off + job) len [] (off % 4 == 0 && decide (len ≤ 4080)) true (fun _ d => d.statBody job off len)))

/-- HCS_N_RISE (R373): before the last request CRC bit the request is discarded; after it the transaction stands and its
response is lost. -/
def execHcsNRise (beforeCrc : Bool) (s : State) : Host.Outcome State Fault Refusal :=
  .next (s.onDev (fun d => if beforeCrc then d else d.mapLink (fun k => { k with resp := none })))

/-! ## Writes -/

/-- The address of ISLE_STICKY of an isle (R91). -/
def stickyAddr (n : Nat) : Nat := 0x2E800004 + 0x40 * n

/-- Whether an address is an ISLE_STICKY word. -/
def isSticky (a : Nat) : Bool := decide (0x2E800000 ≤ a ∧ a < 0x2E802000) && a % 0x40 == 4

/-- A WR to view space or to the mailbox address (R376): ST_DENIED, but one word at ISLE_STICKY clears its bits at the next
tick boundary. -/
def Dev.wrView (d : Dev) (l : Link) (a : Nat) (data : List Byte) : Dev :=
  d.transact l 1 a data.length data true (spanInMap a data.length) (fun _ d =>
    if isSticky a ∧ data.length = 4 then
      (.done, [], d.mapLink (fun k => { k with plain := k.plain ++ [.clear a (wordOf (leVal data))] }))
    else (.denied, [], d))

/-- A WR to any address (R375, R376, R377, R203). -/
def Dev.wr (d : Dev) (l : Link) (a : Nat) (data : List Byte) : Dev :=
  if a < 0x40000 then d.wrRegs l a data
  else if 0x01000000 ≤ a ∧ a < 0x01800000 then d.wrSram l (a - 0x01000000) data
  else if 0x10000000 ≤ a ∧ a < 0x14000000 then d.wrMram l (a - 0x10000000) data
  else d.wrView l a data

/-- A WR of one word. -/
def Dev.wrWord (d : Dev) (l : Link) (a : Nat) (v : Word) : Dev := d.wr l a (leBytes 4 v.toNat)

/-- REGISTER_WRITE (R377). -/
def execRegisterWrite (l : Link) (addr : Word) (data : List Byte) (s : State) : Host.Outcome State Fault Refusal :=
  .next (s.onDev (fun d => d.wr l addr.toNat data))

/-- SH_WRITE (R24, R376): SH values enter the shadow set. -/
def execShWrite (l : Link) (addr : Word) (data : List Byte) (s : State) : Host.Outcome State Fault Refusal :=
  .next (s.onDev (fun d => d.wr l addr.toNat data))

/-- LK_WRITE (07_legal_readout R162, R376): LK values enter the shadow set with the seal open and a METROLOGY session. -/
def execLkWrite (l : Link) (addr : Word) (data : List Byte) (s : State) : Host.Outcome State Fault Refusal :=
  .next (s.onDev (fun d => d.wr l addr.toNat data))

/-- ELM_PHASE_WRITE (03_straits_elements R76, R78). -/
def execElmPhaseWrite (l : Link) (e : Nat) (v : Word) (s : State) : Host.Outcome State Fault Refusal :=
  onUnit (decide (e < 192)) "element" s (fun d => d.wrWord l (0x10004 + 0x20 * e) v)

/-- ISLE_DEMAND_WRITE (04_isles_windows R89, R90). -/
def execIsleDemandWrite (l : Link) (n : Nat) (v : Word) (s : State) : Host.Outcome State Fault Refusal :=
  onUnit (decide (n < 128)) "isle" s (fun d => d.wrWord l (0x20010 + 0x20 * n) v)

/-- ISLE_ALARM_WRITE (R89, 06_billing R140). -/
def execIsleAlarmWrite (l : Link) (n : Nat) (v : Word) (s : State) : Host.Outcome State Fault Refusal :=
  onUnit (decide (n < 128)) "isle" s (fun d => d.wrWord l (0x20014 + 0x20 * n) v)

/-- ISLE_STICKY_CLEAR (R91, R376). -/
def execIsleStickyClear (l : Link) (n : Nat) (v : Word) (s : State) : Host.Outcome State Fault Refusal :=
  onUnit (decide (n < 128)) "isle" s (fun d => d.wrWord l (stickyAddr n) v)

/-- HL_CAUSE_CLEAR (R377, R383). -/
def execHlCauseClear (l : Link) (v : Word) (s : State) : Host.Outcome State Fault Refusal :=
  .next (s.onDev (fun d => d.wrWord l 0x24 v))

/-- DRAW_BUDGET_WRITE (10_power R238, 13_keys R342). -/
def execDrawBudgetWrite (l : Link) (v : Word) (s : State) : Host.Outcome State Fault Refusal :=
  .next (s.onDev (fun d => d.wrWord l 0x2000 v))

/-- POWER_CTL_WRITE (R384). -/
def execPowerCtlWrite (l : Link) (v : Word) (s : State) : Host.Outcome State Fault Refusal :=
  .next (s.onDev (fun d => d.wrWord l 0x2004 v))

/-- SAVE_MIN_WRITE (09_store R226). -/
def execSaveMinWrite (l : Link) (v : Word) (s : State) : Host.Outcome State Fault Refusal :=
  .next (s.onDev (fun d => d.wrWord l 0x4000 v))

/-- DSP_CTL_WRITE (14_display R365). -/
def execDspCtlWrite (l : Link) (v : Word) (s : State) : Host.Outcome State Fault Refusal :=
  .next (s.onDev (fun d => d.wrWord l 0x7000 v))

/-- DSP_BAND_WRITE (14_display R356, R365). -/
def execDspBandWrite (l : Link) (v : Word) (s : State) : Host.Outcome State Fault Refusal :=
  .next (s.onDev (fun d => d.wrWord l 0x7004 v))

/-- PORT_BAUD_WRITE (11_ports_partners R265). -/
def execPortBaudWrite (l : Link) (p : Nat) (v : Word) (s : State) : Host.Outcome State Fault Refusal :=
  onUnit (decide (p < 32)) "port" s (fun d => d.wrWord l (0x30004 + 0x40 * p) v)

/-- PORT_POLL_WRITE (11_ports_partners R265). -/
def execPortPollWrite (l : Link) (p : Nat) (v : Word) (s : State) : Host.Outcome State Fault Refusal :=
  onUnit (decide (p < 32)) "port" s (fun d => d.wrWord l (0x3000C + 0x40 * p) v)

/-- PORT_ENABLE_WRITE (11_ports_partners R264). -/
def execPortEnableWrite (l : Link) (p : Nat) (v : Word) (s : State) : Host.Outcome State Fault Refusal :=
  onUnit (decide (p < 32)) "port" s (fun d => d.wrWord l (0x30000 + 0x40 * p) v)

end Sys2Proof.Machine
end

