-- ==== Sys2Proof/Machine/Boot.lean ====
section
/-! DEFINITION. Steps 1 to 6 of the power-up order: backup domain, pending WIPEs, journal, vault, image, host link
(16_startup R389 to R397, 08_structure_image R189, 13_keys R321 to R343). -/

namespace Sys2Proof.Machine

/-! ## Step 1 (R391, R393) -/

/-- Device time at the release of reset (10_power R233, 16 R392): the latch time and the outage, or 0 when it was lost. -/
def Dev.bootTime (d : Dev) (outage : Nat) : Nat :=
  if !d.bak.valid then 0
  else if d.bak.latched then
    d.bak.latchS * 16000 + d.bak.latchT + (roundOpen 21 ((outage * 125 : Nat) / (256 : Rat))).toNat
  else d.timeTicks

/-- The clock after reset: time from the backup domain, offset and schedule from PARAMS record 3 (R397), PLL locked. -/
def Dev.bootClock (d : Dev) (outage : Nat) : Clock :=
  let (s, k) := ofTicks (d.bootTime outage)
  let (off, sched, _) := d.timeRecord.getD (0, [], [])
  { Clock.reset with secs := s, tick := k, frameOff := k % 3200, set := d.bak.valid && d.bak.set, offset := off, sched := sched,
                     pllLock := true, step2 := true, evald := true }

/-- What of an isle the store keeps outside the running state: profile records, snapshots, hourly records and
LAST_CLOSED. -/
def IsleSt.durable (i : IsleSt) : IsleSt :=
  { IsleSt.init with prof := { Profile.init with held := i.prof.held }, snaps := i.snaps, hx := i.hx, lastClosed := i.lastClosed }

/-- A running state that holds nothing but what the store keeps of the isles. -/
def Dev.bareRun (d : Dev) : Running :=
  { Running.init with isles := (List.range 128).foldl (fun t n => tabPut .init n (d.isle n).durable t) [] }

/-- The tamper unit through a reset: nothing waits and no test goes on; the ledger follows with the TAMPER region
(12_events_tamper R309, R316). -/
def Tamper.boot (t : Tamper) (p : PowerUpInput) : Tamper :=
  { t with
    fresh := [], defer := [], sealPin := p.calseal, cover := p.cover, tcover := p.tcover, mag := p.mag, sealTry := false,
    test := none, testReal := none }

/-- The store through a reset: what is in progress is gone, status counters restart, saves that fail their tiles are
not valid (R391, 09_store R228). -/
def Store.boot (s : Store) (p : PowerUpInput) : Store :=
  let mark (c : Option (Copy SaveImg)) (bad : Bool) : Option (Copy SaveImg) := c.map (fun x => { x with good := x.good && !bad })
  { s with
    sram := [], sramBad := [], flight := none, rgq := [], rgRun := none, saveAsk := false, saveDue := false, saveCap := none,
    accum := { a := mark s.accum.a p.badA, b := mark s.accum.b p.badB }, gasp := if p.badGasp then none else s.gasp,
    gaspBad := p.badGasp && s.gasp.isSome,
    busy := false, late := false, replayed := false, fromPer := false, lostSv := false, svTime := 0, svSeq := 0, nBad := 0,
    nTorn := 0, nCorr := 0, nUncorr := 0, nConf := 0, nRef := 0, fwd := 0, back := 0, lastBad := 0xFFFFFFFF, badSet := [],
    ptDirty := [], ptLazy := [] }

/-- Step 1: every register at its reset value, nothing in progress, time and levels as found (R391, R393, R396). A relay
output keeps its level. -/
def Dev.bootReset (d : Dev) (p : PowerUpInput) : Dev :=
  let b := d.bak
  { d with
    clk := d.bootClock p.outage, regs := [], lanes := [], rot := .reset, straits := [], elems := [], engines := [], ticks := [],
    run := d.bareRun, store := d.store.boot p,
    pwr := { Power.reset with
      mode := .run, vdd5p := p.vdd5p, vres := p.vres, charging := p.vdd5p && decide (p.vres < 11000), skipped := b.skipped,
      lastLatch := if b.latched then b.latchS else 0, cause := if b.valid then d.pwr.next else 1 },
    bak := { b with valid := true },
    ports := (List.range 32).foldl (fun t n => tabPut .init n { PortSt.init with out := (d.port n).out } t) [],
    partners := [], evt := .reset, tam := d.tam.boot p, dsp := .reset, caps := [], capSeq := 0, link := .reset, img := .reset,
    rtdOn := false, rtdDone := false, capReq := [] }

/-! ## Steps 2 to 4: the vault -/

/-- The vault through a reset (13_keys R341, R343): sessions and requests end; the production vault is in force, or stands
aside while debug is enabled. -/
def Vault.boot (v : Vault) (dbgEn debug : Bool) : Vault :=
  let v := match v.aside with
    | some (s, m, o) => { v with slots := s, authM := m, authO := o, aside := none }
    | none => v
  let v := { v with
    rootOk := false, debug := debug, rspPend := false, inval := [], derive := [], session := none, joining := none,
    leaving := false, opening := none,
    lock := [0, 0, 0], retryAt := 0, dbgEn := dbgEn,
    slots := v.slots.foldl (fun l e => tabPut .init e.1 { e.2 with working := false } l) [] }
  if debug then { v with aside := some (v.slots, v.authM, v.authO), slots := [] } else v

/-- Invalidations of the power-up order are in the vault when they are done: nothing waits and no mask bit stays. -/
def Dev.wipesWritten (d : Dev) : Dev :=
  ((d.mapBak (fun b => { b with wipe := 0 })).mapStore (fun s => { s with rgq := [] })).mapPwr (fun w => { w with reqs := [] })

/-- Step 2: the pending WIPEs in ascending slot order, then the mask is cleared (12 R318, 13 R335). -/
def Dev.bootWipes (d : Dev) : Dev :=
  let l := (List.range 64).filter (fun k => d.bak.wipe.getLsbD k)
  let e := (d.forEach l (fun k d => d.invalidate k 5)).wipesWritten
  if l.isEmpty then e else e.putVault slotTileNos

/-- The start-up tests of the entropy source (R321). -/
def Dev.bootTrng (d : Dev) (pass : Bool) : Dev :=
  let d := d.mapVault (fun v => { v with trngOk := pass })
  if pass then d else d.report 0x0A2 orgDev 0 [3#8]

/-- The re-split of a power-up (R332): written at once, or pending with its report when it is refused or has no random
bits. -/
def Dev.bootResplit (d : Dev) : Dev :=
  if !d.vault.trngOk then d.mapVault (fun v => { v with rspPend := true })
  else if reserveOk d.pwr.vres then d.resplitWritten.putVault [0, 16, 24]
  else
    let d := d.mapStore (fun s => { s with nRef := satU 32 (s.nRef + 1) })
    let d := d.report 0x072 orgDev 0 ([1#8, 0#8, 0#8, 0#8] ++ leBytes 4 (eRes d.pwr.vres).floor.toNat)
    (d.mapVault (fun v => { v with rspPend := true })).report 0x0AA orgDev 0 (leBytes 4 d.vault.resplit)

/-- Slots that expire at a reset, by the attributes stored with them (R327, R329). -/
def Dev.bootExpire (d : Dev) : Dev :=
  let l := (List.range 64).filter (fun k => k != 0 && d.slExpires k && decide ((d.slot k).state = .live ∨ (d.slot k).state = .spent))
  let e := (d.forEach l (fun k d => if (d.slot k).state = .live ∨ (d.slot k).state = .spent then d.invalidate k 8 else d)).wipesWritten
  if l.isEmpty then e else e.putVault slotTileNos

/-- Both copies of a share fail (R334). -/
def Dev.rootLost (d : Dev) : Dev :=
  let d := (d.logNow 0x0A1 orgDev (leBytes 4 d.vault.rootSeq)).setSlotState 0 .empty 6 0x7F
  (d.orphanSlots ((List.range 64).drop 1)).mapVault (fun v => { v with shares := none, rootOk := false })

/-- Step 4 with debug enabled (R343): the test root, and slots 1 and 2 derived from it; `fresh` at the unlock. -/
def Dev.debugVault (d : Dev) (fresh : Bool) : Dev :=
  let d := if fresh then d.logNow 0x0A9 orgDev [] else d
  let d := (d.mapVault (fun v => { v with rootOk := true })).setSlotState 0 .live 1 0x7F
  (d.deriveSlot 1 (d.slot 1).gen 1).deriveSlot 2 (d.slot 2).gen 1

/-- Step 4: start-up tests, then the root and the slots (R331, R334, R327, R332). -/
def Dev.bootVault (d : Dev) (p : PowerUpInput) (unlock : Bool) : Dev :=
  let d := d.bootTrng p.trngPass
  if d.vault.debug then d.debugVault unlock
  else if d.vault.rootSeq = 0 ∧ d.vault.shares.isNone then (if p.trngPass then d.makeRoot.putVault [0, 2, 16, 24] else d)
  else if p.badShare || d.vault.shares.isNone || d.vaultLost 16 || d.vaultLost 24 then d.rootLost
  else ((d.mapVault (fun v => { v with rootOk := true })).bootExpire).bootResplit

/-! ## Step 5: the image (08_structure_image R189, R194) -/

/-- The tile checks of a slot whose header, target and authorities stand: each failing tile is reported (09 R206, R210). -/
def Dev.verifySlot (d : Dev) (s consumer : Nat) : Dev :=
  let run := match d.slotBad s with
    | some (r, _, _) => decide (3 < r)
    | none => true
  if run then d.forEach (d.slotTiles s) (fun t d => (d.verifyTile t consumer 0 orgDev).2) else d

/-- REASON of a slot. -/
def Dev.slotReason (d : Dev) (s : Nat) : Nat := ((d.slotBad s).map (fun r => r.1)).getD 0

/-- IMAGE_SEQ of a slot. -/
def Dev.slotSeq (d : Dev) (s : Nat) : Nat := u32 (d.slotBytes s) 0x14

/-- The slot that boot loads: the valid one with the greater IMAGE_SEQ, A of two equal ones (R189). -/
def Dev.chooseSlot (d : Dev) : Option Nat :=
  let a := d.img.reasonA == 0
  let b := d.img.reasonB == 0
  if a && b then some (if d.slotSeq 0 < d.slotSeq 1 then 1 else 0) else if a then some 0 else if b then some 1 else none

/-- FALLBACK (R192): the other slot has the greater IMAGE_SEQ but is invalid; a blank slot, without MAGIC, has none (log 29). -/
def Dev.fellBack (d : Dev) (s : Nat) : Bool :=
  let r := if s = 0 then d.img.reasonB else d.img.reasonA
  decide (r ≠ 0) && decide ((d.slotBytes (1 - s)).take 4 = ascii "TLNI") && decide (d.slotSeq s < d.slotSeq (1 - s))

/-- Load a slot with its splice log: for each target the record with the highest SEQ of those whose base digest matches;
the others are freed (R194, R196). -/
def Dev.loadSlot (d : Dev) (s : Nat) : Dev :=
  let b := d.slotBytes s
  let base := baseDigestOf b
  let recs := (d.logRecs s).map (fun x => x.2)
  let mine := recs.filter (fun r => decide (spBase r = base))
  let sp := newestSplices mine
  let l : Live := { slot := s, bytes := sp.foldl spliced b, base := base, legal := legalDigestOf b, digest := runningDigest base sp,
                    splices := sp }
  let d := d.mapImg (fun m =>
    { m with live := some l, pending := [], reload := none, spliceSeq := (mine.map spSeq).foldl max 0 })
  (recs.filter (fun r => decide (spBase r ≠ base))).foldl (fun d r => d.freeSplice r) d

/-- The registers that the live image and the calibration record set (03 R75, R76, 04 R89, 11 R264, 07 R165). -/
def Dev.loadRegs (d : Dev) : Dev :=
  let d := d.setRegs (imageRegs d.image ++ (List.range 32).flatMap (fun p => portRegs p (d.ent 6 p)))
  match d.calibRecord with
  | some (leg, tab) =>
    if leg = d.legalDigest then
      let d := { d with regs := overlay (d.regs.filter (fun e => !isLk e.1)) tab }
      d.mapImg (fun m => { m with calDig := d.calDigest })
    else d.writeCalib
  | none => d.writeCalib

/-- Stand-ins and failed lanes from their record (02_lanes R55). -/
def Dev.loadStandins (d : Dev) : Dev :=
  d.standRecord.foldl (fun d x =>
    match x.2 with
    | some f =>
      let w := d.laneWord x.1
      (d.upLane x.1 (fun l => { l with standin := some f })).upLane (192 + f) (fun l => { l with standFor := some x.1, word := w })
    | none => d.upLane x.1 (fun l => { l with failed := true })) d

/-- Step 5. -/
def Dev.bootImage (d : Dev) : Dev :=
  let d := (d.verifySlot 0 0).verifySlot 1 0
  let d := d.mapImg (fun m => { m with reasonA := d.slotReason 0, reasonB := d.slotReason 1 })
  match d.chooseSlot with
  | none => d
  | some s => ((d.mapImg (fun m => { m with fallbk := d.fellBack s })).loadSlot s).loadRegs.loadStandins

/-! ## Step 6: the host link and held events (R394, R395) -/

/-- The link comes up with RESET as its cause. -/
def Dev.linkUp (d : Dev) : Dev := d.mapLink (fun k => { k with up := true, cause := 0x40#7 })

/-- Held events take their SEQ in step order (R395). -/
def Dev.numberHeld (d : Dev) : Dev :=
  let l := d.evt.held
  let d := d.mapEvt (fun e => { e with held := [], holding := false })
  l.foldl (fun d r =>
    let d := d.logRec r
    d.notify { kind := 1, knot := 0xFFFF, seq := d.run.evtSeq }) d

/-- The open knots of steps 1 to 6 are notified when the events are numbered. -/
def Dev.tellKnots (d : Dev) : Dev :=
  d.forEach ((d.knotsIn 1).filter (fun i => !(d.knot i).quiet)) (fun i d => d.notify { kind := 2, knot := i, seq := 0 })

/-- EV_POWER_UP goes before every held event. -/
def Dev.holdPowerUp (d : Dev) (lost root : Bool) : Dev :=
  let noImg := !d.isLive
  let fl := flagAt 0 lost + flagAt 1 root + flagAt 2 d.vault.debug + flagAt 3 noImg
  let slot := (d.liveSlot).getD 3
  let r : EventRec :=
    { seq := 0, secs := d.clk.secs, tick := d.clk.tick, code := 0x001, flags := 0, origin := orgDev, count := 1,
      first := d.clk.secs, last := d.clk.secs,
      detail := [byteOf d.pwr.cause, byteOf slot, byteOf fl, 0#8] ++ leBytes 4 (if d.bak.latched then d.bak.latchS else 0) }
  d.mapEvt (fun e => { e with held := r :: e.held })

/-- The SEQ of the last record as the newest valid save or, without one, the EVENTS region gives it (R395). -/
def Dev.storedSeq (d : Dev) : Nat :=
  match d.newestSave with
  | some s => s.run.evtSeq
  | none => ((d.store.events.getLast?).map (fun r => r.seq)).getD 0

/-- No image: the held events are numbered and EV_NO_IMAGE follows; the device stops there (R189, R395). -/
def Dev.stopNoImage (d : Dev) : Dev :=
  let d := (d.mapRun (fun r => { r with evtSeq := d.storedSeq })).numberHeld.tellKnots
  d.logNow 0x060 orgDev []

end Sys2Proof.Machine
end

