-- ==== Sys2Proof/Machine/Startup.lean ====
section
/-! DEFINITION. Steps 7 to 10 of the power-up order, POWER_UP and IMAGE_RELOAD (16_startup R393 to R396, 09_store R228,
R231, 06_billing R156 to R158, 12_events_tamper R318, 13_keys R328, R329, 08_structure_image R190). -/

namespace Sys2Proof.Machine

/-! ## Step 7: the running state (09 R228, 10 R257, R258) -/

/-- A restored isle: its counters start empty, what the store keeps outside the save stays as it is; `held` are the profile
records that are stored or queued. -/
def IsleSt.restored (saved kept : IsleSt) (closed : Nat) (held : List ProfRec) : IsleSt :=
  let top := ((held.getLast?).map (fun r => r.seq + 1)).getD 0
  { saved with
    prof := { saved.prof with held := held, seq := max saved.prof.seq top }, snaps := kept.snaps, hx := kept.hx,
    lastClosed := closed, sticky := 0, crP := 0, crQ := 0, disc := 0 }

/-- LAST_CLOSED of an isle in PARAMS record 3, else the value held. -/
def Dev.storedClosed (d : Dev) (n held : Nat) : Nat :=
  match d.timeRecord with
  | some (_, _, t) => tabGet 0 t n
  | none => held

/-- A knot opened during power-up joins the restored one of its key, else stands beside it (R395). -/
def Dev.placeKnot (d : Dev) (k : Knot) : Dev :=
  match if k.state = 1 then d.findKnot k.code k.origin k.qual else none with
  | some i =>
    let o := d.knot i
    d.setKnot i (k.seen.foldl Knot.addReporter { o with count := satU 32 (o.count + k.count), last := k.last, at1 := k.at1 })
  | none =>
    let (i, d) := d.takeKnot
    let d := d.setKnot i k
    if k.state = 1 ∧ k.quiet = false then d.notify { kind := 2, knot := i, seq := 0 } else d

/-- The saved knots with the run ticks of their reports counted back over the outage (12 R298). -/
def shiftKnots (l : Tab Knot) (back : Int) : Tab Knot :=
  l.foldl (fun t e => tabPut .free e.1 { e.2 with at0 := e.2.at0 - back, at1 := e.2.at1 - back } t) []

/-- Device time of a save's capture in ticks. -/
def Running.capTicks (r : Running) : Nat := r.capS * 16000 + r.capT

/-- The profile records of an isle that a power-up finds in the profile area, or in the queue of the save (09 R224). -/
def Dev.heldRecords (d : Dev) (n : Nat) (queue : List (List (Nat × List Byte))) : List ProfRec :=
  (d.isle n).prof.held.filter (fun r =>
    let a := d.profAddr n r.seq
    memRead d.store.mram a 16 == r.bytes || queue.any (fun t => t.any (fun p => p.1 == a && p.2 == r.bytes)))

/-- What a lane's frame flags tell the outstanding slices (01 R22). -/
def LaneSt.flagsOf (l m : LaneSt) : LaneSt :=
  { l with ovrEven := m.ovrEven, ovrOdd := m.ovrOdd, estEven := m.estEven, estOdd := m.estOdd, failF := m.failF }

/-- The running state of a save enters the device; `kept` tells whether device time was kept since. -/
def Dev.takeSave (d : Dev) (img : SaveImg) (bad : List Nat) (kept : Bool) : Dev :=
  let cur := d.run
  let r := img.run
  let per := d.accumNow.read
  let pick (n : Nat) : IsleSt :=
    if img.kind = 1 ∧ n ∈ bad then (per.map (fun x => tabGet .init x.run.isles n)).getD .init else tabGet .init r.isles n
  let isles := (List.range 128).foldl (fun t n =>
    let k := tabGet .init cur.isles n
    tabPut .init n (IsleSt.restored (pick n) k (d.storedClosed n k.lastClosed) (d.heldRecords n r.queue)) t) []
  let away : Nat := if kept then d.timeTicks - r.capTicks else 0
  let old := r.unwritten.filter (fun x => !d.store.events.any (fun y => y.seq == x.seq))
  let d := { d with
    run := { r with
      isles := isles, evtSeq := cur.evtSeq, unwritten := old ++ cur.unwritten, queue := [], mStraits := [], mElems := [], mLanes := [],
      knots := shiftKnots r.knots ((r.capRun : Int) + away - d.clk.runTick) },
    straits := r.mStraits, elems := r.mElems }
  let d := d.forEach (r.mLanes.map (fun e => e.1)) (fun n d => d.upLane n (fun l => l.flagsOf (tabGet .init r.mLanes n)))
  let d := d.mapClk (fun c => { c with fastF := r.fastF, slowF := r.slowF, newOff := r.newOff })
  let d := d.mapLink (fun k => { k with closeNow := r.closeNow })
  let d := d.mapStore (fun s => { s with jqueue := r.queue.map (fun p => { pages := p, job := none }) })
  d.forEach (cur.knots.map (fun e => e.1)) (fun i d => d.placeKnot (tabGet .free cur.knots i))

/-- EV_TILE_BAD of the last-gasp tiles of an isle that the periodic copy supplies (R228). -/
def Dev.gaspTilesBad (d : Dev) (n : Nat) : Dev :=
  let a := d.regionBase 11 + 2048 * n
  ((d.tileFailed a 11 0 16 false (orgIsle n)).tileFailed (a + 1024) 11 0 16 false (orgIsle n))

/-- EV_TILE_BAD of the saves whose archipelago tiles fail when they are read at power-up: the last gasp, then the periodic
copies, which tell whether the other copy is used or both failed (R210, R225, R228). -/
def Dev.saveTilesBad (d : Dev) (p : PowerUpInput) : Dev :=
  let good (c : Option (Copy SaveImg)) : Bool := c.any (fun x => x.good)
  let t := d.accumNow
  let a := t.a
  let b := t.b
  let d := if d.store.gaspBad then d.tileFailed (d.regionBase 11 + 1024 * 256) 11 0 0 false orgDev else d
  let d := if p.badA && a.isSome then d.tileFailed (d.regionBase 10 + 1024 * 256) 10 0 (if good b then 2 else 4) false orgDev else d
  if p.badB && b.isSome then d.tileFailed (d.regionBase 10 + 1024 * 528) 10 0 (if good a then 2 else 4) false orgDev else d

/-- Step 7. The latch that the backup register file records is consumed; where that file is lost, the last gasp tells the
latch and the live straits (10 R258). -/
def Dev.restoreRun (d : Dev) (p : PowerUpInput) (kept : Bool) : Dev :=
  let b := d.bak
  let gasp := if kept then none else d.newestSave.filter (fun x => x.kind == 1)
  let latch := if b.latched then b.latchS else (gasp.map (fun x => x.latch)).getD 0
  let live := if kept then b.live else (gasp.map (fun x => x.live)).getD []
  let d := if d.evt.holding then (d.mapRun (fun r => { r with evtSeq := d.storedSeq })).numberHeld else d
  let d := d.saveTilesBad p
  let d := match d.newestSave with
    | none =>
      let d := (d.mapStore (fun s => { s with lostSv := true })).logNow 0x075 orgDev []
      if b.skipped then d.logNow 0x074 orgDev (leBytes 4 0 ++ leBytes 4 latch) else d
    | some img =>
      let bad := if img.kind = 1 then (List.range 128).filter (fun n => decide (n ∈ p.badIsles ∨ n ∈ d.gaspBadIsles)) else []
      let fromPer := decide (img.kind = 0) || !bad.isEmpty
      let d := d.takeSave img bad kept
      let d := d.forEach bad (fun n d => d.gaspTilesBad n)
      let d := d.mapStore (fun s => { s with fromPer := fromPer, saveSeq := img.seq })
      let used := if bad.isEmpty then img.run.capS else (d.accumNow.read.map (fun (x : SaveImg) => x.run.capS)).getD img.run.capS
      if b.skipped || fromPer then d.logNow 0x074 orgDev (leBytes 4 used ++ leBytes 4 latch) else d
  let d := if live.isEmpty then d
    else
      let out := if kept then satU 32 (roundOpen 22 ((d.timeTicks - (b.latchS * 16000 + b.latchT) : Nat) / (16000 : Rat))).toNat else 0xFFFFFFFF
      let d := d.logNow 0x077 orgDev (leBytes 4 latch ++ leBytes 4 out)
      d.forEach ((List.range 128).filter (fun n => d.ilElec n && (d.islePhases n).any (fun e => decide (d.elStrait e ∈ live))))
        (fun n d => d.upIsle n (fun i => { i with sticky := i.sticky ||| 8 }))
  d.mapBak (fun b => { b with latched := false, skipped := false, live := [] })

/-! ## Step 8: slices and boundaries of the outage (01 R22, 06 R156 to R158) -/

/-- The device hours that end in the outage: the running hour of the harmonic order profile ends in part, further hours are
gaps (04 R99). -/
def Dev.outageHours (d : Dev) (n a b : Nat) : Dev :=
  let d := d.upIsle n (fun i => { i with hxNow := { i.hxNow with partl := true } })
  (List.range (b / 3600 - a / 3600)).foldl (fun d i => d.putHour n ((a / 3600 + i) * 3600) { HxRec.init with partl := true }) d

/-- Leak hours that contain the outage do not qualify; those of a PULSE isle that end in it are judged (05 R114). -/
def Dev.outageLeaks (d : Dev) (n a b : Nat) : Dev :=
  let hours := (List.range (b / 3600 - a / 3600 + 1)).map (fun i => a / 3600 + i)
  let d := d.upIsle n (fun i => { i with util := hours.foldl Utility.spoil i.util })
  if d.ilVolSrc n = 1 then hours.dropLast.foldl (fun d h => d.judgeHour n h) d else d

/-- The boundaries that fell in the outage, after device second `a` up to now, in time order, with zero energy: closes are
taken at once, the GAP records follow with the profile slices of the boundary at which metering resumes (R158; log 71). -/
def Dev.outageBounds (d : Dev) (a : Nat) : Dev :=
  let b := d.clk.secs
  if b ≤ a then d
  else
    let d := d.walkSpan (a + 1) (b + 1) true true
    d.forEach ((List.range 128).filter (fun n => d.ilType n != 0)) (fun n d =>
      let d := d.billingSlice n true
      if d.ilElec n then d.outageHours n a b else d.outageLeaks n a b)

/-- The views of a strait and of an element that the close of its last frame left; all else starts anew. -/
def StraitSt.shown (s : StraitSt) : StraitSt :=
  { StraitSt.init with ms := s.ms, vrms := s.vrms, vActive := s.vActive, vLocked := s.vLocked, lost := s.lost, estF := s.estF }
def ElemSt.shown (e : ElemSt) : ElemSt :=
  { ElemSt.init with status := e.status, irms := e.irms, ep := e.ep, eq := e.eq, delay := e.delay, ms := e.ms, vActive := e.vActive }

/-- What the outstanding slices used of straits, elements, lanes and clock is done with. -/
def Dev.closedUp (d : Dev) : Dev :=
  let d := d.mapClk (fun c => { c with fastF := 0, slowF := 0 })
  { d with
    straits := d.straits.foldl (fun (t : Tab StraitSt) e => tabPut .init e.1 e.2.shown t) [],
    elems := d.elems.foldl (fun (t : Tab ElemSt) e => tabPut .init e.1 e.2.shown t) [],
    lanes := d.lanes.foldl (fun (t : Tab LaneSt) e => tabPut .init e.1 (e.2.flagsOf .init) t) [] }

/-- The interrupted frame's end: its means, flags, DEAD_PCT, temperatures and clock ratio are those of the capture. -/
def Dev.cutFrame (d : Dev) : Dev :=
  let fast := d.run.fastN
  let slow := d.run.slowN
  let dead := d.run.deadN
  ((d.rollMeans.temperaturesKept).mapRun (fun r => { r with deadF := dead, pendB := none })).mapClk
    (fun c => { c with fastF := fast, slowF := slow })

/-- Step 8: outstanding slices, the pending boundary, the outage. `from_` is the latch when no save was found. -/
def Dev.catchUp (d : Dev) (saved kept : Bool) (from_ : Option Nat) : Dev :=
  let b := match d.run.pendB with
    | some x => x.1 * 16000 + x.2
    | none => (d.run.capTicks / 3200 + 1) * 3200
  let d := if !saved then d
    else
      let d := if d.run.open_ then d.runSlices d.run.off true true else d
      (d.cutFrame.closeAt (d.run.frame + 1) b true true).closedUp
  let start := if saved then some (b / 16000) else from_
  let d := match start with
    | some a => if kept then d.outageBounds a else d
    | none => d
  d.mapRun (fun r => { r with open_ := false, off := 736, pendB := none, cut := false })

/-! ## Step 9: the image goes live -/

/-- TYPE, QUANTUM_X10 and MODULUS of an isle as one number, 0 without a type. -/
def Dev.attrCode (d : Dev) (n : Nat) : Nat :=
  if d.ilType n = 0 then 0 else d.ilType n + flagAt 4 (d.ilX10 n) + 32 * d.ilModulus n

/-- Billing registers, fine accumulators and maximum demands start from zero where they are kept under another attribute, a
slot without a type among them (06 R129). -/
def Dev.checkAttrs (d : Dev) : Dev :=
  d.forEach (List.range 128) (fun n d =>
    let a := d.attrCode n
    if (d.isle n).attr = a then d
    else d.upIsle n (fun i => { i with attr := a, regs := [], fine := [], dem := { i.dem with max := [] } }))

/-- DRAW_BUDGET is raised to BASELINE + 1,300 (10 R238). -/
def Dev.raiseBudget (d : Dev) : Dev :=
  if d.budget < d.baseline + 1300 then
    (d.setReg 0x2000 (wordOf (d.baseline + 1300))).mapPwr (fun p => { p with raised := true })
  else d

/-- The live-image record holds the legal and binding digest of the image that went live (08 R189). -/
def Dev.writeLive (d : Dev) : Dev :=
  d.putLiveRecord (d.legalDigest, bindDigestOf d.image)

/-- A slot's stored attributes differ from its entry, or the entry is not DEFINED (13 R329). -/
def Dev.policyDiffers (d : Dev) (k : Nat) : Bool :=
  let s := d.slot k
  !d.kpDefined k ||
    decide (s.usage ≠ d.kpUsage k ∨ s.attr ≠ d.kpAttr k ∨ s.parent ≠ d.kpParent k ∨ s.label ≠ d.kpLabel k)

/-- Reconcile the vault with KEY_POLICY: slots whose attributes changed go, derived ones return with the next GENERATION;
LEGAL derived slots are renewed when the legal digest changed; EMPTY derived slots are derived (R328, R329, R325). -/
def Dev.reconcileKeys (d : Dev) (oldLegal : Option (List Byte)) : Dev :=
  let d := d.forEach ((List.range 64).filter (fun k => decide (3 ≤ k))) (fun k d =>
    let s := d.slot k
    if (s.state = .live ∨ s.state = .spent) ∧ d.policyDiffers k = true then
      let d := d.invalidate k 10
      if d.kpDefined k && d.slDerived k then d.upSlot k (fun s => { s with gen := (s.gen + 1) % 2 ^ 32 }) else d
    else d)
  let d := if oldLegal.isSome && decide (oldLegal ≠ some d.legalDigest) then
      d.forEach (List.range 64) (fun k d =>
        if d.slDerived k && d.slLegal k && d.slLive k && k != 0 then d.deriveSlot k (((d.slot k).gen + 1) % 2 ^ 32) 3 else d)
    else d
  d.forEach ((List.range 64).filter (fun k => decide (1 ≤ k))) (fun k d =>
    if d.slotExists k && d.slDerived k && decide ((d.slot k).state = .empty) then d.deriveSlot k (d.slot k).gen 1 else d)

/-- The raises that HOLD counted enter the ledger and are logged; the actions deferred wait for the next tick boundary
(12 R318, R315). A source whose condition ended in HOLD clears. -/
def Dev.holdAlarms (d : Dev) : Dev :=
  let b := d.bak
  let d := b.alarms.foldl (fun d e =>
    let a := e.2
    if a.count = 0 then d
    else
      let d := d.upLedger e.1 (fun l =>
        { l with count := satU 32 (l.count + a.count), first := if l.count = 0 then a.first else l.first, last := a.last,
                 raised := l.raised || decide (e.1 ∈ b.pins), since := 0 })
      let d := d.logAt a.first 0 0x094 orgDev ([byteOf e.1, 0#8, 0#8, 0#8] ++ leBytes 4 a.count) 0
      let opens := if e.1 = 3 then a.count else 0
      d.mapTam (fun t => { t with defer := t.defer ++ [e.1], opens := satU 32 (t.opens + opens) })) d
  let d := if d.pwr.cause = 2 then
      [0x0B, 0x0C].foldl (fun d s => if s ∈ b.pins then d else d.clearSrc s) d
    else d
  (d.mapTam (fun t => { t with defer := b.deferred ++ t.defer })).mapBak (fun b => { b with alarms := [], deferred := [] })

/-- Tamper holds of raised sources with the RELAY action are placed again after a COLD reset (16 R392). -/
def Dev.coldRelays (d : Dev) : Dev :=
  let l := (d.tam.ledger.filter (fun e => e.2.raised && bitOf (d.srcActions e.1) 5)).map (fun e => e.1 + 65536)
  d.mapTam (fun t => { t with defer := t.defer ++ l })

/-- The seal state in force against the newest record, as HOLD updated it (R396). -/
def Dev.reconcileSeal (d : Dev) : Dev :=
  match d.tam.sealRec with
  | none => d.guarded .sealRec
  | some (rec_, _) =>
    let shut := if d.pwr.cause = 2 then decide (3 ∉ d.bak.pins) else rec_
    if shut ≠ d.tam.sealPin then d.sealCounted else if rec_ ≠ shut then d.guarded .sealRec else d

/-- The device sources that a pin or the debug state drives. -/
def Dev.pinSources (d : Dev) : Dev :=
  (((d.setSrc 0x01 (!d.tam.cover)).setSrc 0x02 (!d.tam.tcover)).setSrc 0x04 (!d.tam.mag)).setSrc 0x0F d.vault.debug

/-- PIN flag and WIPE_SLOT of the sources that HOLD evaluates, for the backup register file (12 R317). -/
def Dev.writePolicy (d : Dev) : Dev :=
  let one (s : Nat) : Nat × Bool × Option Nat :=
    (s, bitOf (d.srcActions s) 2, if bitOf (d.srcActions s) 7 then some (d.srcWipe s) else none)
  d.mapBak (fun b => { b with policy := [1, 2, 3, 0x0B, 0x0C].map one })

/-- Relays at go-live: monostable outputs drive the state their holds give; other targets that differ get their command
(11 R278, R280). -/
def Dev.startRelays (d : Dev) : Dev :=
  let d := d.forEach ((List.range 32).filter (fun p => d.poModule p == 4 && d.poParam p 0 == 0)) (fun p d =>
    d.upPort p (fun s => { s with out := (List.range 2).map (fun o => d.relayOpen (2 * p + o)) }))
  let named := ((List.range 128).filter (fun n => d.ilType n != 0 && d.ilRelay n != 0xFFFF)).map (fun n => d.ilRelay n)
  (named ++ d.bak.holds.map (fun h => h.target)).dedup.foldl (fun d t => d.relayUpdate t 4) d

/-- At go-live a strait that has not locked yet has the quadrature correction of its declared grid (03 R62). -/
def Dev.nominalQcorr (d : Dev) : Dev :=
  d.forEach d.tickStraits (fun s d => d.upStrait s (fun x => if x.locked then x else { x with qcorr := d.nominalC s }))

/-- LEAK_RATE and LEAK_HOURS of the image: at once where none applied yet, else from the running hour on (05 R120). -/
def Dev.syncLeaks (d : Dev) : Dev :=
  d.forEach d.utilIsles (fun n d =>
    d.syncLeak n (if (d.isle n).util.leakPar.isEmpty then 0 else d.clk.secs / 3600))

/-- Step 9, and the deferred actions of step 10. `boot` for a power-up, whose backup register file is read. -/
def Dev.goLive (d : Dev) (boot : Bool) : Dev :=
  let oldLegal := d.liveRecord.map (fun x => x.1)
  let d := (d.checkAttrs.recordFrame d.local_).raiseBudget
  let d := ((d.recordFrame d.local_).writeLive).reconcileKeys oldLegal
  let d := d.mapStore (fun s => { s with places := d.regions.filter (fun r => decide (r.1 ≤ 11)) })
  let d := d.restartPulses
  let d := if boot then
      let d := d.spreadDues.holdAlarms
      let d := if d.pwr.cause = 1 then d.coldRelays else d
      d.reconcileSeal.pinSources
    else d
  let d := ((d.mapBak (fun b => { b with pins := [] })).writePolicy).startRelays
  let d := d.setUpDisplay.mapImg (fun m => { m with resume := true, meter := false })
  let d := d.nominalQcorr.syncLeaks
  if boot then d.mapPwr (fun p => { p with subscr := d.subscribedNow }) else d.updSubscr

/-- Event records, hourly records and snapshots as their regions give them: tiles verified, conflicts settled, and a record
without a valid copy is as never written (09 R206, R209, R218). -/
def Dev.loadRecords (d : Dev) : Dev :=
  let n := d.eventRings
  let d := d.forEach ((d.store.events.map (fun r => (r.seq - 1) / 31)).dedup) (fun g d =>
    let d := d.readRecord 13 (g % n) (g % n) 1 orgDev
    if d.recordHeld 13 (g % n) (g % n) 1 then d
    else d.mapStore (fun s => { s with events := s.events.filter (fun r => decide ((r.seq - 1) / 31 ≠ g)) }))
  d.forEach (List.range 128) (fun n d =>
    let d := if (d.isle n).hx.isEmpty then d
      else
        let d := d.readRecord 14 (7 * n) n 7 (orgIsle n)
        if d.recordHeld 14 (7 * n) n 7 then d else d.upIsle n (fun i => { i with hx := [] })
    d.forEach ((d.isle n).snaps.map (fun s => s.period)) (fun p d =>
      let k := 24 * n + p % 24
      let d := d.readRecord 15 (2 * k) k 2 (orgIsle n)
      if d.recordHeld 15 (2 * k) k 2 then d
      else d.upIsle n (fun i => { i with snaps := i.snaps.filter (fun s => decide (s.period ≠ p)) })))

/-- Steps 7 to 10 with an image loaded. -/
def Dev.bringUp (d : Dev) (p : PowerUpInput) (kept : Bool) : Dev :=
  let d := d.loadRecords
  let latch := if d.bak.latched then some d.bak.latchS else none
  let d := d.restoreRun p kept
  (((d.catchUp d.newestSave.isSome kept latch).loadPartners).goLive true)

/-! ## POWER_UP -/

/-- The power-up order (R393). -/
def Dev.powerUp (d : Dev) (p : PowerUpInput) : Dev :=
  let kept := d.bak.valid
  let debug := p.dbgEn && (d.vault.debug || d.pwr.dbgAsk)
  let unlock := debug && !d.vault.debug
  let roots := d.vault.rootSeq
  let d := (d.bootReset p).mapVault (fun v => v.boot p.dbgEn debug)
  let d := ((d.bootWipes.replayJournal).loadTamper.loadSeal.readParams.loadVault).bootVault p unlock
  let root := decide (d.vault.rootSeq ≠ roots)
  let d := d.bootImage.linkUp
  let d := d.holdPowerUp (!kept) root
  if d.isLive then d.bringUp p kept else d.stopNoImage

/-- POWER_UP (R389, R393): reset is released with the supplies valid. -/
def execPowerUp (p : PowerUpInput) (st : State) : Host.Outcome State Fault Refusal :=
  let d := st.dev
  if d.pwr.mode = .reset ∨ d.pwr.mode = .hold ∨ (d.pwr.mode = .failing ∧ d.pwr.gaspDone = true) then
    let d := d.powerUp p
    .next { st with dev := d, seen := d }
  else .next st

/-! ## IMAGE_RELOAD (08 R190) -/

/-- Jobs of some kind end aborted. -/
def Dev.abortJobs (d : Dev) (op : Nat) : Dev :=
  (d.link.jobs.filter (fun j => j.op == op && decide (j.phase = .running) && j.fin.isNone)).foldl (fun d j => d.finish j.num .aborted 0 []) d

/-- The banks, boundaries and accumulators are saved by twin write at b (R190). -/
def Dev.saveNow (d : Dev) : Dev :=
  let d := d.verifyWork
  d.putSave { seq := d.nextSave, kind := 0, run := d.captureNow, latch := 0, live := [] }

/-- A region of codes 12 to 18 whose base or size changed is cleared (09 R231). -/
def Dev.clearRegion (d : Dev) (code base size : Nat) : Dev :=
  let keep (a : Nat) : Bool := !decide (base ≤ a ∧ a < base + size)
  let d := d.mapStore (fun s =>
    { s with mram := s.mram.filter (fun e => keep e.1), check := s.check.filter (fun e => keep e.1),
             side := s.side.filter (fun e => keep (1024 * e.1)) })
  let each (d : Dev) (f : IsleSt → IsleSt) : Dev := d.forEach (List.range 128) (fun n d => d.upIsle n f)
  let d := match code with
    | 12 => { d with partners := [] }
    | 13 => d.mapStore (fun s => { s with events := [] })
    | 14 => each d (fun i => { i with hx := [] })
    | 15 => each d (fun i => { i with snaps := [] })
    | 17 => each d (fun i => { i with prof := { i.prof with held := [] } })
    | _ => d
  d.logNow 0x076 orgDev [byteOf code]

/-- Regions 12 to 18 against the former map. -/
def Dev.clearRegions (d : Dev) (old : List (Nat × Nat × Nat × Nat)) : Dev :=
  d.forEach [12, 13, 14, 15, 16, 17, 18] (fun c d =>
    match old.find? (fun r => r.1 == c), d.map.find? (fun r => r.1 == c) with
    | some (_, _, b, z), some (_, _, b2, z2) => if b = b2 ∧ z = z2 then d else d.clearRegion c b2 z2
    | none, some (_, _, b2, z2) => d.clearRegion c b2 z2
    | _, none => d)

/-- A full image load with the seal open puts the stood-in lanes on the reference for one visit (02 R55). -/
def Dev.startRetest (d : Dev) : Dev :=
  let l := (List.range 192).filter (fun n => (d.lane n).standin.isSome)
  if d.sealOpen && !l.isEmpty then { d with rot := { d.rot with testAt := some d.clk.frameNo, testing := l } } else d

/-- Straits, elements and engines start anew, an element of the same entry with its frame means; lanes run on, and those whose
entry changed restart as at any change (02 R44, R45). -/
def Dev.restartMetering (d : Dev) (words : List Nat) (entries : List (List Byte)) : Dev :=
  let el (e : Nat × ElemSt) : ElemSt :=
    if entries.getD e.1 [] = d.ent 3 e.1 then { e.2.shown with mean := e.2.mean, codeS := e.2.codeS, codeR := e.2.codeR } else .init
  let d := { d with
    straits := d.straits.foldl (fun (t : Tab StraitSt) (e : Nat × StraitSt) => tabPut .init e.1 { StraitSt.init with unlocks := e.2.unlocks } t) [],
    elems := d.elems.foldl (fun (t : Tab ElemSt) (e : Nat × ElemSt) => tabPut .init e.1 (el e) t) [],
    engines := [], ticks := [], rot := .reset, rtdOn := false, rtdDone := false, capReq := [] }
  (d.forEach (List.range 192) (fun n d => d.laneChange n (words.getD n 0) (d.laneWord n))).startRetest

/-- The vault's part of the power-up order at a reload: start-up tests and a re-split; slots expire only at a reset. -/
def Dev.reloadVault (d : Dev) (p : PowerUpInput) : Dev :=
  let d := d.bootTrng p.trngPass
  if d.vault.debug || d.vault.shares.isNone then d else d.bootResplit

/-- Steps 1 to 3 of R190 at boundary b with image `s`, over a live image. -/
def Dev.reloadLive (d : Dev) (s : Nat) (p : PowerUpInput) : Dev :=
  let d := if d.clk.evald then d else d.frameBoundary
  let d := d.drain.saveNow
  let d := if d.run.open_ then d.runSlices d.run.off true false else d
  let d := d.img.pending.foldl (fun d x => (d.freeSplice x.1).finish x.2 .aborted 0 []) d
  let d := (d.mapImg (fun m => { m with pending := [] })).abortJobs 0x70
  let regions := d.map
  let ports := (List.range 32).map (fun n => d.ent 6 n)
  let words := (List.range 192).map (fun n => d.laneWord n)
  let entries := (List.range 192).map (fun n => d.ent 3 n)
  let d := ((d.reloadVault p).loadSlot s).loadRegs
  let d := d.forEach (List.range 32) (fun n d => d.portEntry n (ports.getD n []) (d.ent 6 n))
  let d := (d.clearRegions regions).restartMetering words entries
  (d.goLive false).mapImg (fun m => { m with reloaded := true })

/-- IMAGE_RELOAD (R190): the slot that IMAGE_LOAD or AUTH_INSTALL named is loaded at the frame boundary. A reload is no
reset (R389). -/
def execImageReload (p : PowerUpInput) (st : State) : Host.Outcome State Fault Refusal :=
  let d := st.dev
  match d.img.reload with
  | some s =>
    if d.off = 0 ∧ (d.pwr.mode = .run ∨ d.pwr.mode = .doze) then
      let d := if d.isLive then d.reloadLive s p
        else ((((d.reloadVault p).loadSlot s).loadRegs.loadStandins).bringUp p (decide (d.pwr.cause ≠ 1))).startRetest
      .next { st with dev := d, seen := d }
    else .next st
  | none => .next st

end Sys2Proof.Machine
end

