-- ==== Sys2Proof/Machine/TestAccess.lean ====
section
/-! DEFINITION. Test access (17_electrical_package R412) and what drives the port pads (11_ports_partners R262, R263). -/

namespace Sys2Proof.Machine

/-! ## Port pads (R262, R263) -/

/-- What a port pad is to the board: high-impedance, an input, an output, or a line of the RS485 transceiver. -/
inductive PadUse where
  | highZ | input | output | rs485
  deriving DecidableEq, Repr

/-- The use of pad `k` (A to D) by a module; BUS_FAULT is an input when enabled (R262). -/
def padOf (module k : Nat) (busFault : Bool) : PadUse :=
  match module, k with
  | 1, 0 => if busFault then .input else .highZ
  | 1, 2 | 5, 2 | 2, 2 | 4, 0 | 4, 1 => .output
  | 1, 3 | 5, 3 | 4, 2 | 4, 3 => .input
  | 2, 0 | 2, 1 => .rs485
  | 3, _ => .input
  | _, _ => .highZ

/-- The use of pad `k` of port `p`: high-impedance until the image goes live, in HOLD and from the power-fail latch (R263). -/
def Dev.padUse (d : Dev) (p k : Nat) : PadUse :=
  if !d.isLive || decide (d.pwr.mode = .hold ∨ d.pwr.mode = .failing ∨ d.pwr.mode = .reset) then .highZ
  else padOf (d.poModule p) k (bitOf (d.poParam p 5) 1)

/-! ## The boundary (R412) -/

/-- The balls that a boundary cell may serve: port pads 4n + k, then 34 of the host link, the display, the pin inputs and
ALARM_N, and DBG_EN. Lane balls, VRES and REFCAP are none of them. -/
def scanBalls : Nat := 162

/-- The cells of the chain: the RS485 lines of ports in RS485 mode are outside it. -/
def Dev.scanChain (d : Dev) : List Nat :=
  ((List.range scanBalls).map (fun i => Config.scanBall i % scanBalls)).filter (fun b =>
    decide (128 ≤ b) || decide (d.padUse (b / 4) (b % 4) ≠ .rs485))

/-- The levels that the cells capture in this tick. -/
def Dev.boundary (d : Dev) : List Bool := d.scanChain.map (fun b => Config.padLevel d.clk.runTick b)

/-- IDCODE (R412). -/
def tapId : Nat := 0xB9192C9D

/-- The bits of a number, least significant first. -/
def bitsLow (n v : Nat) : List Bool := (List.range n).map (fun i => v.testBit i)

/-- The instruction of a code; all ones is BYPASS, and so is a code of no instruction (PRESUMED, log 77). -/
def tapInstrOf (l : List Bool) : TapInstr :=
  if l = bitsLow l.length (Config.tapCode 0) then .idcode
  else if l = bitsLow l.length (Config.tapCode 1) then .sample
  else if l = bitsLow l.length (Config.tapCode 2) then .extest
  else .bypass

/-- The controller's next state by TMS. -/
def TapState.next : TapState → Bool → TapState
  | .testLogicReset, tms => if tms then .testLogicReset else .runTestIdle
  | .runTestIdle, tms | .updateDr, tms | .updateIr, tms => if tms then .selectDr else .runTestIdle
  | .selectDr, tms => if tms then .selectIr else .captureDr
  | .selectIr, tms => if tms then .testLogicReset else .captureIr
  | .captureDr, tms | .shiftDr, tms => if tms then .exit1Dr else .shiftDr
  | .exit1Dr, tms => if tms then .updateDr else .pauseDr
  | .pauseDr, tms => if tms then .exit2Dr else .pauseDr
  | .exit2Dr, tms => if tms then .updateDr else .shiftDr
  | .captureIr, tms | .shiftIr, tms => if tms then .exit1Ir else .shiftIr
  | .exit1Ir, tms => if tms then .updateIr else .pauseIr
  | .pauseIr, tms => if tms then .exit2Ir else .pauseIr
  | .exit2Ir, tms => if tms then .updateIr else .shiftIr

/-- What the data register of an instruction captures: BYPASS one 0, IDCODE its word, the others the boundary. -/
def TapInstr.captured (i : TapInstr) (cells : List Bool) : List Bool :=
  match i with
  | .bypass => [false]
  | .idcode => bitsLow 32 tapId
  | .sample | .extest => cells

/-- The rising edge of TCK: capture or shift in the state that stands. -/
def Tap.rise (t : Tap) (cells : List Bool) (tdi : Bool) : Tap :=
  match t.at_ with
  | .captureDr => { t with dr := t.instr.captured cells }
  | .shiftDr => { t with dr := t.dr.drop 1 ++ [tdi] }
  | .captureIr => { t with ir := bitsLow Config.tapIrBits 1 }
  | .shiftIr => { t with ir := t.ir.drop 1 ++ [tdi] }
  | _ => t

/-- The falling edge after it, in the next state: an update takes effect, reset selects IDCODE, and TDO drives in the shift states
alone. -/
def Tap.fall (t : Tap) : Tap :=
  match t.at_ with
  | .testLogicReset => { t with instr := .idcode, tdo := none }
  | .updateIr => { t with instr := tapInstrOf t.ir, tdo := none }
  | .updateDr => { t with latch := if t.instr = .sample ∨ t.instr = .extest then t.dr else t.latch, tdo := none }
  | .shiftDr => { t with tdo := t.dr.head? }
  | .shiftIr => { t with tdo := t.ir.head? }
  | _ => { t with tdo := none }

/-- One cycle of TCK. -/
def Tap.clock (t : Tap) (cells : List Bool) (tms tdi : Bool) : Tap :=
  ({ t.rise cells tdi with at_ := t.at_.next tms }).fall

/-- The level that EXTEST drives on the ball of cell `i`; none under another instruction. -/
def Tap.drives (t : Tap) (i : Nat) : Option Bool := if t.instr = .extest then t.latch[i]? else none

/-- The test access port over a tick. It reaches no register, store or vault content (R412); without VDD33 it is unpowered. -/
def Dev.testAccess (d : Dev) (tck : List (Bool × Bool)) : Dev :=
  let cells := d.boundary
  if d.pwr.mode = .hold then { d with tap := .reset }
  else { d with tap := tck.foldl (fun t e => t.clock cells e.1 e.2) d.tap }

end Sys2Proof.Machine
end

