-- ==== Sys2Proof/Machine/Tick.lean ====
section
/-! DEFINITION. TICK_BOUNDARY and JOB_COMPLETION (01_archipelago R23, R26, R29, R30, 10_power R241, 12_events_tamper
R311). -/

namespace Sys2Proof.Machine

/-! ## The ending tick -/

/-- What the ending tick leaves: the samples of the pads, requests of the ports, metering or the samples of a check frame, captures, the scan, and
what changes with a tick or a frame; a rest that was chosen begins (10 R248). -/
def Dev.tickEnd (d : Dev) (inp : TickInput) : Dev :=
  let d := ((d.samplePads inp.low).samplePulses inp.low).portsFile.scanSkip
  let d := d.meterTick inp true (d.isLive && d.img.meter && !d.pwr.check)
  let d := if d.pwr.check then d.checkTick else d
  let d := d.fillCaps.scanTick
  let d := if d.off = 3199 then d.rollMeans.latchTemps else d
  let d := d.forEach (List.range 16) (fun s d =>
    match (d.strait s).qnext with
    | some q => d.upStrait s (fun x => { x with qcorr := q, qnext := none })
    | none => d)
  let d := d.mapPwr (fun p => { p with vres := inp.vres })
  if d.napNow then d.fallAsleep .nap else d.mapPwr (fun p => { p with sleepReq := false })

/-! ## Step 1: plain writes and what comes before step 2 (R23, 12 R311, 13 R335, R325) -/

/-- The ISLE_STICKY bits that an isle's close set in the ending tick: a clear at the same boundary leaves them (15_host_link
R377). -/
def Dev.stickySet (d : Dev) (n : Nat) : Nat :=
  if d.off = 81 + n ∧ d.run.off = 81 + n then (d.isle n).status ||| 1 else 0

/-- One plain write takes effect. -/
def Dev.plainWrite (d : Dev) (w : PlainWrite) : Dev :=
  match w with
  | .word a v => if a = 0x7000 then d.selectList v.toNat else d.setReg a v
  | .clear a v =>
    if isSticky a then
      let n := (a - 0x2E800000) / 0x40
      d.upIsle n (fun i => { i with sticky := (i.sticky &&& (2 ^ 32 - 1 - v.toNat)) ||| d.stickySet n })
    else d.mapLink (fun k => { k with cause := k.cause &&& ~~~(v.truncate 7) })
  | .bytes a l => d.sramPut a l

/-- Step 1 of R23, in the order the transactions completed. -/
def Dev.stepOne (d : Dev) : Dev :=
  let l := d.link.plain
  l.foldl (fun d w => d.plainWrite w) (d.mapLink (fun k => { k with plain := [] }))

/-- Tamper responses, invalidations, derivations and suspect knots of the boundary. -/
def Dev.boundaryWork1 (d : Dev) : Dev := d.runSessions.runTampers.runInvalidations.runDerivations.closeSuspects

/-! ## Grants that end at the boundary -/

/-- The transaction of a CAL_LOAD is applied: the new passive calendar stands, also after an abort that came after its commit
(06 R132), unless it has become active before (06 R135). -/
def Dev.loadCommitted (d : Dev) (j : Job) : Dev :=
  (if j.word = 0 then d.holdPassive (u8 j.args 0) true else d).finish j.num (if j.stage = 5 then .aborted else .done) 0 []

/-- The journal's transaction is applied: its job ends, or a splice is pending from here (09 R221, 08 R194). -/
def Dev.journalEnds (d : Dev) : Dev :=
  match d.journalApplied with
  | (some n, d) =>
    match d.findJob n with
    | some j =>
      if j.phase ≠ .running then d
      else if j.op = 0x18 then d.loadCommitted j
      else if j.stage = 5 then (if j.op = 0x32 then d.freeSplice j.args else d).finish n .aborted 0 []
      else if j.op = 0x32 then d.pendSplice j
      else d.finish n .done 0 []
    | none => d
  | (none, d) => d

/-- The last operation of a job has its draw behind it: what follows by the job's kind. -/
def Dev.opsDone (d : Dev) (j : Job) : Dev :=
  match j.op with
  | 0x32 => d.checkedSplice j
  | 0x64 => d.checkedInstall j
  | 0x65 | 0x6A => d.jobGuarded j (.keys j.num)
  | 0x68 => (d.verifySlot (u8 j.args 65) 1).checkedAuth j
  | _ => d

/-- One operation of a job has its draw behind it (10 R240). -/
def Dev.opEnds (d : Dev) (n : Nat) : Dev :=
  match d.findJob n with
  | some j =>
    if j.phase = .running ∧ j.stage = 3 ∧ j.fin = none then
      let d := d.upJob n (fun x => { x with needs := x.needs.drop 1 })
      if j.needs.length ≤ 1 then d.opsDone j else d
    else d
  | none => d

/-- Every grant that returns at this boundary completes what it was for. -/
def Dev.grantsEnd (d : Dev) : Dev :=
  let done := d.pwr.grants.filter (fun g => decide (g.until_ ≤ d.clk.runTick))
  done.foldl (fun d g =>
    match g.who with
    | .save => d.saveDone
    | .journal => d.journalEnds
    | .job n => d.opEnds n
    | _ => d) d.rgEnds

/-! ## Step 3: completions and aborts (R29, R30) -/

/-- A job's completion is latched: status and result stand until STAT reads them; the slots it used may be SPENT (13 R326);
a checked image loads at the next frame boundary (08 R190). -/
def Dev.latchJob (d : Dev) (j : Job) : Dev :=
  match j.fin with
  | none => d
  | some (st, w, r) =>
    let (st, w, r) : Status × Nat × List Byte := if j.stage = 5 then (.aborted, 0, []) else (st, w, r)
    let d := d.upJob j.num (fun x => { x with phase := .finished, fin := none, status := st, word := w, result := r, needs := [] })
    let d := (d.withdraw (.job j.num)).cause 2
    let d := (d.jobSlots j).foldl (fun d k => d.spendSlot k) d
    if j.op = 0x31 ∧ st = .done then d.mapImg (fun m => { m with reload := some (u8 j.args 0) }) else d

/-- Completions of the ending tick, in job order; what a finished job's activity still reports is dropped. -/
def Dev.latchJobs (d : Dev) : Dev :=
  let d := (d.link.jobs.filter (fun j => decide (j.phase ≠ .finished) && j.fin.isSome)).foldl (fun d j => d.latchJob j) d
  d.mapLink (fun k => { k with jobs := k.jobs.map (fun j => { j with fin := none }) })

/-- The reserve-guarded write that a job waits for. -/
def RgWrite.ofJob (n : Nat) : RgWrite → Bool
  | .counter j | .authority j | .keys j => j == n
  | _ => false

/-- A job that waits for its reserve-guarded write is stopped: a write in progress completes (09 R219). -/
def Dev.abortGuarded (d : Dev) (j : Job) : Bool × Dev :=
  if d.store.rgRun.any (RgWrite.ofJob j.num) then
    (if j.op = 0x20 ∨ j.op = 0x69 then (true, d) else (false, d.upJob j.num (fun x => { x with stage := 5 })))
  else
    let d := d.mapStore (fun s => { s with rgq := s.rgq.filter (fun w => !w.ofJob j.num) })
    (true, if d.store.rgq.isEmpty && d.store.rgRun.isNone then d.withdraw .reserveWrite else d)

/-- A transaction of the journal is stopped before its commit, or the job ends when it is applied (09 R221, R223). -/
def Dev.abortTxn (d : Dev) (j : Job) : Bool × Dev :=
  match d.abortJournal j.num with
  | (true, d) => (true, if j.op = 0x18 then d.loadAborted j else d)
  | (false, d) => (false, d.upJob j.num (fun x => { x with stage := 5 }))

/-- A discovery or a read job leaves its port (11 R285). -/
def Dev.abortPort (d : Dev) (n : Nat) : Dev :=
  d.forEach (List.range 32) (fun p d => d.upPort p (fun s =>
    { s with disc := s.disc.filter (fun x => x.job != n), pollQ := s.pollQ.filter (fun x => decide (x.2.2 ≠ .readJob n)) }))

/-- What an abort stops by the job's kind; true when the job stops at this boundary. -/
def Dev.abortWork (d : Dev) (j : Job) : Bool × Dev :=
  if j.phase = .accepted then (true, d)
  else if j.stage = 1 then d.abortGuarded j
  else if j.op = 0x10 then (true, d.mapClk (fun c => { c with step := none, slew := none }))
  else if j.op = 0x33 ∧ j.stage ≠ 4 then (true, d.abortStoreWrite j)
  else if j.op = 0x32 ∧ d.img.pending.any (fun x => x.2 == j.num) then (true, d.abortSplice j)
  else if j.stage = 4 ∧ (j.op = 0x18 ∨ j.op = 0x30 ∨ j.op = 0x32 ∨ j.op = 0x33) then d.abortTxn j
  else if j.op = 0x50 then (true, d.abortTest j.num)
  else if j.op = 0x70 then (true, d.abortUpdate j.num)
  else if j.op = 0x40 ∨ j.op = 0x47 then (true, d.abortPort j.num)
  else (true, d)

/-- One abort request resolves (R30): its job, and what ABORT returns. -/
def Dev.abortJob (d : Dev) (n : Nat) : Dev :=
  let answer (d : Dev) (st : Status) : Dev :=
    d.mapLink (fun k => { k with resp := some { status := st, payload := [] }, lastSt := st.code })
  match d.findJob n with
  | none => answer d .range
  | some j =>
    if j.phase = .finished then answer d .late
    else
      let (stops, d) := d.abortWork j
      let d := if stops then (d.latchJob { j with fin := some (.aborted, 0, []), stage := 0 }) else d
      answer d .done

/-- Step 3 of R23. -/
def Dev.stepThree (d : Dev) : Dev :=
  let d := d.latchJobs
  let l := d.link.aborts
  l.foldl (fun d n => d.abortJob n) (d.mapLink (fun k => { k with aborts := [] }))

/-! ## Step 4: jobs start (R23) -/

/-- The start of a job by its opcode. -/
def Dev.startJob (d : Dev) (j : Job) : Dev :=
  let d := d.upJob j.num (fun x => { x with phase := .running })
  match j.op with
  | 0x10 => d.startTimeSet j
  | 0x18 => d.startCalLoad j
  | 0x20 => d.startSignReading j
  | 0x22 => d.startEventRead j
  | 0x30 => d.startImageWrite j
  | 0x31 => d.startImageLoad j
  | 0x32 => d.startSplice j
  | 0x33 => d.startStoreWrite j
  | 0x40 => d.startDiscover j
  | 0x47 => d.startPartnerRead j
  | 0x50 => d.startMonitorTest j
  | 0x64 => d.startKeyInstall j
  | 0x65 => d.startKeyRenew j
  | 0x67 => d.startCrypto j
  | 0x68 => d.startAuthInstall j
  | 0x69 => d.startAttest j
  | 0x6A => d.startRootRegenerate j
  | 0x70 => d.startUpdate j
  | _ => d

/-- Step 4 of R23: the jobs accepted in the ending tick. -/
def Dev.stepFour (d : Dev) : Dev :=
  (d.link.jobs.filter (fun j => decide (j.phase = .accepted))).foldl (fun d j => d.startJob j) d

/-! ## The arbiter (10 R241) -/

/-- Grants made at this boundary: the RTD excitation, a monitor test's stimulus, and the use of a slot (02 R36, 12 R316,
13 R326). -/
def Dev.granted (d : Dev) : Dev :=
  let d := d.excite (d.grantedNow .rtd)
  let d := d.beginTest
  d.link.jobs.foldl (fun d j =>
    if d.grantedNow (.job j.num) then
      match j.needs with
      | (_, k) :: _ => if k < 64 then d.useSlot k else d
      | [] => d
    else d) d

/-- The arbiter between steps 3 and 4. -/
def Dev.stepArbiter (d : Dev) : Dev :=
  let had := d.dspGrant
  (d.portsFile.arbitrate.scanGrants had).granted

/-- The security block files for the first running job that needs an operation (R240). -/
def Dev.secureFile (d : Dev) : Dev :=
  (d.link.jobs.filter (fun j => decide (j.phase = .running) && j.stage == 3 && j.fin.isNone)).foldl (fun d j =>
    match j.needs with
    | (t, _) :: _ => d.file (.job j.num) 3 10 t
    | [] => d) d

/-! ## The new tick -/

/-- Requests and records of the tick that starts, the causes that this boundary set, and what the engine's tick forgets;
the start of offset 80 settles what frame F left open (01 R427). -/
def Dev.tickStart (d : Dev) : Dev :=
  let d := if d.off = 80 then d.settleTicks d.frameStart else d
  let d := d.storeFile.rgFile.secureFile.testFile
  let d := d.captureStatements.dropCopies
  let d := d.flushEvents.flushPartners.flushTamper
  let d := d.mapStore (fun s => { s with flight := none, busy := (d.grantOf .save).isSome || decide (s.rgRun = some .sleepSave) })
  let d := d.scanFile.runOrDoze.updSubscr
  d.mapLink (fun k => { k with cause := k.cause ||| k.newCause, newCause := 0 })

/-- Steps 1 to 3 of a tick boundary (R23). -/
def Dev.boundarySteps (d : Dev) : Dev :=
  let d := d.stepOne.boundaryWork1
  (if d.off = 0 then d.stepTwo else d).grantsEnd.stepThree

/-- A tick boundary in RUN or DOZE (R23). The boundary at which NAP begins still works off what the ending tick accepted. -/
def Dev.tickRun (d : Dev) (inp : TickInput) : Dev :=
  let d := ((d.tickEnd inp).mapClk Clock.advance).boundarySteps
  if d.pwr.mode = .nap then d else d.stepArbiter.stepFour.tickStart

/-- A tick asleep: time goes on, frame boundaries are counted for the voltage check (10 R250); in NAP the pads are sampled (07
R161, 11 R277), and a change that ends SLEEP wakes the device where the tick resumes (10 R252). -/
def Dev.tickAsleep (d : Dev) (inp : TickInput) : Dev :=
  let d := if d.pwr.mode = .nap then (d.samplePads inp.low).samplePulses inp.low else d
  let d := d.mapClk Clock.advance
  let d := if d.off = 0 then d.mapPwr (fun p => { p with idle := p.idle + 1 }) else d
  if d.pwr.waking && d.canWake then d.wakeUp else d

/-- One tick boundary in any power state. -/
def Dev.tick (d : Dev) (inp : TickInput) : Dev :=
  match d.pwr.mode with
  | .run | .doze => d.tickRun inp
  | .nap | .sleep => d.tickAsleep inp
  | .failing => d.failTick inp
  | .hold | .reset => d.mapClk Clock.advance

/-- TICK_BOUNDARY (R23): the ending tick's samples, then the boundary's work. -/
def execTickBoundary (inp : TickInput) (st : State) : Host.Outcome State Fault Refusal :=
  let d := (st.dev.tick inp).testAccess inp.tck
  .next { st with dev := d, seen := d }

/-! ## JOB_COMPLETION (R29) -/

/-- The completion of a job that has nothing more to wait for. -/
def Dev.complete (d : Dev) (j : Job) : Dev :=
  if j.stage = 0 then
    match j.op with
    | 0x33 => (d.doneStoreWrite j).finish j.num .done 0 []
    | 0x21 => let (st, w, r, d) := d.profileResult j.args; d.finish j.num st w r
    | 0x22 => d.doneEventRead j
    | _ => d
  else if j.stage = 3 then
    match j.op with
    | 0x67 => d.doneCrypto j
    | 0x20 | 0x69 => d.doneSigned j
    | 0x31 => (d.verifySlot (u8 j.args 0) 1).doneImageLoad j
    | _ => d
  else d

/-- Whether a job's operations have their draw: none left, or the last one's grant ends with this tick. -/
def Dev.opsReady (d : Dev) (j : Job) : Bool :=
  match j.needs with
  | [] => true
  | [_] => (d.grantOf (.job j.num)).any (fun g => decide (g.until_ ≤ d.clk.runTick + 1))
  | _ => false

/-- JOB_COMPLETION (R29): a running job's work is complete in this tick; its completion is latched at the boundary. -/
def execJobCompletion (job : Nat) (st : State) : Host.Outcome State Fault Refusal :=
  .next (st.onDev (fun d =>
    match d.findJob job with
    | some j =>
      if decide (j.phase = .running) && j.fin.isNone && (j.stage == 0 || (j.stage == 3 && d.opsReady j)) &&
          decide (d.pwr.mode = .run ∨ d.pwr.mode = .doze) then d.complete j
      else d
    | none => d))

end Sys2Proof.Machine
end

