-- ==== Sys2Proof/Machine/Dispatch.lean ====
section
/-! DEFINITION. One arm per command: each calls its meaning. -/

namespace Sys2Proof.Machine

def exec (i : Instr) (s : State) : Host.Outcome State Fault Refusal :=
  match i with
  | .tickBoundary inp => Sys2Proof.Machine.execTickBoundary inp s
  | .jobCompletion job => Sys2Proof.Machine.execJobCompletion job s
  | .frameBoundary => Sys2Proof.Machine.execFrameBoundary s
  | .isleClose n => Sys2Proof.Machine.execIsleClose n s
  | .demandSlice n => Sys2Proof.Machine.execDemandSlice n s
  | .isleEventsSlice n => Sys2Proof.Machine.execIsleEventsSlice n s
  | .archipelagoEventsSlice m => Sys2Proof.Machine.execArchipelagoEventsSlice m s
  | .profileSlice n => Sys2Proof.Machine.execProfileSlice n s
  | .billingCloseSlice n => Sys2Proof.Machine.execBillingCloseSlice n s
  | .slewEnd => Sys2Proof.Machine.execSlewEnd s
  | .zeroCrossing u sub peak => Sys2Proof.Machine.execZeroCrossing u sub peak s
  | .trackingTimeout u => Sys2Proof.Machine.execTrackingTimeout u s
  | .windowClose u => Sys2Proof.Machine.execWindowClose u s
  | .windowAnalysis u eng seq => Sys2Proof.Machine.execWindowAnalysis u eng seq s
  | .halfCycleRefresh u => Sys2Proof.Machine.execHalfCycleRefresh u s
  | .captureComplete slot => Sys2Proof.Machine.execCaptureComplete slot s
  | .laneStuck lane => Sys2Proof.Machine.execLaneStuck lane s
  | .ferryVisitEnd v => Sys2Proof.Machine.execFerryVisitEnd v s
  | .estimatedSpanEnd lane => Sys2Proof.Machine.execEstimatedSpanEnd lane s
  | .rtdRequest => Sys2Proof.Machine.execRtdRequest s
  | .rtdResult => Sys2Proof.Machine.execRtdResult s
  | .rd l addr len => Sys2Proof.Machine.execRd l addr len s
  | .stat l job off len => Sys2Proof.Machine.execStat l job off len s
  | .hcsNRise beforeCrc => Sys2Proof.Machine.execHcsNRise beforeCrc s
  | .registerWrite l addr data => Sys2Proof.Machine.execRegisterWrite l addr data s
  | .shWrite l addr data => Sys2Proof.Machine.execShWrite l addr data s
  | .lkWrite l addr data => Sys2Proof.Machine.execLkWrite l addr data s
  | .elmPhaseWrite l e v => Sys2Proof.Machine.execElmPhaseWrite l e v s
  | .isleDemandWrite l n v => Sys2Proof.Machine.execIsleDemandWrite l n v s
  | .isleAlarmWrite l n v => Sys2Proof.Machine.execIsleAlarmWrite l n v s
  | .isleStickyClear l n v => Sys2Proof.Machine.execIsleStickyClear l n v s
  | .hlCauseClear l v => Sys2Proof.Machine.execHlCauseClear l v s
  | .drawBudgetWrite l v => Sys2Proof.Machine.execDrawBudgetWrite l v s
  | .powerCtlWrite l v => Sys2Proof.Machine.execPowerCtlWrite l v s
  | .saveMinWrite l v => Sys2Proof.Machine.execSaveMinWrite l v s
  | .dspCtlWrite l v => Sys2Proof.Machine.execDspCtlWrite l v s
  | .dspBandWrite l v => Sys2Proof.Machine.execDspBandWrite l v s
  | .portBaudWrite l p v => Sys2Proof.Machine.execPortBaudWrite l p v s
  | .portPollWrite l p v => Sys2Proof.Machine.execPortPollWrite l p v s
  | .portEnableWrite l p v => Sys2Proof.Machine.execPortEnableWrite l p v s
  | .mramWindowWrite l addr data => Sys2Proof.Machine.execMramWindowWrite l addr data s
  | .sramWindowWrite l addr data => Sys2Proof.Machine.execSramWindowWrite l addr data s
  | .displayRegionWrite l off data => Sys2Proof.Machine.execDisplayRegionWrite l off data s
  | .commit l args => Sys2Proof.Machine.execCommit l args s
  | .abandon l args => Sys2Proof.Machine.execAbandon l args s
  | .abort l args => Sys2Proof.Machine.execAbort l args s
  | .saveNow l args => Sys2Proof.Machine.execSaveNow l args s
  | .timeSet l args => Sys2Proof.Machine.execTimeSet l args s
  | .offsetSet l args => Sys2Proof.Machine.execOffsetSet l args s
  | .wakeAt l args => Sys2Proof.Machine.execWakeAt l args s
  | .wakeClear l args => Sys2Proof.Machine.execWakeClear l args s
  | .calLoad l args => Sys2Proof.Machine.execCalLoad l args s
  | .calCancel l args => Sys2Proof.Machine.execCalCancel l args s
  | .calRead l args => Sys2Proof.Machine.execCalRead l args s
  | .closeNow l args => Sys2Proof.Machine.execCloseNow l args s
  | .signReading l args => Sys2Proof.Machine.execSignReading l args s
  | .profileRead l args => Sys2Proof.Machine.execProfileRead l args s
  | .eventRead l args => Sys2Proof.Machine.execEventRead l args s
  | .notifyRead l args => Sys2Proof.Machine.execNotifyRead l args s
  | .capture l args => Sys2Proof.Machine.execCapture l args s
  | .captureRelease l args => Sys2Proof.Machine.execCaptureRelease l args s
  | .imageWrite l args => Sys2Proof.Machine.execImageWrite l args s
  | .imageLoad l args => Sys2Proof.Machine.execImageLoad l args s
  | .imageReload p => Sys2Proof.Machine.execImageReload p s
  | .splice l args => Sys2Proof.Machine.execSplice l args s
  | .storeWrite l args => Sys2Proof.Machine.execStoreWrite l args s
  | .discover l args => Sys2Proof.Machine.execDiscover l args s
  | .partnerAdd l args => Sys2Proof.Machine.execPartnerAdd l args s
  | .partnerEnrol l args => Sys2Proof.Machine.execPartnerEnrol l args s
  | .partnerRetire l args => Sys2Proof.Machine.execPartnerRetire l args s
  | .partnerDelete l args => Sys2Proof.Machine.execPartnerDelete l args s
  | .partnerBind l args => Sys2Proof.Machine.execPartnerBind l args s
  | .partnerSet l args => Sys2Proof.Machine.execPartnerSet l args s
  | .partnerRead l args => Sys2Proof.Machine.execPartnerRead l args s
  | .relayHold l args => Sys2Proof.Machine.execRelayHold l args s
  | .relayRelease l args => Sys2Proof.Machine.execRelayRelease l args s
  | .monitorTest l args => Sys2Proof.Machine.execMonitorTest l args s
  | .monitorTestEnd raised cleared => Sys2Proof.Machine.execMonitorTestEnd raised cleared s
  | .tamperAck l args => Sys2Proof.Machine.execTamperAck l args s
  | .freezeRelease l args => Sys2Proof.Machine.execFreezeRelease l args s
  | .sessionOpen l args => Sys2Proof.Machine.execSessionOpen l args s
  | .sessionAuth l args => Sys2Proof.Machine.execSessionAuth l args s
  | .sessionAuthTimeout => Sys2Proof.Machine.execSessionAuthTimeout s
  | .sessionClose l args => Sys2Proof.Machine.execSessionClose l args s
  | .sessionIdle => Sys2Proof.Machine.execSessionIdle s
  | .keyPublic l args => Sys2Proof.Machine.execKeyPublic l args s
  | .keyInstall l args => Sys2Proof.Machine.execKeyInstall l args s
  | .keyRenew l args => Sys2Proof.Machine.execKeyRenew l args s
  | .keyInvalidate l args => Sys2Proof.Machine.execKeyInvalidate l args s
  | .crypto l args => Sys2Proof.Machine.execCrypto l args s
  | .authInstall l args => Sys2Proof.Machine.execAuthInstall l args s
  | .attest l args => Sys2Proof.Machine.execAttest l args s
  | .rootRegenerate l args => Sys2Proof.Machine.execRootRegenerate l args s
  | .debugUnlock l args => Sys2Proof.Machine.execDebugUnlock l args s
  | .displayUpdate l args => Sys2Proof.Machine.execDisplayUpdate l args s
  | .powerFail => Sys2Proof.Machine.execPowerFail s
  | .lastGasp => Sys2Proof.Machine.execLastGasp s
  | .holdEntry => Sys2Proof.Machine.execHoldEntry s
  | .holdSample calseal cover tcover vbat glitch => Sys2Proof.Machine.execHoldSample calseal cover tcover vbat glitch s
  | .powerUp p => Sys2Proof.Machine.execPowerUp p s
  | .coreReset => Sys2Proof.Machine.execCoreReset s
  | .resetN ns => Sys2Proof.Machine.execResetN ns s
  | .vbatLoss => Sys2Proof.Machine.execVbatLoss s
  | .vdd5pChange ok => Sys2Proof.Machine.execVdd5pChange ok s
  | .chargerThreshold vres => Sys2Proof.Machine.execChargerThreshold vres s
  | .statePicker => Sys2Proof.Machine.execStatePicker s
  | .wake => Sys2Proof.Machine.execWake s
  | .calendarWake => Sys2Proof.Machine.execCalendarWake s
  | .hostWake => Sys2Proof.Machine.execHostWake s
  | .voltageCheck => Sys2Proof.Machine.execVoltageCheck s
  | .periodicSave => Sys2Proof.Machine.execPeriodicSave s
  | .saveAbandon => Sys2Proof.Machine.execSaveAbandon s
  | .journalTransaction => Sys2Proof.Machine.execJournalTransaction s
  | .reserveGuardedWrite vresAfter => Sys2Proof.Machine.execReserveGuardedWrite vresAfter s
  | .scrub sram tile => Sys2Proof.Machine.execScrub sram tile s
  | .pollDue k => Sys2Proof.Machine.execPollDue k s
  | .busFrame p => Sys2Proof.Machine.execBusFrame p s
  | .rspUd p raw => Sys2Proof.Machine.execRspUd p raw s
  | .answerTimeout p => Sys2Proof.Machine.execAnswerTimeout p s
  | .modbusResponse p raw => Sys2Proof.Machine.execModbusResponse p raw s
  | .modbusRequest p raw => Sys2Proof.Machine.execModbusRequest p raw s
  | .optoRequest p raw => Sys2Proof.Machine.execOptoRequest p raw s
  | .optoAcknowledgement p raw => Sys2Proof.Machine.execOptoAcknowledgement p raw s
  | .optoTimeout p => Sys2Proof.Machine.execOptoTimeout p s
  | .pulseAccepted p k => Sys2Proof.Machine.execPulseAccepted p k s
  | .relayMismatch p o => Sys2Proof.Machine.execRelayMismatch p o s
  | .relayCoilRetry k => Sys2Proof.Machine.execRelayCoilRetry k s
  | .backoffProbe p => Sys2Proof.Machine.execBackoffProbe p s
  | .calsealN high => Sys2Proof.Machine.execCalsealN high s
  | .coverN high => Sys2Proof.Machine.execCoverN high s
  | .tcoverN high => Sys2Proof.Machine.execTcoverN high s
  | .magN high => Sys2Proof.Machine.execMagN high s
  | .supplyGlitch rail ns => Sys2Proof.Machine.execSupplyGlitch rail ns s
  | .resplit => Sys2Proof.Machine.execResplit s
  | .maskRefresh => Sys2Proof.Machine.execMaskRefresh s
  | .trngFail kind => Sys2Proof.Machine.execTrngFail kind s
  | .trngRetry pass => Sys2Proof.Machine.execTrngRetry pass s
  | .panelFrame => Sys2Proof.Machine.execPanelFrame s
  | .pmicEnFall => Sys2Proof.Machine.execPmicEnFall s
  | .stripRender => Sys2Proof.Machine.execStripRender s
  | .scrollN => Sys2Proof.Machine.execScrollN s
  | .scrollNHold => Sys2Proof.Machine.execScrollNHold s
  | .scrollTimer => Sys2Proof.Machine.execScrollTimer s
  | .listReturn => Sys2Proof.Machine.execListReturn s
  | .rtdStale lane => Sys2Proof.Machine.execRtdStale lane s
  | .pulseGlitch p k => Sys2Proof.Machine.execPulseGlitch p k s
  | .relayFeedback p o => Sys2Proof.Machine.execRelayFeedback p o s
  | .lineFault p on => Sys2Proof.Machine.execLineFault p on s
  | .sessionFailLockoutEnd role => Sys2Proof.Machine.execSessionFailLockoutEnd role s

end Sys2Proof.Machine
end

