-- ==== Sys2Proof/Safety.lean ====
section
/-! DEFINITION. What counts as a safe run, and the words the statements about the host link use: what a command sends over the
link, and what the device's own checks let through. -/

namespace Sys2Proof.Safety

open Sys2Proof.Machine

/-! ## Invariants -/

/-- Memory is in canonical form: strictly rising addresses, no listed byte equal to 0. -/
def memWf (d : Dev) : Bool := tabWf 0#8 d.store.mram && tabWf 0#8 d.store.sram

/-- The tick-of-second is one of 0 to 15,999 (00_scope R7). -/
def clockWf (d : Dev) : Bool := decide (d.clk.tick < 16000)

/-- The held jobs are at most 32 (01_archipelago R29). -/
def jobsWf (d : Dev) : Bool := decide (d.link.jobs.length ≤ 32)

/-- The device's invariant: canonical memory, the tick in its range, the job table within its size. -/
def devInv (d : Dev) : Bool := memWf d && clockWf d && jobsWf d

/-- The device is metering or could be: neither asleep, failing, in HOLD nor held in reset (10_power R246). -/
def awake (d : Dev) : Prop := d.pwr.mode = .run ∨ d.pwr.mode = .doze

/-- Awake or asleep with its supplies: a power fail or a reset can latch (R254). -/
def powered (d : Dev) : Prop := awake d ∨ d.pwr.mode = .nap ∨ d.pwr.mode = .sleep

/-! ## What a command sends over the link -/

/-- The payload of an EXEC (15_host_link R378). -/
def execPayload (op : Nat) (args : List Byte) : List Byte := leBytes 2 op ++ [0#8, 0#8] ++ args

/-- A mailbox command: framing, opcode, arguments, whether their length is right, whether R342's HOST row holds it, and
whether it needs a live image (R428). -/
def mailbox : Instr → Option (Link × Nat × List Byte × Bool × Bool × Bool)
  | .commit l a => some (l, 0x01, a, a.isEmpty, false, true)
  | .abandon l a => some (l, 0x02, a, a.isEmpty, false, true)
  | .abort l a => some (l, 0x03, a, a.length == 2, false, false)
  | .saveNow l a => some (l, 0x04, a, a.isEmpty, false, true)
  | .timeSet l a => some (l, 0x10, a, a.length == 9, true, true)
  | .offsetSet l a => some (l, 0x11, a, decide (3 ≤ a.length) && a.length == 3 + 6 * u8 a 2, true, true)
  | .wakeAt l a => some (l, 0x12, a, a.length == 4, false, true)
  | .wakeClear l a => some (l, 0x13, a, a.isEmpty, false, true)
  | .calLoad l a => some (l, 0x18, a, a.length == 1025, true, true)
  | .calCancel l a => some (l, 0x19, a, a.length == 1, true, true)
  | .calRead l a => some (l, 0x1A, a, a.length == 2, false, true)
  | .closeNow l a => some (l, 0x1B, a, a.length == 16, true, true)
  | .signReading l a => some (l, 0x20, a, a.length == 19, false, true)
  | .profileRead l a => some (l, 0x21, a, a.length == 7, false, true)
  | .eventRead l a => some (l, 0x22, a, a.length == 6, false, false)
  | .notifyRead l a => some (l, 0x23, a, a.isEmpty, false, false)
  | .capture l a => some (l, 0x24, a, a.length == 1, false, true)
  | .captureRelease l a => some (l, 0x25, a, a.length == 1, false, true)
  | .imageWrite l a => some (l, 0x30, a, decide (5 ≤ a.length), true, false)
  | .imageLoad l a => some (l, 0x31, a, a.length == 1, true, false)
  | .splice l a => some (l, 0x32, a, a.length == 1024, true, true)
  | .storeWrite l a => some (l, 0x33, a, decide (9 ≤ a.length) && a.length == 9 + u32 a 4, true, true)
  | .discover l a => some (l, 0x40, a, a.length == 18, false, true)
  | .partnerAdd l a => some (l, 0x41, a, a.length == 15, true, true)
  | .partnerEnrol l a => some (l, 0x42, a, a.length == 2, true, true)
  | .partnerRetire l a => some (l, 0x43, a, a.length == 2, true, true)
  | .partnerDelete l a => some (l, 0x44, a, a.length == 2, true, true)
  | .partnerBind l a => some (l, 0x45, a, a.length == 3, true, true)
  | .partnerSet l a => some (l, 0x46, a, a.length == 7, true, true)
  | .partnerRead l a => some (l, 0x47, a, a.length == 2, false, true)
  | .relayHold l a => some (l, 0x48, a, a.length == 3, true, true)
  | .relayRelease l a => some (l, 0x49, a, a.length == 3, decide (u8 a 2 < 2), true)
  | .monitorTest l a => some (l, 0x50, a, a.length == 2, false, true)
  | .tamperAck l a => some (l, 0x51, a, a.length == 2, false, true)
  | .freezeRelease l a => some (l, 0x52, a, a.isEmpty, false, true)
  | .sessionOpen l a => some (l, 0x60, a, a.length == 17, false, false)
  | .sessionAuth l a => some (l, 0x61, a, a.length == 16, false, false)
  | .sessionClose l a => some (l, 0x62, a, a.isEmpty, false, false)
  | .keyPublic l a => some (l, 0x63, a, a.length == 1, false, false)
  | .keyInstall l a => some (l, 0x64, a, decide (97 ≤ a.length) && a.length == 97 + u32 a 77, false, false)
  | .keyRenew l a => some (l, 0x65, a, a.length == 1, false, false)
  | .keyInvalidate l a => some (l, 0x66, a, a.length == 1, false, false)
  | .crypto l a => some (l, 0x67, a, decide (2 ≤ a.length), false, false)
  | .authInstall l a => some (l, 0x68, a, a.length == 66, false, false)
  | .attest l a => some (l, 0x69, a, decide (17 ≤ a.length) && a.length == 17 + u8 a 16, false, false)
  | .rootRegenerate l a => some (l, 0x6A, a, a.isEmpty, false, false)
  | .debugUnlock l a => some (l, 0x6B, a, a.isEmpty, false, false)
  | .displayUpdate l a => some (l, 0x70, a, a.length == 9, false, true)
  | _ => none

/-- The commands that start jobs, with their framing and arguments (15_host_link R379). -/
def jobCommands (l : Link) (a : List Byte) : List Instr :=
  [.timeSet l a, .calLoad l a, .signReading l a, .profileRead l a, .eventRead l a, .imageWrite l a, .imageLoad l a, .splice l a,
   .storeWrite l a, .discover l a, .partnerRead l a, .monitorTest l a, .keyInstall l a, .keyRenew l a, .crypto l a,
   .authInstall l a, .attest l a, .rootRegenerate l a, .displayUpdate l a]

/-- A WR of one word, as address and value. -/
def wordWrite : Instr → Option (Link × Nat × Word)
  | .elmPhaseWrite l e v => if e < 192 then some (l, 0x10004 + 0x20 * e, v) else none
  | .isleDemandWrite l n v => if n < 128 then some (l, 0x20010 + 0x20 * n, v) else none
  | .isleAlarmWrite l n v => if n < 128 then some (l, 0x20014 + 0x20 * n, v) else none
  | .isleStickyClear l n v => if n < 128 then some (l, stickyAddr n, v) else none
  | .hlCauseClear l v => some (l, 0x24, v)
  | .drawBudgetWrite l v => some (l, 0x2000, v)
  | .powerCtlWrite l v => some (l, 0x2004, v)
  | .saveMinWrite l v => some (l, 0x4000, v)
  | .dspCtlWrite l v => some (l, 0x7000, v)
  | .dspBandWrite l v => some (l, 0x7004, v)
  | .portBaudWrite l p v => if p < 32 then some (l, 0x30004 + 0x40 * p, v) else none
  | .portPollWrite l p v => if p < 32 then some (l, 0x3000C + 0x40 * p, v) else none
  | .portEnableWrite l p v => if p < 32 then some (l, 0x30000 + 0x40 * p, v) else none
  | _ => none

/-- The request that a command sends over the link: framing, OP, address, length and payload (R369). -/
def request (d : Dev) (c : Instr) : Option (Link × Nat × Nat × Nat × List Byte) :=
  match mailbox c with
  | some (l, op, a, _, _, _) => some (l, 2, 0x30000000, (execPayload op a).length, execPayload op a)
  | none =>
    match wordWrite c with
    | some (l, a, v) => some (l, 1, a, 4, leBytes 4 v.toNat)
    | none =>
      match c with
      | .rd l addr len => some (l, 0, addr.toNat, len, [])
      | .stat l job off len => some (l, 3, 65536 * off + job, len, [])
      | .registerWrite l addr data | .shWrite l addr data | .lkWrite l addr data =>
        some (l, 1, addr.toNat, data.length, data)
      | .mramWindowWrite l addr data => some (l, 1, 0x10000000 + addr, data.length, data)
      | .sramWindowWrite l addr data => some (l, 1, 0x01000000 + addr, data.length, data)
      | .displayRegionWrite l off data => some (l, 1, 0x01000000 + (d.dspBase + off), data.length, data)
      | _ => none

/-! ## What the link's checks let through (15_host_link R372, R375, 13_keys R340) -/

/-- The length that the framing rules see: a WR or EXEC in a session ends in its trailer (R340). -/
def wireLen (l : Link) (op len : Nat) : Nat := if op = 1 ∨ op = 2 then len + l.trailer.length else len

/-- A request passes the checks on power state, CRC, reserved bits, length and session: whether it belongs to the session,
and the device with the session's counter and idle time renewed. -/
def admitted (d : Dev) (l : Link) (op addr len : Nat) (payload : List Byte) : Option (Bool × Dev) :=
  let n := wireLen l op len
  if !d.linkLive || d.linkBusy || !linkCrcOk l op addr n payload || decide (l.rsv ≠ 0) ||
     (l.session && decide (op = 0 ∨ op = 3)) || decide (4096 < n) then none
  else if l.session then
    match d.vault.session with
    | none => none
    | some s =>
      if trailerOk l s op addr n payload then
        some (true, d.mapVault (fun v => { v with session := some { s with ctr := u32 l.trailer 0, lastT := d.clk.runTick } }))
      else none
  else some (false, d)

/-- An EXEC is admitted and passes the HOST row of R342 and the need of a live image (R428). -/
def admitCmd (d : Dev) (l : Link) (op : Nat) (args : List Byte) (hostRow needLive : Bool) : Option (Bool × Dev) :=
  match admitted d l 2 0x30000000 (execPayload op args).length (execPayload op args) with
  | some (x, e) => if (hostRow && e.hostDenied x) || (needLive && !e.isLive) then none else some (x, e)
  | none => none

/-- The command leaves the device as given, and nothing else of the state changes. -/
def leaves (c : Instr) (s : State) (d : Dev) : Prop := exec c s = .next { s with dev := d }

/-- The command answers a next state whose device has a property; the queue is unchanged. -/
def gives (c : Instr) (s : State) (p : Dev → Prop) : Prop := ∃ t, exec c s = .next t ∧ t.pending = s.pending ∧ p t.dev

/-- The device after an EXEC answered. -/
def answered (e : Dev) (l : Link) (st : Status) (p : List Byte) : Dev := e.respond (linkCmd l 2) st p

end Sys2Proof.Safety
end

