-- ==== Sys2Proof/WellFormed.lean ====
section
/-! DEFINITION. Which commands name things the device has (00_scope R4): the unit numbers inside their
ranges, the lists of the length the hardware delivers. -/

namespace Sys2Proof

/-- A link framing carries the 12-byte trailer exactly when SESSION is set (15_host_link R370, 13 R340). -/
def Link.wf (l : Link) : Bool := l.trailer.length == (if l.session then 12 else 0)

/-- Modulator bits name lanes 0 to 199 once each, stall cycles name engines 0 to 8, and low pads are the four tamper pins, SCROLL_N
and the pads of the 32 ports. -/
def TickInput.wf (t : TickInput) : Bool :=
  t.bits.all (fun x => decide (x.1 < 200)) && decide ((t.bits.map Prod.fst).Nodup) &&
  t.stalls.all (fun x => decide (x.1 < 9)) && decide ((t.stalls.map Prod.fst).Nodup) &&
  t.low.all (fun k => decide (k < 5 ∨ (16 ≤ k ∧ k < 144)))

/-- Whether a command names only units the device has and carries lists of the right length. -/
def Instr.wf : Instr → Bool
  | .tickBoundary inp => inp.wf
  | .isleClose n | .demandSlice n | .isleEventsSlice n | .profileSlice n | .billingCloseSlice n => decide (n < 128)
  | .zeroCrossing s sub _ => decide (s < 16) && decide (sub < 65536)
  | .windowAnalysis s eng _ => decide (s < 16) && decide (eng < 4)
  | .trackingTimeout s | .windowClose s | .halfCycleRefresh s => decide (s < 16)
  | .captureComplete slot => decide (slot < 4)
  | .laneStuck lane => decide (lane < 200)
  | .estimatedSpanEnd lane | .rtdStale lane => decide (lane < 192)
  | .rd l _ len => l.wf && decide (len < 2 ^ 24)
  | .stat l job off len => l.wf && decide (job < 65536) && decide (off < 65536) && decide (len < 2 ^ 24)
  | .elmPhaseWrite l e _ => l.wf && decide (e < 192)
  | .isleDemandWrite l n _ | .isleAlarmWrite l n _ | .isleStickyClear l n _ => l.wf && decide (n < 128)
  | .portBaudWrite l p _ | .portPollWrite l p _ | .portEnableWrite l p _ => l.wf && decide (p < 32)
  | .mramWindowWrite l a d => l.wf && decide (a + d.length ≤ 0x4000000)
  | .sramWindowWrite l a d => l.wf && decide (a + d.length ≤ 0x800000)
  | .displayRegionWrite l a d => l.wf && decide (a + d.length ≤ 0x800000)
  | .pollDue i | .relayCoilRetry i => decide (i < 4096)
  | .busFrame p | .rspUd p _ | .answerTimeout p | .modbusResponse p _ | .modbusRequest p _ | .optoRequest p _
  | .optoAcknowledgement p _ | .optoTimeout p | .backoffProbe p | .lineFault p _ => decide (p < 32)
  | .pulseAccepted p i | .pulseGlitch p i => decide (p < 32) && decide (i < 4)
  | .relayMismatch p o | .relayFeedback p o => decide (p < 32) && decide (o < 2)
  | .scrub sram tile => decide (tile < if sram then 8192 else 65536)
  | .supplyGlitch rail _ => decide (rail < 4)
  | .trngFail kind => decide (kind < 3)
  | .sessionFailLockoutEnd role => decide (role < 3)
  | .jobCompletion j => decide (j < 65536)
  | .registerWrite l _ _ | .shWrite l _ _ | .lkWrite l _ _ | .hlCauseClear l _ | .drawBudgetWrite l _
  | .powerCtlWrite l _ | .saveMinWrite l _ | .dspCtlWrite l _ | .dspBandWrite l _
  | .commit l _ | .abandon l _ | .abort l _ | .saveNow l _ | .timeSet l _ | .offsetSet l _ | .wakeAt l _
  | .wakeClear l _ | .calLoad l _ | .calCancel l _ | .calRead l _ | .closeNow l _ | .signReading l _
  | .profileRead l _ | .eventRead l _ | .notifyRead l _ | .capture l _ | .captureRelease l _ | .imageWrite l _
  | .imageLoad l _ | .splice l _ | .storeWrite l _ | .discover l _ | .partnerAdd l _ | .partnerEnrol l _
  | .partnerRetire l _ | .partnerDelete l _ | .partnerBind l _ | .partnerSet l _ | .partnerRead l _
  | .relayHold l _ | .relayRelease l _ | .monitorTest l _ | .tamperAck l _ | .freezeRelease l _
  | .sessionOpen l _ | .sessionAuth l _ | .sessionClose l _ | .keyPublic l _ | .keyInstall l _ | .keyRenew l _
  | .keyInvalidate l _ | .crypto l _ | .authInstall l _ | .attest l _ | .rootRegenerate l _ | .debugUnlock l _
  | .displayUpdate l _ => l.wf
  | .imageReload p | .powerUp p => p.badIsles.all (fun n => decide (n < 128))
  | .frameBoundary | .ferryVisitEnd _ | .archipelagoEventsSlice _ | .slewEnd | .rtdRequest | .rtdResult | .hcsNRise _
  | .monitorTestEnd _ _ | .sessionAuthTimeout | .sessionIdle | .powerFail | .lastGasp | .holdEntry
  | .holdSample _ _ _ _ _ | .coreReset | .resetN _ | .vbatLoss | .vdd5pChange _ | .chargerThreshold _
  | .statePicker | .wake | .calendarWake | .hostWake | .voltageCheck | .periodicSave | .saveAbandon
  | .journalTransaction | .reserveGuardedWrite _ | .calsealN _ | .coverN _ | .tcoverN _ | .magN _ | .resplit
  | .maskRefresh | .trngRetry _ | .panelFrame | .pmicEnFall | .stripRender | .scrollN | .scrollNHold
  | .scrollTimer | .listReturn => true

end Sys2Proof
end

