-- ==== Sys2Proof/Certificates/Slice0/Obligations.lean ====
section
/-! DEFINITION. The statements for the provers, from the numbered rules of spec/. -/

open Sys2Proof Sys2Proof.Machine Sys2Proof.Safety

/-! ## The block as a whole -/

/-- A step takes the command at the front of the queue and runs it on the state with the queue's rest. -/
def Obligations.StepRunsFrontCommand : Prop :=
  ∀ (c : Instr) (rest : List Instr) (s : State), s.pending = c :: rest → step s = exec c { s with pending := rest }

/-- Every command that names only units the device has answers a next state, and no command touches the queue. -/
def Obligations.WellFormedCommandNeverStops : Prop :=
  ∀ (c : Instr) (s : State), c.wf = true → ∃ t, exec c s = .next t ∧ t.pending = s.pending

/-- A queue of well-formed commands is an invariant under which the block never faults or refuses: each step answers a next
state, whose queue is shorter by the command that ran (the queue and the idle step are the model's own, log 4). -/
def Obligations.WellFormedQueueRunsOn : Prop :=
  ∀ s : State, (s.pending.all Instr.wf) = true →
    ∃ t, step s = .next t ∧ t.pending = s.pending.tail ∧ (t.pending.all Instr.wf) = true

/-- Memory canonical, the tick in its range, at most 32 held jobs: kept by every step. -/
def Obligations.StepKeepsDeviceInvariant : Prop :=
  ∀ s t : State, devInv s.dev = true → step s = .next t → devInv t.dev = true

/-- The device's invariant holds right after reset. -/
def Obligations.ResetMeetsDeviceInvariant : Prop :=
  devInv State.reset.dev = true ∧ State.reset.pending = [] ∧ State.reset.seen = State.reset.dev

/-- What a read of register space returns is the device at the start of the running tick: only a tick boundary, a frame
boundary, a power-up and an image reload change it, and they set it to the device they leave (R23, R374). -/
def Obligations.ReadsSeeTheTickStart : Prop :=
  ∀ (c : Instr) (s t : State), exec c s = .next t →
    t.seen = s.seen ∨
    (t.seen = t.dev ∧ ((∃ i, c = .tickBoundary i) ∨ c = .frameBoundary ∨ (∃ p, c = .powerUp p) ∨ (∃ p, c = .imageReload p)))

/-- A tick boundary moves device time by one tick in every power state, and the tick-of-second counts from 0 to 15,999
(R7, R10, R11). -/
def Obligations.TickBoundaryAdvancesTime : Prop :=
  ∀ (inp : TickInput) (s : State), gives (.tickBoundary inp) s (fun d =>
    d.clk.runTick = s.dev.clk.runTick + 1 ∧
    (s.dev.clk.tick < 15999 → d.clk.tick = s.dev.clk.tick + 1 ∧ d.clk.secs = s.dev.clk.secs) ∧
    (s.dev.clk.tick = 15999 → d.clk.tick = 0 ∧ d.clk.secs = (s.dev.clk.secs + 1) % 2 ^ 32))

/-- Held in reset or in HOLD a tick boundary changes the clock and the test access port alone. In NAP it also counts the frames
until the voltage check and samples the pads; in SLEEP it counts the frames, and a wake that is due takes effect where the tick
resumes (R161, R246, R250, R252, R277). Test access reaches nothing of the device, and five cycles with TMS high leave IDCODE
selected (R412; the controller is the model's reading, log 77). -/
def Obligations.TickOutsideRunChangesOnlyTime : Prop :=
  (∀ (inp : TickInput) (s : State),
    let idle := if s.dev.clk.advance.tick % 3200 = 0 then s.dev.pwr.idle + 1 else s.dev.pwr.idle
    (s.dev.pwr.mode = .hold →
      gives (.tickBoundary inp) s (fun d => d = { s.dev with clk := s.dev.clk.advance, tap := Tap.reset })) ∧
    (s.dev.pwr.mode = .reset →
      gives (.tickBoundary inp) s (fun d => d = { s.dev with clk := s.dev.clk.advance, tap := d.tap })) ∧
    (s.dev.pwr.mode = .nap → s.dev.pwr.waking = false →
      gives (.tickBoundary inp) s (fun d =>
        d = { s.dev with clk := s.dev.clk.advance, pwr := { s.dev.pwr with idle := idle },
                         tam := { s.dev.tam with pinRun := d.tam.pinRun },
                         dsp := { s.dev.dsp with scroll := d.dsp.scroll, scrollRun := d.dsp.scrollRun },
                         ports := d.ports, tap := d.tap } ∧
        ∀ p, s.dev.poModule p ≠ 3 → d.port p = s.dev.port p)) ∧
    (s.dev.pwr.mode = .sleep → (s.dev.pwr.waking = false ∨ s.dev.clk.advance.tick % 125 ≠ 0) →
      gives (.tickBoundary inp) s (fun d =>
        d = { s.dev with clk := s.dev.clk.advance, pwr := { s.dev.pwr with idle := idle }, tap := d.tap })) ∧
    (s.dev.pwr.mode = .sleep → s.dev.pwr.waking = true → s.dev.clk.advance.tick % 125 = 0 →
      gives (.tickBoundary inp) s (fun d => d.pwr.mode = .doze ∧ d.pwr.waking = false))) ∧
  (∀ (d : Dev) (tck : List (Bool × Bool)), d.testAccess tck = { d with tap := (d.testAccess tck).tap }) ∧
  (∀ (d : Dev) (tdi : List Bool), d.pwr.mode ≠ .hold → tdi.length = 5 →
    let t := (d.testAccess (tdi.map (fun b => (true, b)))).tap
    t.at_ = .testLogicReset ∧ t.instr = .idcode ∧ t.instr.captured d.boundary = bitsLow 32 0xB9192C9D)

/-- The device right after reset: memory all zero (R200), device time zero and not set (R392), the registers of R383 at
their reset values, every port enabled, the link down, nothing held. -/
def Obligations.ResetGivesTheStatedValues : Prop :=
  let d := State.reset.dev
  (∀ a n, memRead d.store.mram a n = List.replicate n 0#8) ∧
  d.clk.secs = 0 ∧ d.clk.tick = 0 ∧ d.clk.set = false ∧ d.clk.offset = 0 ∧
  d.reg 0x28 = 0x7F ∧ d.reg 0x2000 = 8000 ∧ d.reg 0x2004 = 0x4A ∧ d.reg 0x4000 = 5 ∧ d.reg 0x7004 = 6 ∧
  (∀ p, p < 32 → d.reg (0x30000 + 0x40 * p) = 0x10000) ∧
  d.link.up = false ∧ d.link.jobs = [] ∧ d.img.live = none ∧ d.pwr.mode = .reset

/-! ## The host link (15_host_link) -/

/-- The command byte carries OP in bits 1:0 (0 RD, 1 WR, 2 EXEC, 3 STAT), QUAD in bit 5, SESSION in bit 7 and the reserved
bits in 6 and 4:2; no request with a reserved bit set is admitted, and a session transaction only by its trailer (R370). -/
def Obligations.CommandByteLayout : Prop :=
  (∀ (d : Dev) (l : Link) (addr : Word) (data : List Byte) (len job off : Nat),
    (request d (.rd l addr len)).map (fun r => r.2.1) = some 0 ∧
    (request d (.registerWrite l addr data)).map (fun r => r.2.1) = some 1 ∧
    (request d (.commit l data)).map (fun r => r.2.1) = some 2 ∧
    (request d (.stat l job off len)).map (fun r => r.2.1) = some 3) ∧
  (∀ (l : Link) (d : Dev) (op addr len : Nat) (p : List Byte), l.session = true → d.vault.session = none →
    admitted d l op addr len p = none) ∧
  ∀ (l : Link) (op : Nat), op < 4 →
    linkCmd l op < 256 ∧ bitsOf (linkCmd l op) 1 0 = op ∧ bitOf (linkCmd l op) 5 = l.quad ∧
    bitOf (linkCmd l op) 7 = l.session ∧ bitsOf (linkCmd l op) 4 2 = l.rsv.toNat % 8 ∧
    bitOf (linkCmd l op) 6 = l.rsv.getLsbD 3 ∧
    (∀ (d : Dev) (addr len : Nat) (p : List Byte), l.rsv ≠ 0 → admitted d l op addr len p = none)

/-- Before the link is up, in reset and in HOLD no request is answered: whatever is sent over the link, the device stands and
no response exists (R394). -/
def Obligations.LinkSilentWhileDown : Prop :=
  ∀ (c : Instr) (s : State), (request s.dev c).isSome = true → s.dev.linkLive = false →
    leaves c s { s.dev with link := { s.dev.link with resp := none } }

/-- In NAP, SLEEP and from the power-fail latch every request answers ST_BUSY, and nothing else changes (R372, R253). -/
def Obligations.LinkBusyAsleepOrFailing : Prop :=
  ∀ (c : Instr) (s : State), (request s.dev c).isSome = true → s.dev.linkLive = true →
    (s.dev.pwr.mode = .nap ∨ s.dev.pwr.mode = .sleep ∨ s.dev.pwr.mode = .failing) →
    leaves c s { s.dev with link := { s.dev.link with resp := some { status := .busy, payload := [] } } }

/-- A request whose CRC is wrong answers ST_DENIED, CRC_ERRORS counts it, saturating at 65,535, and nothing else changes
(R372, R383). -/
def Obligations.WrongCrcIsDeniedAndCounted : Prop :=
  ∀ (c : Instr) (s : State) (l : Link) (op addr len : Nat) (p : List Byte),
    request s.dev c = some (l, op, addr, len, p) → s.dev.linkLive = true → s.dev.linkBusy = false →
    linkCrcOk l op addr (wireLen l op len) p = false →
    leaves c s { s.dev with link := { s.dev.link with
      resp := some { status := .denied, payload := [] }, crcErr := min (s.dev.link.crcErr + 1) 65535 } }

/-- A mailbox command in a session that is not open answers ST_DENIED and does nothing; with a wrong trailer it is denied
too, and the third such transaction of a session closes the session (R340, R341). -/
def Obligations.SessionTrailerIsChecked : Prop :=
  ∀ (c : Instr) (s : State) (l : Link) (op : Nat) (args : List Byte) (ok h n : Bool),
    mailbox c = some (l, op, args, ok, h, n) → s.dev.linkLive = true → s.dev.linkBusy = false →
    linkCrcOk l 2 0x30000000 (wireLen l 2 (execPayload op args).length) (execPayload op args) = true → l.rsv = 0 →
    l.session = true → wireLen l 2 (execPayload op args).length ≤ 4096 →
    (s.dev.vault.session = none → leaves c s (answered s.dev l .denied [])) ∧
    (∀ x, s.dev.vault.session = some x →
      trailerOk l x 2 0x30000000 (wireLen l 2 (execPayload op args).length) (execPayload op args) = false →
      (x.bad < 2 → leaves c s (answered { s.dev with vault := { s.dev.vault with session := some { x with bad := x.bad + 1 } } } l .denied [])) ∧
      (2 ≤ x.bad → gives c s (fun d => d.vault.session = none ∧
        d.link.resp = some { status := .denied, payload := [] })))

/-- An admitted mailbox command is checked in the order of R372: arguments of a wrong length answer ST_RANGE, a HOST command
outside a session with the HOST role LIVE answers ST_DENIED (R342), one that needs a live image answers ST_BUSY without one
(R428); none of them has any other effect. -/
def Obligations.MailboxChecksInOrder : Prop :=
  ∀ (c : Instr) (s : State) (l : Link) (op : Nat) (args : List Byte) (ok h n x : Bool) (e : Dev),
    mailbox c = some (l, op, args, ok, h, n) →
    admitted s.dev l 2 0x30000000 (execPayload op args).length (execPayload op args) = some (x, e) →
    (ok = false → leaves c s (answered e l .range [])) ∧
    (ok = true → h = true → e.slLive 5 = true → x = false → leaves c s (answered e l .denied [])) ∧
    (ok = true → (h = false ∨ e.slLive 5 = false ∨ x = true) → n = true → e.isLive = false →
      leaves c s (answered e l .busy []))

/-- An admitted job command (TIME_SET, CAL_LOAD, SIGN_READING, PROFILE_READ, EVENT_READ, IMAGE_WRITE, IMAGE_LOAD, SPLICE,
STORE_WRITE, DISCOVER, PARTNER_READ, MONITOR_TEST, KEY_INSTALL, KEY_RENEW, CRYPTO, AUTH_INSTALL, ATTEST, ROOT_REGENERATE,
DISPLAY_UPDATE) with fewer than 32 jobs held answers ST_DONE with a job number from 1 to 65,535 that no held job has, and the
job joins the table, accepted, with its arguments; with 32 held it answers ST_BUSY and starts nothing (R29, R379). -/
def Obligations.JobIsAcceptedWithFreeNumber : Prop :=
  ∀ (c : Instr) (s : State) (l : Link) (op : Nat) (args : List Byte) (h n x : Bool) (e : Dev),
    c ∈ jobCommands l args → mailbox c = some (l, op, args, true, h, n) → admitCmd s.dev l op args h n = some (x, e) →
    (32 ≤ e.link.jobs.length → leaves c s (answered e l .busy [])) ∧
    (e.link.jobs.length < 32 → ∃ num : Nat, 1 ≤ num ∧ num ≤ 65535 ∧ (∀ j ∈ e.link.jobs, j.num ≠ num) ∧
      leaves c s (answered { e with link := { e.link with
        jobs := e.link.jobs ++ [{ num := num, op := op, args := args, role := e.roleOf x, phase := .accepted, stage := 0,
                                  needs := [], ready := 0, fin := none, status := .busy, word := 0, result := [], cap := [] }],
        lastJob := num } } l .done (leBytes 2 num)))

/-- An admitted, aligned RD of register or view space inside one span answers ST_DONE with the words in force at the start of
the tick, and changes nothing but the response and the link's own report (R374, R375); an RD of a window answers what the
store's read gives. -/
def Obligations.ReadAnswersWordsOfTheTick : Prop :=
  ∀ (s : State) (l : Link) (addr : Word) (len : Nat) (x : Bool) (e : Dev),
    admitted s.dev l 0 addr.toNat len [] = some (x, e) → spanInMap addr.toNat len = true → rdShape addr.toNat len = true →
    (wordSpace addr.toNat = true →
      leaves (.rd l addr len) s (e.respond (linkCmd l 0) .done (s.seen.viewBytes addr.toNat len))) ∧
    (0x01000000 ≤ addr.toNat → addr.toNat < 0x01800000 →
      leaves (.rd l addr len) s (let r := e.rdSram (addr.toNat - 0x01000000) len; r.2.2.respond (linkCmd l 0) r.1 r.2.1)) ∧
    (0x10000000 ≤ addr.toNat → addr.toNat < 0x14000000 →
      leaves (.rd l addr len) s (let r := e.rdMram (addr.toNat - 0x10000000) len; r.2.2.respond (linkCmd l 0) r.1 r.2.1))

/-- A read that meets torn and bad tiles answers ST_TILE_BAD, and all requested bytes are returned in every case (R387). -/
def Obligations.BadTileOutranksTorn : Prop :=
  (∀ a b : TileRes, (a.worse b).status = .tileBad ↔ a = .bad ∨ b = .bad) ∧
  (∀ a b : TileRes, (a.worse b).status = .done ↔ a = .good ∧ b = .good) ∧
  (∀ (d : Dev) (a n : Nat), d.mramRefusal a n 3 = none → (d.rdMram a n).2.1.length = n) ∧
  (∀ (d : Dev) (a n : Nat), d.sramRefusal a n 3 = none → (d.rdSram a n).2.1.length = n)

/-- An admitted STAT answers the status of a finished job with its header and result, and the job leaves the table when its
result is read to the end; a running job answers ST_BUSY and stays; no such job answers ST_RANGE (R29, R380). A rise of HCS_N
before the last request CRC bit discards the request; after it the transaction stands and its response is lost (R373). -/
def Obligations.StatReportsTheJob : Prop :=
  (∀ s : State, leaves (.hcsNRise true) s s.dev ∧
    leaves (.hcsNRise false) s { s.dev with link := { s.dev.link with resp := none } }) ∧
  ∀ (s : State) (l : Link) (job off len : Nat) (x : Bool) (e : Dev),
    admitted s.dev l 3 (65536 * off + job) len [] = some (x, e) → off % 4 = 0 → len ≤ 4080 →
    (e.findJob job = none → leaves (.stat l job off len) s (e.respond (linkCmd l 3) .range [])) ∧
    (∀ j, e.findJob job = some j →
      (j.phase ≠ .finished → leaves (.stat l job off len) s (e.respond (linkCmd l 3) .busy (statPayload j off len))) ∧
      (j.phase = .finished → off + len < j.result.length →
        leaves (.stat l job off len) s (e.respond (linkCmd l 3) j.status (statPayload j off len))) ∧
      (j.phase = .finished → j.result.length ≤ off + len →
        leaves (.stat l job off len) s
          ({ e with link := { e.link with jobs := e.link.jobs.filter (fun y => y.num != job) } }.respond (linkCmd l 3) j.status
            (statPayload j off len))))

/-- An admitted write of one register word that no rule refuses answers ST_DONE: the single-word commands of ELM_PHASE,
ISLE_DEMAND, ISLE_ALARM, ISLE_STICKY, HL_CAUSE, DRAW_BUDGET, POWER_CTL, SAVE_MIN, DSP_CTL, DSP_BAND, PORT_BAUD, PORT_POLL and
PORT_ENABLE. A plain word waits for the tick boundary, a W1C word (ISLE_STICKY in view space among them) waits there as a
clear, an SH or LK word joins the shadow set in its register's place; nothing else changes (R23, R24, R91, R376, R377). -/
def Obligations.WordWriteIsLatchedOrShadowed : Prop :=
  (∀ (s : State) (l : Link) (n : Nat) (v : Word) (x : Bool) (e : Dev), n < 128 →
    admitted s.dev l 1 (stickyAddr n) 4 (leBytes 4 v.toNat) = some (x, e) →
    leaves (.isleStickyClear l n v) s
      ({ e with link := { e.link with plain := e.link.plain ++ [PlainWrite.clear (stickyAddr n) v] } }.respond (linkCmd l 1) .done [])) ∧
  ∀ (c : Instr) (s : State) (l : Link) (a : Nat) (v : Word) (x : Bool) (e : Dev),
    wordWrite c = some (l, a, v) → a < 0x40000 → admitted s.dev l 1 a 4 (leBytes 4 v.toNat) = some (x, e) →
    e.wordRefusal x a v.toNat = none →
    ((regAcc a).1 = .rw → e.regIgnored a = false →
      leaves c s ({ e with link := { e.link with plain := e.link.plain ++ [PlainWrite.word a v] } }.respond (linkCmd l 1) .done [])) ∧
    ((regAcc a).1 = .rw → e.regIgnored a = true → leaves c s (e.respond (linkCmd l 1) .done [])) ∧
    ((regAcc a).1 = .w1c →
      leaves c s ({ e with link := { e.link with plain := e.link.plain ++ [PlainWrite.clear a v] } }.respond (linkCmd l 1) .done [])) ∧
    ((regAcc a).1 = .sh ∨ (regAcc a).1 = .lk →
      gives c s (fun d => d.regs = s.dev.regs ∧ tabFind a d.link.shadow = some (v &&& wordOf (regAcc a).2) ∧
        (∀ b, b ≠ a → tabFind b d.link.shadow = tabFind b e.link.shadow) ∧
        d = ({ e with link := { e.link with shadow := d.link.shadow } }).respond (linkCmd l 1) .done []))

/-- A write of a register word that a rule refuses answers that rule's status and changes nothing else: ST_SEALED for an LK
word with the seal closed or a FREEZE in force, ST_DENIED for one outside a METROLOGY session (R162, R376, R377). -/
def Obligations.RefusedWordWriteChangesNothing : Prop :=
  ∀ (c : Instr) (s : State) (l : Link) (a : Nat) (v : Word) (x : Bool) (e : Dev) (st : Status),
    wordWrite c = some (l, a, v) → a < 0x40000 → admitted s.dev l 1 a 4 (leBytes 4 v.toNat) = some (x, e) →
    ((regAcc a).1 = .lk → e.sealOpen = false ∨ e.tam.freeze = true → leaves c s (e.respond (linkCmd l 1) .sealed [])) ∧
    ((regAcc a).1 = .lk → e.sealOpen = true → e.tam.freeze = false → e.roleOf x ≠ 1 →
      leaves c s (e.respond (linkCmd l 1) .denied [])) ∧
    (e.wordRefusal x a v.toNat = some st → leaves c s (e.respond (linkCmd l 1) st []))

/-- A write to POWER_CTL with DEAD_PCT outside 5 to 50 answers ST_RANGE and the register is unchanged (R384). -/
def Obligations.DeadPctRangeIsEnforced : Prop :=
  ∀ (s : State) (l : Link) (v : Word) (x : Bool) (e : Dev),
    admitted s.dev l 1 0x2004 4 (leBytes 4 v.toNat) = some (x, e) →
    (bitsOf v.toNat 5 0 < 5 ∨ 50 < bitsOf v.toNat 5 0) →
    leaves (.powerCtlWrite l v) s (e.respond (linkCmd l 1) .range []) ∧ e.wordRefusal x 0x2004 v.toNat = some .range ∧
    (∀ d', exec (.powerCtlWrite l v) s = .next d' → d'.dev.regs = s.dev.regs ∧ d'.dev.link.plain = s.dev.link.plain)

/-- A WR of several register words is all or nothing: when any word is refused, the status is the first refused word's in
ascending address and no word is written; otherwise every word is accepted (R377). -/
def Obligations.RegisterWriteIsAllOrNothing : Prop :=
  ∀ (c : Instr) (s : State) (l : Link) (addr : Word) (data : List Byte) (x : Bool) (e : Dev),
    (c = .registerWrite l addr data ∨ c = .shWrite l addr data ∨ c = .lkWrite l addr data) →
    addr.toNat < 0x40000 → addr.toNat % 4 = 0 → data.length % 4 = 0 →
    spanInMap addr.toNat data.length = true → admitted s.dev l 1 addr.toNat data.length data = some (x, e) →
    let words := (List.range (wordsOf data).length).zip (wordsOf data) |>.map (fun y => (addr.toNat + 4 * y.1, y.2))
    ((∀ y ∈ words, e.wordRefusal x y.1 y.2 = none) →
      leaves c s ((words.foldl (fun d y => d.acceptWord y.1 y.2) e).respond (linkCmd l 1) .done [])) ∧
    (∀ (pre post : List (Nat × Nat)) (y : Nat × Nat) (st : Status), words = pre ++ y :: post →
      (∀ z ∈ pre, e.wordRefusal x z.1 z.2 = none) → e.wordRefusal x y.1 y.2 = some st →
      leaves c s (e.respond (linkCmd l 1) st []))

/-! ## Mailbox commands that act at once -/

/-- COMMIT moves the shadow set into the frozen set, a later value of a register winning; ABANDON empties the shadow set;
ABORT is latched for the tick boundary and its response waits for it (R24, R30). Nothing else changes. -/
def Obligations.CommitAbandonAbort : Prop :=
  (∀ (s : State) (l : Link) (x : Bool) (e : Dev), admitCmd s.dev l 0x01 [] false true = some (x, e) →
    ∃ f, leaves (.commit l []) s (answered { e with link := { e.link with frozen := some f, shadow := [] } } l .done []) ∧
      (∀ a v, (a, v) ∈ e.link.shadow → (∀ w, (a, w) ∈ e.link.shadow → w = v) → tabFind a f = some v) ∧
      (∀ a, (∀ v, (a, v) ∉ e.link.shadow) → tabFind a f = tabFind a (e.link.frozen.getD []))) ∧
  (∀ (s : State) (l : Link) (x : Bool) (e : Dev), admitCmd s.dev l 0x02 [] false true = some (x, e) →
    leaves (.abandon l []) s (answered { e with link := { e.link with shadow := [] } } l .done [])) ∧
  (∀ (s : State) (l : Link) (a b : Byte) (x : Bool) (e : Dev), admitCmd s.dev l 0x03 [a, b] false false = some (x, e) →
    gives (.abort l [a, b]) s (fun d =>
      d.link.aborts = e.link.aborts ++ [a.toNat + 256 * b.toNat] ∧ d.link.resp = none ∧
      d = { e with link := d.link } ∧ d.link.jobs = e.link.jobs))

/-- SAVE_NOW asks for a save at the next frame boundary, WAKE_AT adds a host wake while fewer than 16 are held and is busy
with 16, WAKE_CLEAR removes them all, CLOSE_NOW joins the named isles to the set closed at the next frame boundary, and
OFFSET_SET holds the new current offset and the schedule (R148, R152, R226, R249). -/
def Obligations.TimeCommandsTakeEffect : Prop :=
  (∀ (s : State) (l : Link) (x : Bool) (e : Dev), admitCmd s.dev l 0x04 [] false true = some (x, e) →
    leaves (.saveNow l []) s (answered { e with store := { e.store with saveAsk := true } } l .done [])) ∧
  (∀ (s : State) (l : Link) (a : List Byte) (x : Bool) (e : Dev), a.length = 4 → admitCmd s.dev l 0x12 a false true = some (x, e) →
    (e.pwr.wakes.length < 16 →
      leaves (.wakeAt l a) s (answered { e with pwr := { e.pwr with wakes := e.pwr.wakes ++ [u32 a 0] } } l .done [])) ∧
    (16 ≤ e.pwr.wakes.length → leaves (.wakeAt l a) s (answered e l .busy []))) ∧
  (∀ (s : State) (l : Link) (x : Bool) (e : Dev), admitCmd s.dev l 0x13 [] false true = some (x, e) →
    leaves (.wakeClear l []) s (answered { e with pwr := { e.pwr with wakes := [] } } l .done [])) ∧
  (∀ (s : State) (l : Link) (a : List Byte) (x : Bool) (e : Dev), a.length = 16 → admitCmd s.dev l 0x1B a true true = some (x, e) →
    gives (.closeNow l a) s (fun d =>
      d = answered { e with link := { e.link with closeNow := e.link.closeNow ||| leVal a } } l .done [] ∧
      ∀ n, d.link.closeNow.testBit n = (e.link.closeNow.testBit n || (leVal a).testBit n))) ∧
  (∀ (s : State) (l : Link) (a : List Byte) (x : Bool) (e : Dev), 3 ≤ a.length → a.length = 3 + 6 * u8 a 2 →
    admitCmd s.dev l 0x11 a true true = some (x, e) →
    let cur := sext 16 (u16 a 0)
    let ch := (List.range (u8 a 2)).map (fun i => (u32 a (3 + 6 * i), sext 16 (u16 a (7 + 6 * i))))
    let ok (o : Int) : Prop := -720 ≤ o ∧ o ≤ 840 ∧ o % 15 = 0
    (u8 a 2 ≤ 4 → ok cur → (∀ y ∈ ch, ok y.2) → ascending (e.clk.secs :: ch.map (fun y => y.1)) = true →
      gives (.offsetSet l a) s (fun d => d.clk = { e.clk with newOff := some cur, sched := ch } ∧
        d.link.resp = some { status := .done, payload := [] })) ∧
    (4 < u8 a 2 ∨ ¬ ok cur → leaves (.offsetSet l a) s (answered e l .range [])))

/-- CAL_CANCEL empties the passive calendar of a plan and writes that to its record alone, CAL_READ answers a plan's active or passive block, empty for an empty
calendar, and a plan above 3 is out of range (R132). -/
def Obligations.CalendarCommandsTakeEffect : Prop :=
  (∀ (s : State) (l : Link) (p : Byte) (x : Bool) (e : Dev), admitCmd s.dev l 0x19 [p] true true = some (x, e) →
    (p.toNat ≤ 3 → leaves (.calCancel l [p]) s (answered (e.holdPassive p.toNat false) l .done []) ∧
      (e.holdPassive p.toNat false).store.sram = e.store.sram ∧
      ∀ a, a / 1024 ≠ (e.copyTiles 6 2).1 → a / 1024 ≠ (e.copyTiles 6 2).2 →
        memGet (e.holdPassive p.toNat false).store.mram a = memGet e.store.mram a) ∧
    (3 < p.toNat → leaves (.calCancel l [p]) s (answered e l .range []))) ∧
  (∀ (s : State) (l : Link) (p w : Byte) (x : Bool) (e : Dev), admitCmd s.dev l 0x1A [p, w] false true = some (x, e) →
    (p.toNat ≤ 3 → w.toNat ≤ 1 →
      leaves (.calRead l [p, w]) s (answered e l .done ((e.calendar p.toNat (decide (w.toNat = 1))).getD []))) ∧
    (3 < p.toNat ∨ 1 < w.toNat → leaves (.calRead l [p, w]) s (answered e l .range [])))

/-- CAPTURE on a strait with capture enabled asks for a slot and is answered done while its own capture fills or a FREE slot is
left, busy otherwise, and out of range on another strait. The tick then serves it: the lowest FREE slot is taken, or the
strait's own capture counts it while it fills, or no slot changes. CAPTURE_RELEASE frees a slot that is not filling; a slot is
COMPLETE once its post-trigger span is stored (R103, R104). The slots that waiting triggers will take count as taken: the
model's choice (log 69). -/
def Obligations.CaptureSlotsAreTakenAndFreed : Prop :=
  (∀ (s : State) (l : Link) (k : Byte) (x : Bool) (e : Dev), admitCmd s.dev l 0x24 [k] false true = some (x, e) →
    (k.toNat < 16 → e.strOn k.toNat = true → e.stCapture k.toNat = true →
      (e.slotLeft k.toNat = true →
        leaves (.capture l [k]) s (answered { e with capReq := e.capReq ++ [(k.toNat, 8, e.timeTicks)] } l .done [])) ∧
      (e.slotLeft k.toNat = false → leaves (.capture l [k]) s (answered e l .busy [])) ∧
      (e.capReq = [] →
        (e.slotLeft k.toNat = true ↔ (e.capFilling k.toNat).isSome = true ∨ ∃ c, c < 4 ∧ (e.cap c).state = 0))) ∧
    (16 ≤ k.toNat ∨ e.strOn k.toNat = false ∨ e.stCapture k.toNat = false →
      leaves (.capture l [k]) s (answered e l .range []))) ∧
  (∀ (d : Dev) (k trig time : Nat), d.stCapture k = true →
    let t := d.serveTrigger (k, trig, time)
    (∀ c, d.capFilling k = some c → t = d.setCap c { d.cap c with retrig := satU 16 ((d.cap c).retrig + 1) }) ∧
    (d.capFilling k = none → ∀ c, (List.range 4).find? (fun c => (d.cap c).state == 0) = some c →
      (t.cap c).state = 1 ∧ (t.cap c).strait = k ∧ (t.cap c).trig = trig ∧ t.capSeq = (d.capSeq + 1) % 2 ^ 32 ∧
      (∀ b, b ≠ c → t.cap b = d.cap b)) ∧
    (d.capFilling k = none → (∀ c, c < 4 → (d.cap c).state ≠ 0) → t.caps = d.caps ∧ t.capSeq = d.capSeq)) ∧
  (∀ (s : State) (l : Link) (c : Byte) (x : Bool) (e : Dev), admitCmd s.dev l 0x25 [c] false true = some (x, e) →
    (c.toNat < 4 → (e.cap c.toNat).state ≠ 1 →
      leaves (.captureRelease l [c]) s (answered (e.setCap c.toNat .free) l .done [])) ∧
    (c.toNat < 4 → (e.cap c.toNat).state = 1 → leaves (.captureRelease l [c]) s (answered e l .busy [])) ∧
    (4 ≤ c.toNat → leaves (.captureRelease l [c]) s (answered e l .range []))) ∧
  (∀ (s : State) (c : Nat), c < 4 → (s.dev.cap c).state = 1 → (s.dev.cap c).want ≤ (s.dev.cap c).total →
    gives (.captureComplete c) s (fun d => d = s.dev.setCap c { s.dev.cap c with state := 2 } ∧ (d.cap c).state = 2))

/-- NOTIFY_READ answers the oldest released entries, at most 32, and removes exactly those (R305). -/
def Obligations.NotifyReadTakesTheOldest : Prop :=
  ∀ (s : State) (l : Link) (x : Bool) (e : Dev), admitCmd s.dev l 0x23 [] false false = some (x, e) →
    gives (.notifyRead l []) s (fun d =>
      d.evt.released = e.evt.released.drop 32 ∧
      d.link.resp = some { status := .done, payload := (e.evt.released.take 32).flatMap Notice.bytes } ∧
      d.store.mram = e.store.mram ∧ d.clk = e.clk)

/-- PARTNER_ADD takes a free entry and enrols it; ENROL, RETIRE, BIND and SET change the entry as named, and a BIND of another
partner rebases the isle; DELETE frees a CANDIDATE or RETIRED entry that nothing names (R112, R283, R284). -/
def Obligations.PartnerCommandsTakeEffect : Prop :=
  (∀ (s : State) (l : Link) (a : List Byte) (x : Bool) (e : Dev) (i : Nat), a.length = 15 →
    admitCmd s.dev l 0x41 a true true = some (x, e) →
    let p := u8 a 0
    let b := sliceB a 1 9
    p < 32 → e.portBus p = true → u8 a 10 ≤ 4 → (u8 a 10 = 4 → e.portMaster p = true) → e.addrOk p b = true →
    (u32 a 11 = 0 ∨ (10 ≤ u32 a 11 ∧ u32 a 11 ≤ 86400)) →
    e.atAddress p (u8 b 0 == 1) (u8 b 1) (u32 b 1) (u16 b 5) (u8 b 7) (u8 b 8) = none → e.freePartner p = some i →
    gives (.partnerAdd l a) s (fun d => (d.partner i).state = .enrolled ∧ (d.partner i).port = p ∧
      (d.partner i).kind = u8 a 10 ∧ (d.partner i).period = u32 a 11 ∧ (d.partner i).due = e.clk.secs + 1 ∧
      (∀ k, k ≠ i → d.partner k = e.partner k) ∧ d.link.resp = some { status := .done, payload := leBytes 2 i })) ∧
  (∀ (s : State) (l : Link) (a b : Byte) (x : Bool) (e : Dev), admitCmd s.dev l 0x42 [a, b] true true = some (x, e) →
    let i := a.toNat + 256 * b.toNat
    let y := e.partner i
    i < 4096 → (y.state = .candidate ∨ y.state = .retired) →
    e.atAddress y.port y.second y.primary y.ident y.man y.ver y.medium = none →
    gives (.partnerEnrol l [a, b]) s (fun d => (d.partner i).state = .enrolled ∧ (d.partner i).missed = 0 ∧
      (d.partner i).due = e.clk.secs + 1 ∧ (∀ k, k ≠ i → d.partner k = e.partner k) ∧
      d.link.resp = some { status := .done, payload := [] })) ∧
  (∀ (s : State) (l : Link) (a b : Byte) (x : Bool) (e : Dev), admitCmd s.dev l 0x43 [a, b] true true = some (x, e) →
    let i := a.toNat + 256 * b.toNat
    i < 4096 → (e.partner i).state ≠ .free →
    gives (.partnerRetire l [a, b]) s (fun d => (d.partner i).state = .retired ∧ (d.partner i).isle = 0xFF ∧
      (∀ k, k ≠ i → d.partner k = e.partner k) ∧ d.link.resp = some { status := .done, payload := [] })) ∧
  (∀ (s : State) (l : Link) (a b : Byte) (x : Bool) (e : Dev), admitCmd s.dev l 0x44 [a, b] true true = some (x, e) →
    let i := a.toNat + 256 * b.toNat
    i < 4096 → ((e.partner i).state = .candidate ∨ (e.partner i).state = .retired) →
    (e.partnerNamed i = true → leaves (.partnerDelete l [a, b]) s (answered e l .denied [])) ∧
    (e.partnerNamed i = false → gives (.partnerDelete l [a, b]) s (fun d =>
      d.partners = tabPut Partner.free i Partner.free (e.ptState i .free).partners ∧
      (∀ k, k ≠ i → d.partner k = e.partner k) ∧ d.link.resp = some { status := .done, payload := [] }))) ∧
  (∀ (s : State) (l : Link) (a b n : Byte) (x : Bool) (e : Dev), admitCmd s.dev l 0x45 [a, b, n] true true = some (x, e) →
    let i := a.toNat + 256 * b.toNat
    i < 4096 → (e.partner i).state ≠ .free →
    (n.toNat = 0xFF → gives (.partnerBind l [a, b, n]) s (fun d => (d.partner i).isle = 0xFF ∧
      (∀ k, k ≠ i → d.partner k = e.partner k) ∧ d.link.resp = some { status := .done, payload := [] })) ∧
    (n.toNat < 128 → ((e.partner i).isle = 0xFF ∨ (e.partner i).isle = n.toNat) → e.ilVolSrc n.toNat = 2 →
      (e.ilType n.toNat = 5 ∨ e.ilType n.toNat = 6) →
      gives (.partnerBind l [a, b, n]) s (fun d => (d.partner i).isle = n.toNat ∧
        (d.isle n.toNat).util.bound = some i ∧
        ((e.isle n.toNat).util.bound ≠ some i → (d.isle n.toNat).util.rebase = true) ∧
        d.link.resp = some { status := .done, payload := [] }))) ∧
  (∀ (s : State) (l : Link) (a : List Byte) (x : Bool) (e : Dev), a.length = 7 → admitCmd s.dev l 0x46 a true true = some (x, e) →
    let i := u16 a 0
    i < 4096 → (e.partner i).state ≠ .free → (u32 a 2 = 0 ∨ (10 ≤ u32 a 2 ∧ u32 a 2 ≤ 86400)) → u8 a 6 ≤ 4 →
    (u8 a 6 = 4 → e.portMaster (e.partner i).port = true) →
    gives (.partnerSet l a) s (fun d => d.partner i = { e.partner i with period := u32 a 2, kind := u8 a 6 } ∧
      (∀ k, k ≠ i → d.partner k = e.partner k) ∧ d.link.resp = some { status := .done, payload := [] }))

/-- RELAY_HOLD and RELAY_RELEASE are latched for the tick boundary; the release of a tamper hold needs the OWNER session and
is denied while a source that holds the relay is RAISED. There the hold is placed, so the relay is open, and a release
leaves no hold of its kind on the target and every hold elsewhere (R143, R280, R314, R379). -/
def Obligations.RelayHoldsOpenAndRelease : Prop :=
  (∀ (s : State) (l : Link) (a b k : Byte) (x : Bool) (e : Dev), admitCmd s.dev l 0x48 [a, b, k] true true = some (x, e) →
    let t := a.toNat + 256 * b.toNat
    k.toNat ≤ 1 → e.targetExists t = true →
    leaves (.relayHold l [a, b, k]) s
      (answered { e with link := { e.link with relays := e.link.relays ++ [(t, k.toNat, false)] } } l .done [])) ∧
  (∀ (s : State) (l : Link) (a b k : Byte) (x : Bool) (e : Dev),
    admitCmd s.dev l 0x49 [a, b, k] (decide (k.toNat < 2)) true = some (x, e) →
    let t := a.toNat + 256 * b.toNat
    e.targetExists t = true →
    (k.toNat ≤ 2 → (k.toNat = 2 → e.roleOf x = 0 ∧
        e.bak.holds.any (fun h => h.target == t && h.kind == 2 && (e.ledger h.source).raised) = false) →
      leaves (.relayRelease l [a, b, k]) s
        (answered { e with link := { e.link with relays := e.link.relays ++ [(t, k.toNat, true)] } } l .done [])) ∧
    (k.toNat = 2 → (e.roleOf x ≠ 0 ∨ ∃ h ∈ e.bak.holds, h.target = t ∧ h.kind = 2 ∧ (e.ledger h.source).raised = true) →
      leaves (.relayRelease l [a, b, k]) s (answered e l .denied []))) ∧
  (∀ (d : Dev) (t k : Nat), d.targetExists t = true →
    (k ≤ 1 → (d.relayNow (t, k, false)).relayOpen t = true ∧
      ({ target := t, kind := k, source := 128 } : Hold) ∈ (d.relayNow (t, k, false)).bak.holds ∧
      (∀ h ∈ d.bak.holds, h ∈ (d.relayNow (t, k, false)).bak.holds)) ∧
    (k ≤ 2 → ∀ h, h ∈ (d.relayNow (t, k, true)).bak.holds ↔ h ∈ d.bak.holds ∧ ¬ (h.target = t ∧ h.kind = k)))

/-- TAMPER_ACK of a source that is not RAISED and FREEZE_RELEASE in a METROLOGY session with no FREEZE source RAISED are
latched for the boundary; while RAISED, or outside that session, they are denied and change nothing (R314). -/
def Obligations.TamperReleasesAreLatched : Prop :=
  (∀ (s : State) (l : Link) (a b : Byte) (x : Bool) (e : Dev) (k : Nat), admitCmd s.dev l 0x51 [a, b] false true = some (x, e) →
    argKey a.toNat b.toNat = some k →
    ((e.ledger k).raised = false →
      leaves (.tamperAck l [a, b]) s (answered { e with link := { e.link with acks := e.link.acks ++ [k] } } l .done [])) ∧
    ((e.ledger k).raised = true → leaves (.tamperAck l [a, b]) s (answered e l .denied []))) ∧
  (∀ (s : State) (l : Link) (x : Bool) (e : Dev), admitCmd s.dev l 0x52 [] false true = some (x, e) →
    (e.roleOf x = 1 → e.anyRaisedWith 6 = false →
      leaves (.freezeRelease l []) s (answered { e with link := { e.link with unfreeze := true } } l .done [])) ∧
    (e.roleOf x ≠ 1 ∨ e.anyRaisedWith 6 = true → leaves (.freezeRelease l []) s (answered e l .denied [])))

/-- SESSION_OPEN answers a fresh 16-byte device nonce and remembers the opening, and a role whose slot does not exist is out of
range; SESSION_AUTH with the right proof within 10 s opens the session of that role with its counter at 0 at the next
boundary, a wrong proof locks the role for 10 s and opens nothing; SESSION_CLOSE ends the open session there (R322, R339,
R341, R379). -/
def Obligations.SessionsOpenByProof : Prop :=
  (∀ (s : State) (l : Link) (a : List Byte) (x : Bool) (e : Dev), a.length = 17 → admitCmd s.dev l 0x60 a false false = some (x, e) →
    u8 a 0 ≤ 2 → e.vault.session = none → e.vault.joining = none → e.vault.lock.getD (u8 a 0) 0 ≤ e.clk.runTick →
    (e.slotExists (roleSlot (u8 a 0)) = false → leaves (.sessionOpen l a) s (answered e l .range [])) ∧
    (e.slotExists (roleSlot (u8 a 0)) = true → e.slotBusy (roleSlot (u8 a 0)) = none → e.vault.trngOk = true →
    ∃ nd : List Byte, nd.length = 16 ∧
      leaves (.sessionOpen l a) s (answered { e with vault := { e.vault with
        draw := e.vault.draw + 16, opening := some (u8 a 0, a.drop 1, nd, e.clk.runTick) } } l .done nd))) ∧
  (∀ (s : State) (l : Link) (a : List Byte) (x : Bool) (e : Dev) (role t : Nat) (nh nd : List Byte), a.length = 16 →
    admitCmd s.dev l 0x61 a false false = some (x, e) → e.vault.opening = some (role, nh, nd, t) →
    e.clk.runTick < t + 160000 → e.slotExists (roleSlot role) = true → e.slotBusy (roleSlot role) = none →
    let key := (e.slotKey (roleSlot role)).getD []
    (a = sessionProof key nh nd role →
      gives (.sessionAuth l a) s (fun d =>
        d.vault.joining = some { role := role, key := sessionKey key nh nd, ctr := 0, lastT := e.clk.runTick, bad := 0 } ∧
        d.vault.session = e.vault.session ∧ d.vault.opening = none ∧
        d.link.resp = some { status := .done, payload := sessionAnswer (sessionKey key nh nd) nh nd })) ∧
    (a ≠ sessionProof key nh nd role →
      gives (.sessionAuth l a) s (fun d => d.vault.session = e.vault.session ∧ d.vault.joining = e.vault.joining ∧ d.vault.opening = none ∧
        d.vault.lock = e.vault.lock.set role (e.clk.runTick + 160000) ∧
        d.link.resp = some { status := .denied, payload := [] }))) ∧
  (∀ (s : State) (l : Link) (x : Bool) (e : Dev), admitCmd s.dev l 0x62 [] false false = some (x, e) →
    e.vault.session.isSome = true →
    leaves (.sessionClose l []) s (answered { e with vault := { e.vault with leaving := true } } l .done [])) ∧
  (∀ d : Dev,
    (∀ x, d.vault.joining = some x → d.vault.leaving = false →
      d.runSessions.vault.session = some x ∧ d.runSessions.vault.joining = none) ∧
    (d.vault.leaving = true → d.runSessions.vault.session = none ∧ d.runSessions.vault.leaving = false) ∧
    (d.vault.joining = none → d.vault.leaving = false → d.runSessions = d))

/-- A session ends 600 s after its last accepted transaction, an opening lapses after 10 s, and 10 s after a wrong proof the
role may open again; before its time each of these events changes nothing (R339, R341). -/
def Obligations.SessionsLapseInTime : Prop :=
  (∀ (s : State) (x : Session), s.dev.vault.session = some x →
    (x.lastT + 9600000 ≤ s.dev.clk.runTick → gives .sessionIdle s (fun d => d.vault.session = none ∧ d.clk = s.dev.clk)) ∧
    (s.dev.clk.runTick < x.lastT + 9600000 → leaves .sessionIdle s s.dev)) ∧
  (∀ (s : State) (r t : Nat) (nh nd : List Byte), s.dev.vault.opening = some (r, nh, nd, t) →
    (t + 160000 ≤ s.dev.clk.runTick →
      leaves .sessionAuthTimeout s { s.dev with vault := { s.dev.vault with opening := none } }) ∧
    (s.dev.clk.runTick < t + 160000 → leaves .sessionAuthTimeout s s.dev)) ∧
  (∀ (s : State) (r : Nat), r < 3 →
    (s.dev.vault.lock.getD r 0 ≤ s.dev.clk.runTick →
      leaves (.sessionFailLockoutEnd r) s { s.dev with vault := { s.dev.vault with lock := s.dev.vault.lock.set r 0 } }) ∧
    (s.dev.clk.runTick < s.dev.vault.lock.getD r 0 → leaves (.sessionFailLockoutEnd r) s s.dev))

/-- KEY_PUBLIC answers the public key of a LIVE P-256 slot while the root stands; KEY_INVALIDATE that the slot's rules permit
is latched for the boundary; DEBUG_UNLOCK latches power fail like a pin reset when DBG_EN was high at the last reset, and is
denied otherwise (R335, R337, R343). -/
def Obligations.KeyCommandsTakeEffect : Prop :=
  (∀ (s : State) (l : Link) (k : Byte) (x : Bool) (e : Dev), admitCmd s.dev l 0x63 [k] false false = some (x, e) →
    (e.slotExists k.toNat = true → e.slP256 k.toNat = true → e.vault.rootOk = true → e.slLive k.toNat = true →
      leaves (.keyPublic l [k]) s (answered e l .done (Config.ecPublic (e.slotScalar k.toNat)))) ∧
    (e.slotExists k.toNat = false ∨ e.slP256 k.toNat = false → leaves (.keyPublic l [k]) s (answered e l .range []))) ∧
  (∀ (s : State) (l : Link) (k : Byte) (x : Bool) (e : Dev), admitCmd s.dev l 0x66 [k] false false = some (x, e) →
    (e.slotChange k.toNat (e.roleOf x) (decide (k.toNat ≤ 2)) = none → e.vault.rootOk = true →
      leaves (.keyInvalidate l [k]) s (answered { e with vault := { e.vault with inval := e.vault.inval ++ [(k.toNat, 4, 0)] } } l .done [])) ∧
    (∀ st, e.slotChange k.toNat (e.roleOf x) (decide (k.toNat ≤ 2)) = some st →
      leaves (.keyInvalidate l [k]) s (answered e l st []))) ∧
  (∀ (s : State) (l : Link) (x : Bool) (e : Dev), admitCmd s.dev l 0x6B [] false false = some (x, e) →
    (e.vault.dbgEn = true → gives (.debugUnlock l []) s (fun d => d.pwr.mode = .failing ∧ d.pwr.next = 6 ∧
      d.pwr.dbgAsk = true ∧ d.bak.latched = true ∧ d.bak.skipped = false)) ∧
    (e.vault.dbgEn = false → leaves (.debugUnlock l []) s (answered e l .denied [])))

/-! ## Memory -/

/-- An admitted page write to a region with HOST_WRITE answers ST_DONE and writes the page; a write of the SRAM window or of
the display's target memory waits for the tick boundary, and rows 0 to 95 of the target memory are sealed (R203, R205, R207,
R352). -/
def Obligations.WindowWritesReachTheStore : Prop :=
  (∀ (s : State) (l : Link) (addr : Nat) (data : List Byte) (x : Bool) (e : Dev) (c f : Nat),
    admitted s.dev l 1 (0x10000000 + addr) data.length data = some (x, e) → addr % 8 = 0 → data.length % 8 = 0 → 8 ≤ data.length →
    data.length ≤ 256 → addr < 0x4000000 → e.regionAt false addr = some (c, f) → (c = 18 → data.length ≤ 32) →
    (bitOf f 4 = true → leaves (.mramWindowWrite l addr data) s ((e.pageWrite addr data).respond (linkCmd l 1) .done [])) ∧
    (bitOf f 4 = false → leaves (.mramWindowWrite l addr data) s (e.respond (linkCmd l 1) .denied []))) ∧
  (∀ (s : State) (l : Link) (addr : Nat) (data : List Byte) (x : Bool) (e : Dev),
    admitted s.dev l 1 (0x01000000 + addr) data.length data = some (x, e) → addr % 4 = 0 → data.length % 4 = 0 → 0 < data.length →
    addr + data.length ≤ 0x800000 → e.sramRefusal addr data.length 4 = none →
    (tilesOf addr data.length).any (fun t => (e.regionAt true (1024 * t)).any (fun r => r.1 == 34)) = false →
    leaves (.sramWindowWrite l addr data) s
      ({ e with link := { e.link with plain := e.link.plain ++ [PlainWrite.bytes addr data] } }.respond (linkCmd l 1) .done [])) ∧
  (∀ (s : State) (l : Link) (off : Nat) (data : List Byte) (x : Bool) (e : Dev),
    admitted s.dev l 1 (0x01000000 + (s.dev.dspBase + off)) data.length data = some (x, e) → (s.dev.dspBase + off) % 4 = 0 →
    data.length % 4 = 0 → 0 < data.length → s.dev.dspBase + off + data.length ≤ 0x800000 →
    e.sramRefusal (s.dev.dspBase + off) data.length 4 = none →
    (tilesOf (s.dev.dspBase + off) data.length).any (fun t => (e.regionAt true (1024 * t)).any (fun r => r.1 == 34)) = true →
    (off < 0x4B00 → leaves (.displayRegionWrite l off data) s (e.respond (linkCmd l 1) .sealed [])) ∧
    (0x4B00 ≤ off → 0x17700 < off + data.length → leaves (.displayRegionWrite l off data) s (e.respond (linkCmd l 1) .denied [])) ∧
    (0x4B00 ≤ off → off + data.length ≤ 0x17700 → leaves (.displayRegionWrite l off data) s
      ({ e with link := { e.link with plain := e.link.plain ++ [PlainWrite.bytes (s.dev.dspBase + off) data] } }.respond
        (linkCmd l 1) .done [])))

/-- A page write of whole words stores its bytes from its address where it stays within its page, and leaves every byte
outside that page as it was, the tile's other pages and every other tile among them (R205). -/
def Obligations.PageWriteStoresItsBytes : Prop :=
  ∀ (d : Dev) (a : Nat) (data : List Byte), a % 8 = 0 → data.length % 8 = 0 →
    let page := if d.inTn a then 32 else 256
    data.length ≤ page →
    (a % page + data.length ≤ page → tabWf 0#8 d.store.mram = true →
      memRead (d.pageWrite a data).store.mram a data.length = data) ∧
    (∀ b, b / page ≠ a / page → memGet (d.pageWrite a data).store.mram b = memGet d.store.mram b) ∧
    (d.pageWrite a data).store.sram = d.store.sram ∧ (d.pageWrite a data).regs = d.regs

/-! ## Frames and slices (01_archipelago R19, R21) -/

/-- Each isle slice (ISLE_CLOSE, DEMAND_SLICE, ISLE_EVENTS_SLICE, PROFILE_SLICE, BILLING_CLOSE_SLICE) runs in its own tick of an
open frame and once: it does its work for its isle, leaves the frame's progress at the next offset, and does nothing in any
other tick; so do ARCHIPELAGO_EVENTS_SLICE in offsets 464 to 479 and FRAME_BOUNDARY at offset 0. A close stamps the isle with
the frame's end and clears the frame's bank; the slice of isle 127 ends the frame's slices; a boundary opens the slices of the
frame that ended there, and in the frame of a voltage check the lanes restart instead (R18, R19, R23, R85, R250). -/
def Obligations.EachSliceRunsOncePerFrame : Prop :=
  (∀ (s : State) (n : Nat) (c : Instr) (o : Nat), n < 128 →
    (c = .isleClose n ∧ o = 80 + n ∨ c = .demandSlice n ∧ o = 208 + n ∨ c = .isleEventsSlice n ∧ o = 336 + n ∨
      c = .profileSlice n ∧ o = 480 + n ∨ c = .billingCloseSlice n ∧ o = 608 + n) →
    (s.dev.sliceDue o = true → gives c s (fun d => d.run.off = o + 1) ∧ ∀ t, exec c s = .next t → leaves c t t.dev) ∧
    (s.dev.sliceDue o = false → leaves c s s.dev)) ∧
  (∀ (s : State) (n : Nat), n < 128 →
    (s.dev.sliceDue (80 + n) = true →
      leaves (.isleClose n) s (((if n = 0 then s.dev.closeStraits.judgeDead else s.dev).closeIsle n).sliceDone (81 + n)) ∧
      (s.dev.ilType n ≠ 0 → s.dev.run.endS ≠ 0 → gives (.isleClose n) s (fun d =>
        (d.isle n).closedS = s.dev.run.endS ∧ (d.isle n).closedT = s.dev.run.endT ∧ (d.isle n).bank s.dev.oddF = Bank.zero))) ∧
    (s.dev.sliceDue (208 + n) = true →
      leaves (.demandSlice n) s ((s.dev.demandSlice n (s.dev.rWarn n) (s.dev.rTrip n)).sliceDone (209 + n))) ∧
    (s.dev.sliceDue (336 + n) = true → leaves (.isleEventsSlice n) s ((s.dev.isleEvents n).sliceDone (337 + n))) ∧
    (s.dev.sliceDue (480 + n) = true → leaves (.profileSlice n) s ((s.dev.profileSlice n).sliceDone (481 + n))) ∧
    (s.dev.sliceDue (608 + n) = true →
      gives (.billingCloseSlice n) s (fun d => d = { s.dev.billingSlice n false with run := d.run } ∧
        d.run = { (s.dev.billingSlice n false).run with off := 609 + n, open_ := if n = 127 then false else (s.dev.billingSlice n false).run.open_ }))) ∧
  (∀ (s : State) (m : Monitors), awake s.dev → 464 ≤ s.dev.off → s.dev.off < 480 → s.dev.run.off < 480 →
    leaves (.archipelagoEventsSlice m) s ((((s.dev.monitors m).expireKnots).releaseNotices).sliceDone 480) ∧
    ∀ t, exec (.archipelagoEventsSlice m) s = .next t → leaves (.archipelagoEventsSlice m) t t.dev) ∧
  (∀ s : State, s.dev.off = 0 → awake s.dev → s.dev.pwr.check = false → s.dev.clk.evald = false →
    exec .frameBoundary s = .next { s with dev := s.dev.frameBoundary, seen := s.dev.frameBoundary } ∧
    s.dev.frameBoundary.store.saveAsk = false) ∧
  (∀ s : State, s.dev.off = 0 → awake s.dev → s.dev.pwr.check = true → s.dev.clk.evald = false →
    let d := ({ s.dev with clk := { s.dev.clk with evald := true } } : Dev).restartLanes
    exec .frameBoundary s = .next { s with dev := d, seen := d }) ∧
  (∀ s : State, s.dev.off = 0 → awake s.dev → s.dev.pwr.check = false → s.dev.clk.evald = false →
    s.dev.clk.step2 = true → s.dev.isLive = false → s.dev.img.resume = false → s.dev.img.reloaded = false →
    gives .frameBoundary s (fun d => d.run.frame = s.dev.clk.frameNo - 1 ∧ d.run.open_ = true ∧ d.run.off = 1 ∧
      d.clk.evald = true)) ∧
  (∀ s : State, s.dev.clk.evald = true ∨ s.dev.off ≠ 0 → leaves .frameBoundary s s.dev)

/-- The carry of R88 loses and gains no energy: fine accumulator, residue and whole quanta together hold what they held plus
the bank, the accumulator stays within 0 to 2^24 - 1 and the residue within 16 bits. -/
def Obligations.CarryConservesEnergy : Prop :=
  ∀ (a : Fine) (b : Int), 0 ≤ a.f → 0 ≤ b →
    let y := a.carry b
    y.1.f * 65536 + y.1.r + (y.2 : Int) * 2 ^ 40 = a.f * 65536 + a.r + b ∧
    0 ≤ y.1.f ∧ y.1.f < 2 ^ 24 ∧ y.1.r < 65536

/-- Adding quanta to a billing register of modulus M keeps it below M and counts a wrap exactly when it passes M: register and
wrap count together rise by the quanta added, modulo 65,536 wraps (R126, R127). -/
def Obligations.RegisterAdditionWraps : Prop :=
  ∀ (m c : Nat) (x : BReg), x.r < m → c ≤ m → x.w < 65536 →
    let y := x.add m c
    y.1.r < m ∧ y.1.w < 65536 ∧ (y.2 = true ↔ m ≤ x.r + c) ∧
    (y.1.w * m + y.1.r) % (65536 * m) = (x.w * m + x.r + c) % (65536 * m) ∧
    ((y.1.w + 65536 - x.w) % 65536) * m + y.1.r = x.r + c

/-- At a sub-interval end no maximum demand falls, the last demands are those of the energy of the interval's sub-intervals,
and the total's maximum of slot 0 is at least the new demand (R137). -/
def Obligations.MaximumDemandNeverFalls : Prop :=
  ∀ (d : Dev) (n : Nat) (due : DemEnd), tabWf IsleSt.init d.run.isles = true →
    (∀ k, (tabGet (0, 0) (d.isle n).dem.max k).1 ≤ (tabGet (0, 0) ((d.closeDemand n due).isle n).dem.max k).1) ∧
    (let e := ((((d.isle n).dem.cur :: (d.isle n).dem.subs).take (d.isle n).cfgF.subint).foldl addSlots [0, 0, 0])
     (((d.closeDemand n due).isle n).dem.last = (List.range 3).map (fun j => demandOf (d.isle n).cfgF.mins (e.getD j 0)) ∧
      demandOf (d.isle n).cfgF.mins (e.getD 0 0) ≤ (tabGet (0, 0) ((d.closeDemand n due).isle n).dem.max 0).1)) ∧
    (∀ k, k ≠ n → (d.closeDemand n due).isle k = d.isle k)

/-! ## Straits and lanes -/

/-- A counted crossing that the tracking filter gives in the running tick is taken, and any other report changes nothing. A
strait locks at its fifth qualifying period in a row, counts cycles while locked, and unlocks at a period that does not
qualify or when no crossing was counted for 400 ticks (R63). -/
def Obligations.StraitTrackingLocksAndUnlocks : Prop :=
  (∀ (s : State) (k sub peak : Nat), k < 16 →
    leaves (.zeroCrossing k sub peak) s
      (if s.dev.strOn k = true ∧ s.dev.crossing k = some (sub, peak) then s.dev.crossed k (s.dev.clk.runTick * 65536 + sub) peak
       else s.dev)) ∧
  (∀ (d : Dev) (k pos peak c : Nat), (d.strait k).cross = some c →
    let e := d.crossed k pos peak
    (e.strait k).cross = some pos ∧ (e.strait k).armed = false ∧ (∀ j, j ≠ k → e.strait j = d.strait j) ∧
    (periodOk (pos - c) peak (d.trackMin k) = true → (d.strait k).locked = false → (d.strait k).qual = 4 →
      (e.strait k).locked = true ∧ (e.strait k).period = min (pos - c) (2 ^ 32 - 1) ∧
      (e.strait k).wStart = pos ∧ (e.strait k).wCount = 0) ∧
    (periodOk (pos - c) peak (d.trackMin k) = true → (d.strait k).locked = false → (d.strait k).qual < 4 →
      (e.strait k).locked = false ∧ (e.strait k).qual = (d.strait k).qual + 1) ∧
    (periodOk (pos - c) peak (d.trackMin k) = true → (d.strait k).locked = true →
      (e.strait k).locked = true ∧ (e.strait k).wCount = (d.strait k).wCount + 1) ∧
    (periodOk (pos - c) peak (d.trackMin k) = false → (e.strait k).locked = false ∧ (e.strait k).qual = 0 ∧
      ((d.strait k).locked = true → (e.strait k).unlocks = min ((d.strait k).unlocks + 1) (2 ^ 32 - 1) ∧
        (e.strait k).freq = 0 ∧ (e.strait k).qnext = some (d.nominalC k)))) ∧
  (∀ (s : State) (k c : Nat), k < 16 → s.dev.strOn k = true → (s.dev.strait k).cross = some c →
    (c / 65536 + 400 ≤ s.dev.clk.runTick → gives (.trackingTimeout k) s (fun d => (d.strait k).locked = false ∧
      (d.strait k).qual = 0 ∧ (∀ j, j ≠ k → d.strait j = s.dev.strait j) ∧ d.clk = s.dev.clk)) ∧
    (s.dev.clk.runTick < c / 65536 + 400 → leaves (.trackingTimeout k) s s.dev))

/-- A window closes at the crossing that ends its tenth or twelfth cycle, or 3,200 ticks after its start when unlocked, and
the next starts there; a locked close selects the quadrature correction of its frequency for the next tick. Its analysis, by
the strait's window engine and within 64 ticks, fills in the results; a half-cycle refresh at a half-cycle boundary rolls the
half cycles (R15, R16, R62, R92, R97, R100). -/
def Obligations.WindowsCloseAndRefresh : Prop :=
  (∀ (s : State) (k c : Nat), k < 16 → s.dev.strOn k = true → (s.dev.strait k).locked = true →
    (s.dev.strait k).cross = some c → c / 65536 = s.dev.clk.runTick → s.dev.winCycles k ≤ (s.dev.strait k).wCount →
    gives (.windowClose k) s (fun d => (d.strait k).wSeq = ((s.dev.strait k).wSeq + 1) % 2 ^ 32 ∧ (d.strait k).wStart = c ∧
      (d.strait k).wCount = 0 ∧ (d.strait k).wN = 0 ∧
      ∃ w, (d.strait k).closed = (s.dev.strait k).closed ++ [w] ∧ w.locked = true ∧ w.frame = s.dev.clk.frameNo ∧
        w.sumV = (s.dev.strait k).wSumV ∧ w.done = false ∧ w.from_ = (s.dev.strait k).wStart ∧ w.upto = c ∧
        (d.strait k).qnext = some (Config.cTable (roundNear (windowHz (s.dev.winCycles k) w.len * 100)).toNat))) ∧
  (∀ (s : State) (k : Nat), k < 16 → s.dev.strOn k = true → (s.dev.strait k).locked = false →
    (s.dev.strait k).wStart + 3200 * 65536 ≤ s.dev.clk.runTick * 65536 →
    gives (.windowClose k) s (fun d => (d.strait k).wStart = (s.dev.strait k).wStart + 3200 * 65536 ∧
      ∃ w, (d.strait k).closed = (s.dev.strait k).closed ++ [w] ∧ w.locked = false ∧ w.len = 3200 ∧ w.done = false)) ∧
  (∀ (s : State) (k : Nat), k < 16 →
    s.dev.strOn k = false ∨ ((s.dev.strait k).locked = true ∧ (s.dev.strait k).wCount < s.dev.winCycles k) ∨
      ((s.dev.strait k).locked = false ∧ s.dev.clk.runTick * 65536 < (s.dev.strait k).wStart + 3200 * 65536) →
    leaves (.windowClose k) s s.dev) ∧
  (∀ (s : State) (k eng seq : Nat), k < 16 →
    (∀ w, s.dev.analysed k seq = some w → s.dev.strOn k = true → eng = k % 4 →
      gives (.windowAnalysis k eng seq) s (fun d => (∀ y ∈ (d.strait k).closed, y.seq = w.seq → y.done = true) ∧
        (d.strait k).closed.length = (s.dev.strait k).closed.length ∧ (d.strait k).win.seq = w.seq ∧
        (d.strait k).win.locked = w.locked ∧ (∀ j, j ≠ k → d.strait j = s.dev.strait j))) ∧
    (s.dev.analysed k seq = none ∨ s.dev.strOn k = false ∨ eng ≠ k % 4 → leaves (.windowAnalysis k eng seq) s s.dev)) ∧
  (∀ (s : State) (k : Nat), k < 16 → s.dev.strOn k = true → s.dev.stPq k = true → s.dev.img.meter = true →
    s.dev.halfDue k = true → 0 < (s.dev.strait k).hn0 →
    gives (.halfCycleRefresh k) s (fun d => (d.strait k).half0 = 0 ∧ (d.strait k).hn0 = 0 ∧
      (d.strait k).half1 = (s.dev.strait k).half0 ∧ (d.strait k).hn1 = (s.dev.strait k).hn0 ∧
      (d.strait k).halfAt = s.dev.clk.runTick ∧
      (0 < (s.dev.strait k).hn1 → (d.strait k).urms = max 0 (s.dev.vWeight k * s.dev.vWeight k *
        (((s.dev.strait k).half0 + (s.dev.strait k).half1) / (((s.dev.strait k).hn0 + (s.dev.strait k).hn1 : Nat) : Rat)))))) ∧
  (∀ (s : State) (k : Nat), k < 16 →
    s.dev.strOn k = false ∨ s.dev.stPq k = false ∨ s.dev.img.meter = false ∨ s.dev.halfDue k = false →
    leaves (.halfCycleRefresh k) s s.dev)

/-- A lane with 1,024 identical bits is stuck and estimated for the rest of the frame, a ferry with them is faulty (the ferry's
row is the model's reading, log 64); an estimated span that has run out stops contributing zero. A visit ends in its last
tick, and at the boundary a conclusive trim within the bounds is taken by the unit that serves the lane, a lane beyond them is
stood in for or fails, a stuck lane or one not measured is inconclusive, and a ferry beyond its own bounds is faulty (R32, R45,
R50, R51, R53, R54, R56). -/
def Obligations.LaneEventsTakeEffect : Prop :=
  (∀ (s : State) (n : Nat), n < 192 → 1024 ≤ (s.dev.lane n).bitRun → (s.dev.lane n).stuck = false →
    (s.dev.lane n).failed = false → (s.dev.lane n).standin = none →
    gives (.laneStuck n) s (fun d => (d.lane n).stuck = true ∧ (d.lane n).estLeft = 3200 - s.dev.off ∧
      (∀ j, j ≠ n → d.lane j = s.dev.lane j))) ∧
  (∀ (s : State) (n : Nat), 192 ≤ n → n < 200 → 1024 ≤ (s.dev.lane n).bitRun → (s.dev.lane n).stuck = false →
    (s.dev.lane n).failed = false →
    gives (.laneStuck n) s (fun d => (d.lane n).faulty = true ∧ (∀ j, j ≠ n → d.lane j = s.dev.lane j))) ∧
  (∀ (s : State) (n : Nat), n < 192 →
    ((s.dev.lane n).estLeft = 0 →
      leaves (.estimatedSpanEnd n) s (s.dev.setLane n { s.dev.lane n with estZero := false })) ∧
    ((s.dev.lane n).estLeft ≠ 0 → leaves (.estimatedSpanEnd n) s s.dev)) ∧
  (∀ (s : State) (v : Nat),
    (s.dev.visitLast = some v → awake s.dev →
      leaves (.ferryVisitEnd v) s { s.dev with rot := { s.dev.rot with ending := some v } }) ∧
    (s.dev.visitLast ≠ some v ∨ ¬ awake s.dev → leaves (.ferryVisitEnd v) s s.dev)) ∧
  (∀ (d : Dev) (v : Nat), d.rot.ending = some v →
    d.endVisit = ({ d with rot := { d.rot with ending := none } } : Dev).verdicts v) ∧
  (∀ (d : Dev) (v f : Nat), (d.lane (192 + f)).refBad = true →
    ((d.visitEnd v f).lane (192 + f)).faulty = true ∧ ∀ j, j ≠ 192 + f → (d.visitEnd v f).lane j = d.lane j) ∧
  (∀ (d : Dev) (v f n : Nat), (d.lane (192 + f)).refBad = false → d.visiting f v = some n →
    let e := d.visitEnd v f
    let trim := visitTrim (d.laneWord n) (d.served n) (d.lane (192 + f))
    ((d.lane n).stuck = true ∨ trim = none → (e.lane n).inconcl = true ∧ ∀ j, j ≠ n → e.lane j = d.lane j) ∧
    (∀ t, (d.lane n).stuck = false → trim = some t →
      (trimBad t = false → (e.lane (d.serving n)).gTrim = t.1 ∧ (e.lane (d.serving n)).dTrim = t.2 ∧
        (e.lane (d.serving n)).trimAt = some d.clk.runTick ∧ (e.lane n).inconcl = false) ∧
      (trimBad t = true → (d.lane n).standin = none → d.standins.length < 6 →
        (e.lane n).standin = some f ∧ (e.lane (192 + f)).standFor = some n) ∧
      (trimBad t = true → (d.lane n).standin = none → 6 ≤ d.standins.length → (e.lane n).failed = true) ∧
      (∀ g, trimBad t = true → (d.lane n).standin = some g → (e.lane (192 + g)).faulty = true)))

/-- In tick-of-second 15,999 one class 6 request of ⌈N/16⌉ quanta for 3,200 ticks covers all N RTD lanes; the second is excited
when it is granted at 0, and withdrawn when it is not. At 3,200 the excited second's result becomes the held code of each lane
with its status bits: above 6,710,886 sets OPEN, below 838,861 SHORT, one between clears OPEN, SHORT and STALE; a held code
more than 3 s old is STALE (R36, R37). -/
def Obligations.RtdLanesAreExcitedAndHeld : Prop :=
  (∀ s : State, s.dev.clk.tick = 15999 → s.dev.rtdLanes ≠ [] → s.dev.outstanding .rtd = false →
    gives .rtdRequest s (fun d => d = { s.dev with pwr := d.pwr } ∧
      d.pwr = { s.dev.pwr with reqs := s.dev.pwr.reqs ++
        [{ who := .rtd, cls := 6, k := (s.dev.rtdLanes.length + 15) / 16, d := 3200, filed := s.dev.clk.runTick, seen := 0, until_ := 0 }] })) ∧
  (∀ d : Dev,
    (d.clk.tick = 0 → (d.excite true).rtdOn = true ∧ (d.excite false).rtdOn = false ∧
      ∀ r ∈ (d.excite false).pwr.reqs, r.who ≠ .rtd) ∧
    (∀ g, d.clk.tick = 3200 → (d.excite g).rtdOn = false ∧ (d.excite g).rtdDone = d.rtdOn) ∧
    (∀ g, d.clk.tick ≠ 0 → d.clk.tick ≠ 3200 → d.clk.tick ≠ 3201 → d.excite g = d)) ∧
  (∀ s : State, s.dev.clk.tick = 3200 → s.dev.rtdDone = true →
    gives .rtdResult s (fun d => d.rtdDone = false ∧
      (∀ n ∈ s.dev.rtdLanes, (d.lane n).heldAt = some s.dev.clk.runTick ∧
        (d.lane n).held = roundOpen 24 (avgOut (laneResp (s.dev.laneWord n)) (s.dev.served n).avg * (s.dev.served n).gain) ∧
        (838861 ≤ (d.lane n).held → (d.lane n).held ≤ 6710886 →
          (d.lane n).rtdOpen = false ∧ (d.lane n).rtdShort = false ∧ (d.lane n).rtdStale = false) ∧
        (6710886 < (d.lane n).held → (d.lane n).rtdOpen = true ∧ (d.lane n).rtdShort = (s.dev.lane n).rtdShort ∧
          (d.lane n).rtdStale = (s.dev.lane n).rtdStale) ∧
        ((d.lane n).held < 838861 → (d.lane n).rtdShort = true ∧ (d.lane n).rtdOpen = (s.dev.lane n).rtdOpen ∧
          (d.lane n).rtdStale = (s.dev.lane n).rtdStale)) ∧
      (∀ n, n ∉ s.dev.rtdLanes → d.lane n = s.dev.lane n))) ∧
  (∀ s : State, s.dev.clk.tick ≠ 3200 ∨ s.dev.rtdDone = false → leaves .rtdResult s s.dev) ∧
  (∀ (s : State) (n t : Nat), n < 192 → laneMode (s.dev.laneWord n) = 4 → (s.dev.lane n).heldAt = some t →
    (48000 < s.dev.clk.runTick - t → gives (.rtdStale n) s (fun d => (d.lane n).rtdStale = true ∧
      (∀ j, j ≠ n → d.lane j = s.dev.lane j))) ∧
    (s.dev.clk.runTick - t ≤ 48000 → leaves (.rtdStale n) s s.dev))

/-! ## Power (10_power, 16_startup) -/

/-- From every state with its supplies, a power fail and a reset pin low for 10 µs or more latch power fail with the cause of
the reset that follows, and a core reset records a skipped latch; a pin low for less than 1 µs does nothing; the last gasp
writes one save after the drain; HOLD follows the last gasp (R254 to R256, R260, R390). -/
def Obligations.PowerFailLatchesAndHolds : Prop :=
  (∀ s : State, powered s.dev → gives .powerFail s (fun d => d.pwr.mode = .failing ∧ d.pwr.next = 3 ∧ d.bak.valid = true ∧
    d.bak.latched = true ∧ d.bak.skipped = false ∧ d.pwr.gaspOk = false)) ∧
  (∀ (s : State) (ns : Nat),
    (10000 ≤ ns → powered s.dev → gives (.resetN ns) s (fun d => d.pwr.mode = .failing ∧ d.pwr.next = 5 ∧ d.bak.latched = true)) ∧
    (ns < 1000 → leaves (.resetN ns) s s.dev)) ∧
  (∀ s : State, powered s.dev → gives .coreReset s (fun d => d.pwr.mode = .reset ∧ d.pwr.next = 4 ∧ d.bak.latched = true ∧
    d.bak.skipped = true ∧ d.pwr.reqs = [] ∧ d.pwr.grants = [] ∧ d.store.saveCap = none)) ∧
  (∀ s : State, ¬ powered s.dev → leaves .powerFail s s.dev ∧ leaves .coreReset s s.dev) ∧
  (∀ (s : State) (t : Nat), s.dev.pwr.mode = .failing → s.dev.pwr.gaspOk = true → s.dev.pwr.gaspDone = false →
    s.dev.pwr.drainAt = some t → t + 5 ≤ s.dev.clk.runTick →
    gives .lastGasp s (fun d => d.pwr.gaspDone = true ∧ d.pwr.grants = [] ∧ d.engines = [] ∧ d.ticks = [] ∧
      ∃ img, d.store.gasp = some img ∧ img.kind = 1 ∧ d.store.saveSeq = img.seq)) ∧
  (∀ s : State, s.dev.pwr.mode = .failing → s.dev.pwr.gaspDone = true →
    gives .holdEntry s (fun d => d = { s.dev with bak := d.bak, pwr := { s.dev.pwr with mode := .hold, next := 2 } } ∧
      d.bak = { s.dev.bak with pins := d.bak.pins })) ∧
  (∀ s : State, s.dev.pwr.mode ≠ .failing ∨ s.dev.pwr.gaspDone = false → leaves .holdEntry s s.dev)

/-- In HOLD a sample leaves exactly the sources whose condition holds marked, counts each newly marked one, and touches
nothing but the backup domain; the loss of VBAT there clears time and the backup register file (R233, R317). -/
def Obligations.HoldSamplesTheBackupSources : Prop :=
  (∀ (s : State) (calseal cover tcover glitch : Bool) (vbat : Nat), s.dev.pwr.mode = .hold →
    gives (.holdSample calseal cover tcover vbat glitch) s (fun d => d = { s.dev with bak := d.bak } ∧
      (1 ∈ d.bak.pins ↔ cover = false) ∧ (2 ∈ d.bak.pins ↔ tcover = false) ∧ (3 ∈ d.bak.pins ↔ calseal = false) ∧
      (0x0B ∈ d.bak.pins ↔ glitch = true) ∧
      (cover = false → 1 ∉ s.dev.bak.pins →
        (tabGet { count := 0, first := 0, last := 0 } d.bak.alarms 1).last = s.dev.clk.secs ∧
        (tabGet { count := 0, first := 0, last := 0 } d.bak.alarms 1).count =
          min ((tabGet { count := 0, first := 0, last := 0 } s.dev.bak.alarms 1).count + 1) (2 ^ 32 - 1)))) ∧
  (∀ (s : State) (calseal cover tcover glitch : Bool) (vbat : Nat), s.dev.pwr.mode ≠ .hold →
    leaves (.holdSample calseal cover tcover vbat glitch) s s.dev) ∧
  (∀ s : State, s.dev.pwr.mode = .hold →
    leaves .vbatLoss s { s.dev with bak := Backup.reset, clk := { s.dev.clk with secs := 0, tick := 0, set := false },
                                    pwr := { s.dev.pwr with next := 1 } }) ∧
  (∀ s : State, s.dev.pwr.mode ≠ .hold → leaves .vbatLoss s s.dev)

/-- The release of reset from reset, HOLD or a completed power-fail sequence runs the power-up order: the link comes up, and
reads see the device it leaves; in any other power state nothing is released (R389, R393, R394). A reload runs at a frame
boundary for the slot that waits for it and for no other: over a live image by the reload's steps, without one by the
power-up's (R190). -/
def Obligations.PowerUpBringsTheLinkUp : Prop :=
  (∀ (s : State) (p : PowerUpInput),
    (s.dev.pwr.mode = .reset ∨ s.dev.pwr.mode = .hold ∨ (s.dev.pwr.mode = .failing ∧ s.dev.pwr.gaspDone = true)) →
    exec (.powerUp p) s = .next { s with dev := s.dev.powerUp p, seen := s.dev.powerUp p } ∧
    (s.dev.powerUp p).link.up = true) ∧
  (∀ (s : State) (p : PowerUpInput), powered s.dev ∨ (s.dev.pwr.mode = .failing ∧ s.dev.pwr.gaspDone = false) →
    exec (.powerUp p) s = .next s) ∧
  (∀ (s : State) (p : PowerUpInput) (k : Nat), s.dev.img.reload = some k → s.dev.off = 0 → awake s.dev →
    (s.dev.isLive = true →
      exec (.imageReload p) s = .next { s with dev := s.dev.reloadLive k p, seen := s.dev.reloadLive k p } ∧
      (s.dev.reloadLive k p).img.reloaded = true) ∧
    (s.dev.isLive = false →
      let d := ((((s.dev.reloadVault p).loadSlot k).loadRegs.loadStandins).bringUp p (decide (s.dev.pwr.cause ≠ 1))).startRetest
      exec (.imageReload p) s = .next { s with dev := d, seen := d })) ∧
  (∀ (s : State) (p : PowerUpInput), s.dev.img.reload = none ∨ s.dev.off ≠ 0 ∨ ¬ awake s.dev →
    exec (.imageReload p) s = .next s)

/-- VDD5P stops and restarts the charger, which charges below 11.0 V while VDD5P is valid; a wake takes NAP, or SLEEP at a
millisecond-eighth tick, to DOZE; a host wake whose time has come keeps the device awake for 1 s and is used up; a voltage
check in its frame's first tick is counted and over, and a returned voltage ends the dead busbar; the picker does nothing
while the device may not rest, and takes SLEEP by way of its entry save, or NAP (R233, R235, R247 to R250, R252, R253). -/
def Obligations.SuppliesAndRestFollowTheRules : Prop :=
  (∀ (s : State) (ok : Bool), gives (.vdd5pChange ok) s (fun d => d.pwr.vdd5p = ok ∧
    d.pwr.charging = (ok && decide (s.dev.pwr.vres < 11000)) ∧ d.clk = s.dev.clk ∧ d.store = s.dev.store)) ∧
  (∀ (s : State) (v : Nat), leaves (.chargerThreshold v) s { s.dev with pwr := { s.dev.pwr with
    vres := v, charging := s.dev.pwr.vdd5p && decide (v < 11000) } }) ∧
  (∀ s : State, (s.dev.pwr.mode = .nap ∨ (s.dev.pwr.mode = .sleep ∧ s.dev.clk.tick % 125 = 0)) →
    gives .wake s (fun d => d.pwr.mode = .doze ∧ d.pwr.check = false ∧ d.pwr.idle = 0) ∧
    (s.dev.nextOther ≤ 64 → gives .calendarWake s (fun d => d.pwr.mode = .doze ∧ d.pwr.check = false))) ∧
  (∀ s : State, s.dev.pwr.mode = .nap → 64 < s.dev.nextOther →
    (s.dev.nextCheck ≤ 64 → gives .calendarWake s (fun d => d.pwr.mode = .doze ∧ d.pwr.check = true ∧ d.clk = s.dev.clk)) ∧
    (64 < s.dev.nextCheck → leaves .calendarWake s s.dev)) ∧
  (∀ s : State, awake s.dev ∨ s.dev.pwr.mode = .failing ∨ s.dev.pwr.mode = .hold ∨ s.dev.pwr.mode = .reset →
    leaves .wake s s.dev ∧ leaves .calendarWake s s.dev) ∧
  (∀ s : State, awake s.dev → (∃ t ∈ s.dev.pwr.wakes, t ≤ s.dev.clk.secs) →
    leaves .hostWake s { s.dev with pwr := { s.dev.pwr with
      wakes := s.dev.pwr.wakes.filter (fun t => decide (s.dev.clk.secs < t)), awake := s.dev.clk.runTick + 16000 } }) ∧
  (∀ s : State, s.dev.pwr.check = true → s.dev.off = 0 → s.dev.clk.evald = false → awake s.dev →
    gives .voltageCheck s (fun d => d.pwr.check = false ∧ d.clk.evald = true ∧
      d.pwr.idle = (if s.dev.busReturned then 0 else 1) ∧ (s.dev.busReturned = true → d.pwr.dead = false))) ∧
  (∀ s : State, s.dev.mayRest = false → leaves .statePicker s s.dev) ∧
  (∀ s : State, s.dev.mayRest = true → s.dev.napEn = true → s.dev.sleepEn = false → 384 ≤ s.dev.nextEntry →
    leaves .statePicker s { s.dev with pwr := { s.dev.pwr with sleepReq := true } }) ∧
  (∀ s : State, s.dev.mayRest = true → s.dev.sleepEn = true → s.dev.sleepAllowed = true → 8480 ≤ s.dev.nextEntry →
    736 ≤ s.dev.off → (∀ w ∈ s.dev.store.rgq, w ≠ .sleepSave) → s.dev.store.rgRun = none →
    leaves .statePicker s (s.dev.guarded .sleepSave))

/-! ## The store (09_store) -/

/-- A due save is captured at offset 736 and its request of 36 quanta for 12 ticks filed; one not complete at offset 3,199 is
abandoned and SAVE_LATE set; a granted journal transaction is prepared in the ring with the next sequence number, the old and
the new image of each page; a
reserve-guarded write runs when the reservoir holds its reserve and is refused and counted when it does not; the scrubber
verifies one tile in the open offsets, and mends the record of a twin region (R208, R219, R221, R226). -/
def Obligations.StoreEventsTakeEffect : Prop :=
  (∀ s : State, s.dev.store.saveDue = true → s.dev.store.saveCap = none → s.dev.off = 736 → awake s.dev →
    s.dev.store.sramBad = [] → s.dev.outstanding .save = false →
    gives .periodicSave s (fun d => (∃ img, d.store.saveCap = some img ∧ img.kind = 0) ∧
      d.pwr.reqs = s.dev.pwr.reqs ++ [{ who := .save, cls := 2, k := 36, d := 12, filed := s.dev.clk.runTick, seen := 0, until_ := 0 }] ∧
      d.store.mram = s.dev.store.mram ∧ d.run = s.dev.run)) ∧
  (∀ (s : State) (img : SaveImg), s.dev.store.saveCap = some img →
    (s.dev.off = 3199 → gives .saveAbandon s (fun d => d.store.saveCap = none ∧ d.store.late = true ∧
      (∀ r ∈ d.pwr.reqs, r.who ≠ .save) ∧ d.store.saveDue = s.dev.store.saveDue)) ∧
    (s.dev.off ≠ 3199 → leaves .saveAbandon s s.dev)) ∧
  (∀ (s : State) (t : JTxn) (rest : List JTxn), s.dev.store.jqueue = t :: rest →
    (s.dev.grantedNow .journal = true → s.dev.store.ring = [] →
      let old (x : Nat × List Byte) : List Byte := memRead s.dev.store.mram (x.1 / 256 * 256) 256
      let e : JEntry := { seq := (s.dev.store.txnSeq + 1) % 2 ^ 32, pos := s.dev.store.jpos, state := 1,
                          pages := t.pages.map (fun x => (x.1 / 256 * 256, old x, patch (old x) (x.1 % 256) x.2, true)) }
      leaves .journalTransaction s (({ s.dev with store := { s.dev.store with
        ring := [e], txnSeq := e.seq, jpos := (e.pos + 1 + cdiv e.pages.length 2) % s.dev.ringTiles } } : Dev).putJournal e)) ∧
    (s.dev.grantedNow .journal = false → leaves .journalTransaction s s.dev)) ∧
  (∀ (s : State) (w : RgWrite) (rest : List RgWrite) (v : Nat), s.dev.store.rgq = w :: rest → s.dev.grantedNow .reserveWrite = true →
    s.dev.store.rgRun = none →
    (35000000 ≤ s.dev.pwr.vres * s.dev.pwr.vres →
      leaves (.reserveGuardedWrite v) s { s.dev with store := { s.dev.store with rgq := rest, rgRun := some w },
                                                     pwr := { s.dev.pwr with vres := min s.dev.pwr.vres v } }) ∧
    (s.dev.pwr.vres * s.dev.pwr.vres < 35000000 →
      gives (.reserveGuardedWrite v) s (fun d => d.store.rgq = rest ∧ d.store.rgRun = none ∧
        d.store.nRef = min (s.dev.store.nRef + 1) (2 ^ 32 - 1) ∧ d.pwr.vres = s.dev.pwr.vres))) ∧
  (∀ (s : State) (t : Nat), t < 8192 → awake s.dev → 736 ≤ s.dev.off →
    (tabGet 0#32 s.dev.store.sramBad t = 0 → leaves (.scrub true t) s { s.dev with store := { s.dev.store with
      badSet := s.dev.store.badSet.filter (fun x => decide (x ≠ 1024 * t + 2 ^ 31)) } })) ∧
  (∀ (s : State) (t code f b z : Nat), t < 65536 → awake s.dev → 736 ≤ s.dev.off →
    s.dev.map.find? (fun (_, f, b, z) => !bitOf f 0 && decide (b ≤ 1024 * t) && decide (1024 * t < b + z)) = some (code, f, b, z) →
    (code = 18 → leaves (.scrub false t) s s.dev) ∧
    (code ≠ 18 → twinRegion code = false →
      leaves (.scrub false t) s (s.dev.verifyTile t 3 0 (s.dev.tileOrigin t)).2) ∧
    (code ≠ 18 → twinRegion code = true →
      leaves (.scrub false t) s
        ((s.dev.verifyTile t 3 0 (s.dev.tileOrigin t)).2.scrubTwin code ((t - b / 1024) % max 1 (z / 2048))))) ∧
  (∀ (s : State) (sram : Bool) (t : Nat), t < 8192 → s.dev.off < 736 → leaves (.scrub sram t) s s.dev)

/-! ## Ports and partners (11_ports_partners) -/

/-- A poll that is due joins its port's queue once, a port in backoff takes one probe every BACKOFF seconds, and with no
grant, or before the bus is idle, no frame starts; a granted frame of a waiting transaction is sent (R266, R286, R288). -/
def Obligations.PollsAreQueuedAndSent : Prop :=
  (∀ (s : State) (i : Nat), i < 4096 →
    let x := s.dev.partner i
    s.dev.isLive = true → x.state.polled = true → s.dev.portBus x.port = true → x.due ≤ s.dev.clk.secs →
    (s.dev.port x.port).backoff = false → awake s.dev → s.dev.pollWaits i = false → s.dev.emptyRead i = false →
    gives (.pollDue i) s (fun d => (x.due, i, TxKind.poll) ∈ (d.port x.port).pollQ ∧
      (∀ y ∈ (s.dev.port x.port).pollQ, y ∈ (d.port x.port).pollQ))) ∧
  (∀ (s : State) (i : Nat), i < 4096 → (s.dev.clk.secs < (s.dev.partner i).due ∨ s.dev.pollWaits i = true) →
    leaves (.pollDue i) s s.dev) ∧
  (∀ (s : State) (p : Nat), p < 32 →
    (s.dev.port p).backoff = false ∨ s.dev.clk.secs < (s.dev.port p).probeAt + s.dev.ppBackoff p →
    leaves (.backoffProbe p) s s.dev) ∧
  (∀ (s : State) (p i : Nat), p < 32 → (s.dev.port p).backoff = true → (s.dev.port p).probeAt + s.dev.ppBackoff p ≤ s.dev.clk.secs →
    (s.dev.port p).pollQ = [] → awake s.dev → s.dev.portPartners p = [i] → (s.dev.partner i).state = .enrolled →
    s.dev.emptyRead i = false →
    gives (.backoffProbe p) s (fun d => (d.port p).pollQ = [(0, i, TxKind.probe)] ∧ (d.port p).probed = i ∧
      (d.port p).probeAt = s.dev.clk.secs)) ∧
  (∀ (s : State) (p : Nat), p < 32 → (s.dev.grantedNow (.port p) = false ∧ s.dev.grantedNow (.tamperPort p) = false) ∨
    s.dev.clk.runTick < (s.dev.port p).idleAt → leaves (.busFrame p) s s.dev) ∧
  (∀ (s : State) (p : Nat) (t : Txn), p < 32 → s.dev.grantedNow (.port p) = true → (s.dev.port p).idleAt ≤ s.dev.clk.runTick →
    s.dev.pick p = some (.cont t) →
    gives (.busFrame p) s (fun d => (d.port p).txn = some { t with sent := true } ∧
      (d.port p).frames = min ((s.dev.port p).frames + 1) (2 ^ 32 - 1) ∧ s.dev.clk.runTick ≤ (d.port p).idleAt))

/-- An awaited answer moves its transaction on: E5 to a selection leads to the data request, an accepted coil write to the
read back; an answer that fails its check, and a timeout, are counted apart and the frame is sent again while RETRIES last; a
device that neither meters nor naps hears nothing (R120, R269, R274, R280). -/
def Obligations.PortAnswersMoveTheTransaction : Prop :=
  (∀ (s : State) (p : Nat) (t : Txn), p < 32 → s.dev.hears = true → s.dev.poModule p = 1 → (s.dev.port p).txn = some t → t.sent = true →
    t.step = .select → t.kind ≠ .discovery →
    gives (.rspUd p [0xE5#8]) s (fun d => (d.port p).txn = some { t with step := .reqUd2, tries := 0, sent := false } ∧
      (d.port p).replies = min ((s.dev.port p).replies + 1) (2 ^ 32 - 1))) ∧
  (∀ (s : State) (p : Nat) (t : Txn) (raw : List Byte), p < 32 → s.dev.hears = true → s.dev.poModule p = 1 → (s.dev.port p).txn = some t → t.sent = true →
    t.step = .select → t.kind ≠ .discovery → raw ≠ [0xE5#8] → t.tries < s.dev.rRetries p →
    gives (.rspUd p raw) s (fun d => (d.port p).txn = some { t with tries := t.tries + 1, sent := false } ∧
      (d.port p).errors = min ((s.dev.port p).errors + 1) (2 ^ 32 - 1) ∧ (d.port p).timeouts = (s.dev.port p).timeouts)) ∧
  (∀ (s : State) (p : Nat) (t : Txn), p < 32 → s.dev.hears = true → (s.dev.port p).txn = some t → t.sent = true → t.kind ≠ .discovery →
    ((s.dev.port p).dueAt ≤ s.dev.clk.runTick → t.tries < s.dev.rRetries p →
      gives (.answerTimeout p) s (fun d => (d.port p).txn = some { t with tries := t.tries + 1, sent := false } ∧
        (d.port p).timeouts = min ((s.dev.port p).timeouts + 1) (2 ^ 32 - 1) ∧ (d.port p).errors = (s.dev.port p).errors)) ∧
    (s.dev.clk.runTick < (s.dev.port p).dueAt → leaves (.answerTimeout p) s s.dev)) ∧
  (∀ (s : State) (p i : Nat) (t : Txn) (raw data : List Byte), p < 32 → s.dev.hears = true → s.dev.portMaster p = true → s.dev.pwr.vdd5p = true →
    (s.dev.port p).txn = some t → t.sent = true → t.step = .coilWrite → t.kind ≠ .discovery → t.partner = some i →
    modbusParse (s.dev.partner i).primary raw = some (5, data) → data.length = 4 →
    gives (.modbusResponse p raw) s (fun d => ∃ y, (d.port p).txn = some y ∧ y.step = .coilRead ∧ y.tries = 0 ∧ y.sent = false ∧
      y.partner = some i)) ∧
  (∀ (s : State) (p i : Nat) (t : Txn) (raw : List Byte), p < 32 → s.dev.hears = true → s.dev.portMaster p = true → s.dev.pwr.vdd5p = true →
    (s.dev.port p).txn = some t → t.sent = true → t.step = .coilWrite → t.kind ≠ .discovery → t.partner = some i →
    modbusParse (s.dev.partner i).primary raw = none → t.tries < s.dev.rRetries p →
    gives (.modbusResponse p raw) s (fun d => (d.port p).txn = some { t with tries := t.tries + 1, sent := false } ∧
      (d.port p).errors = min ((s.dev.port p).errors + 1) (2 ^ 32 - 1))) ∧
  (∀ (s : State) (p : Nat) (raw : List Byte), p < 32 → s.dev.hears = false →
    leaves (.rspUd p raw) s s.dev ∧ leaves (.modbusResponse p raw) s s.dev ∧ leaves (.answerTimeout p) s s.dev)

/-- A request on an RS485 slave port waits for the port's answer; the optical port answers an identification request at
300 Bd, starts a readout at the rate of a valid acknowledgement, returns to idle on any other option, and abandons an
exchange whose identification has not started within 1,500 ms (R275, R281, R168). -/
def Obligations.PortRequestsAreAnswered : Prop :=
  (∀ (s : State) (p : Nat) (raw : List Byte), p < 32 → s.dev.isLive = true → s.dev.hears = true → s.dev.portSlave p = true → s.dev.pwr.vdd5p = true →
    raw ≠ [] → s.dev.modbusSplit raw = true → (s.dev.port p).latch = false → (s.dev.port p).opto = .idle →
    gives (.modbusRequest p raw) s (fun d => (d.port p).ask = raw ∧ (d.port p).answer = [])) ∧
  (∀ (s : State) (p : Nat) (raw : List Byte), p < 32 → s.dev.isLive = true → s.dev.hears = true → s.dev.portSlave p = true → s.dev.pwr.vdd5p = true →
    raw ≠ [] → s.dev.modbusSplit raw = false → (s.dev.port p).latch = false → (s.dev.port p).opto = .idle →
    tabWf PortSt.init s.dev.ports = true →
    gives (.modbusRequest p raw) s (fun d => (d.port p).ask = [] ∧ ∃ e : Dev, (d.port p).answer = e.modbusAnswer p raw)) ∧
  (∀ (s : State) (p : Nat) (raw : List Byte), p < 32 → s.dev.portSlave p = false → leaves (.modbusRequest p raw) s s.dev) ∧
  (∀ (s : State) (p : Nat) (raw : List Byte), p < 32 → s.dev.isLive = true → s.dev.hears = true → s.dev.poModule p = 5 → (s.dev.port p).answer = [] →
    (s.dev.port p).latch = false → (s.dev.port p).ask = [] → s.dev.optoAsks p raw = true →
    gives (.optoRequest p raw) s (fun d => (d.port p).opto = .identify ∧ (d.port p).optoBd = 300 ∧
      (d.port p).optoAt = s.dev.clk.runTick ∧ (d.port p).idleAt = s.dev.clk.runTick + 3200)) ∧
  (∀ (s : State) (p : Nat) (z : Nat), p < 32 → s.dev.isLive = true → s.dev.hears = true → s.dev.poModule p = 5 → (s.dev.port p).opto = .identified →
    z ≤ s.dev.poParam p 3 → z ≤ 9 →
    gives (.optoAcknowledgement p [0x06#8, 0x30#8, byteOf (0x30 + z), 0x30#8, 0x0D#8, 0x0A#8]) s (fun d =>
      (d.port p).opto = .readout z ∧ (d.port p).optoBd = 300 * 2 ^ z ∧ (d.port p).latch = true)) ∧
  (∀ (s : State) (p : Nat) (raw : List Byte), p < 32 → s.dev.isLive = true → s.dev.hears = true → s.dev.poModule p = 5 → (s.dev.port p).opto = .identified →
    u8 raw 1 ≠ 0x30 →
    leaves (.optoAcknowledgement p raw) s (s.dev.setPort p { s.dev.port p with opto := .idle, optoBd := 300 })) ∧
  (∀ (s : State) (p : Nat), p < 32 → s.dev.hears = true → s.dev.poModule p = 5 → (s.dev.port p).opto = .identify →
    ((s.dev.port p).optoAt + 24000 ≤ s.dev.clk.runTick →
      leaves (.optoTimeout p) s ((s.dev.setPort p { s.dev.port p with opto := .idle, optoBd := 300, answer := [] }).withdraw (.port p))) ∧
    (s.dev.clk.runTick < (s.dev.port p).optoAt + 24000 → leaves (.optoTimeout p) s s.dev))

/-- A pulse is accepted once, in the tick in which an ON period after a long enough OFF period has lasted MIN_ON_MS, and counted on
its input; an ON period that ends before it is a glitch, counted apart, both saturating; feedback that does not match in time
sets MISMATCH and repeats the change once, feedback that matches clears it; a coil pair that left the partner different is
repeated 10 s later; a line fault is shown while it stands (R110, R264, R277, R279, R280). -/
def Obligations.PulsesAndRelayFeedbackAreSeen : Prop :=
  (∀ (s : State) (p i : Nat), p < 32 → i < 4 → s.dev.pulseOn p i = true →
    let x := s.dev.port p
    (x.onOk.getD i false = true → x.onRun.getD i 0 + 1 = (s.dev.pulseMin p i).1 →
      gives (.pulseAccepted p i) s (fun d => d = { s.dev with ports := d.ports, run := d.run } ∧
        d.ports = (s.dev.setPort p { x with
          pulses := x.pulses.set i (min (x.pulses.getD i 0 + 1) (2 ^ 32 - 1)), onOk := x.onOk.set i false }).ports ∧
        (s.dev.img.meter = false → d.run = s.dev.run))) ∧
    (x.onOk.getD i false = false ∨ x.onRun.getD i 0 + 1 ≠ (s.dev.pulseMin p i).1 → leaves (.pulseAccepted p i) s s.dev) ∧
    (0 < x.onRun.getD i 0 → x.onRun.getD i 0 < (s.dev.pulseMin p i).1 →
      leaves (.pulseGlitch p i) s (s.dev.setPort p { x with
        glitch := x.glitch.set i (min (x.glitch.getD i 0 + 1) 255), onRun := x.onRun.set i 0 })) ∧
    (x.onRun.getD i 0 = 0 ∨ (s.dev.pulseMin p i).1 ≤ x.onRun.getD i 0 → leaves (.pulseGlitch p i) s s.dev)) ∧
  (∀ (s : State) (p i : Nat), p < 32 → i < 4 → s.dev.pulseOn p i = false →
    leaves (.pulseAccepted p i) s s.dev ∧ leaves (.pulseGlitch p i) s s.dev) ∧
  (∀ (s : State) (p o : Nat), p < 32 → o < 2 → s.dev.feedbackDue p o = true → awake s.dev → (s.dev.port p).mism.length = 2 →
    (s.dev.port p).again.getD o false = true →
    gives (.relayMismatch p o) s (fun d => (d.port p).mism.getD o false = true ∧ (d.port p).relayQ = (s.dev.port p).relayQ)) ∧
  (∀ (s : State) (p o : Nat), p < 32 → o < 2 → s.dev.feedbackDue p o = true → awake s.dev → (s.dev.port p).mism.length = 2 →
    (s.dev.port p).again.getD o false = false →
    gives (.relayMismatch p o) s (fun d => (d.port p).mism.getD o false = true ∧ (2 * p + o, 4) ∈ (d.port p).relayQ)) ∧
  (∀ (s : State) (p o : Nat), p < 32 → o < 2 → s.dev.feedbackDue p o = false → leaves (.relayMismatch p o) s s.dev) ∧
  (∀ (s : State) (p o : Nat), p < 32 → o < 2 → s.dev.hears = true → s.dev.poModule p = 4 → bitOf (s.dev.poParam p 1) (2 + o) = true →
    (s.dev.port p).mism.getD o false = true →
    leaves (.relayFeedback p o) s (s.dev.setPort p { s.dev.port p with
      mism := (s.dev.port p).mism.set o false, again := (s.dev.port p).again.set o false,
      fbAt := (s.dev.port p).fbAt.set o (max 1 s.dev.clk.runTick) })) ∧
  (∀ (s : State) (i : Nat), i < 4096 → (s.dev.partner i).kind = 4 → (s.dev.partner i).state = .enrolled →
    (s.dev.partner i).coilAt ≠ 0 → (s.dev.partner i).coilAt + 160000 ≤ s.dev.clk.runTick →
    (s.dev.port (s.dev.partner i).port).txn = none → awake s.dev →
    leaves (.relayCoilRetry i) s ((s.dev.relayUpdate (partnerTarget i) 4).portFile (s.dev.partner i).port)) ∧
  (∀ (s : State) (i : Nat), i < 4096 → s.dev.clk.runTick < (s.dev.partner i).coilAt + 160000 →
    leaves (.relayCoilRetry i) s s.dev) ∧
  (∀ (s : State) (p : Nat) (on : Bool), p < 32 →
    (s.dev.isLive = true → s.dev.hears = true → s.dev.poModule p = 2 →
      leaves (.lineFault p on) s (s.dev.setPort p { s.dev.port p with fault := on })) ∧
    (s.dev.isLive = false ∨ s.dev.hears = false ∨ (s.dev.poModule p ≠ 2 ∧ s.dev.poModule p ≠ 1) →
      leaves (.lineFault p on) s s.dev))

/-! ## Tamper, vault, jobs and display -/

/-- A raise of a source that is clear and not under test marks it RAISED, counts it once, saturating, dates it, and names it
for the responses of the coming boundary; no other ledger entry changes (R309, R311). -/
def Obligations.RaiseCountsAndDatesTheSource : Prop :=
  ∀ (d : Dev) (k : Nat), (d.ledger k).raised = false → (d.ledger k).testing = false →
    let e := d.raiseSrc k
    (e.ledger k).raised = true ∧ (e.ledger k).count = min ((d.ledger k).count + 1) (2 ^ 32 - 1) ∧
    (e.ledger k).last = d.clk.secs ∧ ((d.ledger k).count = 0 → (e.ledger k).first = d.clk.secs) ∧
    ((d.ledger k).count ≠ 0 → (e.ledger k).first = (d.ledger k).first) ∧
    e.tam.fresh = d.tam.fresh ++ [k] ∧ (∀ j, j ≠ k → e.ledger j = d.ledger j) ∧ e.clk = d.clk ∧ e.store.mram = d.store.mram

/-- A change of a tamper pin while awake counts once 159 samples before it were at the new level: it takes the pin's level and
raises or clears its source; an earlier one, and the same level again, change nothing; a counted change of the seal is
counted, and its record asked for, once an image is live; a supply glitch raises its rail's source from its threshold on; a
monitor test ends with its result (R161, R306, R316). -/
def Obligations.TamperPinsAndTestsTakeEffect : Prop :=
  (∀ (s : State) (h : Bool), awake s.dev →
    let t := s.dev.tam
    (t.cover ≠ h → 159 ≤ t.pinRun.getD 1 0 → leaves (.coverN h) s
      ((({ s.dev with tam := { t with pinRun := t.pinRun.set 1 0, cover := h } } : Dev)).setSrc 0x01 (!h))) ∧
    (t.cover = h ∨ t.pinRun.getD 1 0 < 159 → leaves (.coverN h) s s.dev) ∧
    (t.tcover ≠ h → 159 ≤ t.pinRun.getD 2 0 → leaves (.tcoverN h) s
      ((({ s.dev with tam := { t with pinRun := t.pinRun.set 2 0, tcover := h } } : Dev)).setSrc 0x02 (!h))) ∧
    (t.tcover = h ∨ t.pinRun.getD 2 0 < 159 → leaves (.tcoverN h) s s.dev) ∧
    (t.mag ≠ h → 159 ≤ t.pinRun.getD 3 0 → leaves (.magN h) s
      ((({ s.dev with tam := { t with pinRun := t.pinRun.set 3 0, mag := h } } : Dev)).setSrc 0x04 (!h))) ∧
    (t.mag = h ∨ t.pinRun.getD 3 0 < 159 → leaves (.magN h) s s.dev) ∧
    (t.sealPin = h ∨ t.pinRun.getD 0 0 < 159 → leaves (.calsealN h) s s.dev)) ∧
  (∀ s : State, awake s.dev → s.dev.isLive = true → s.dev.tam.sealPin = true → 159 ≤ s.dev.tam.pinRun.getD 0 0 →
    gives (.calsealN false) s (fun d => d.sealOpen = true ∧ d.tam.opens = min (s.dev.tam.opens + 1) (2 ^ 32 - 1) ∧
      RgWrite.sealRec ∈ d.store.rgq)) ∧
  (∀ s : State, awake s.dev → s.dev.isLive = true → s.dev.tam.sealPin = false → 159 ≤ s.dev.tam.pinRun.getD 0 0 →
    gives (.calsealN true) s (fun d => d.sealOpen = false ∧ d.tam.opens = s.dev.tam.opens ∧ RgWrite.sealRec ∈ d.store.rgq ∧
      ∀ y ∈ d.link.shadow, (regAcc y.1).1 ≠ .lk)) ∧
  (∀ s : State, awake s.dev → s.dev.isLive = false → s.dev.tam.sealPin = true → 159 ≤ s.dev.tam.pinRun.getD 0 0 →
    leaves (.calsealN false) s { s.dev with tam := { s.dev.tam with pinRun := s.dev.tam.pinRun.set 0 0, sealPin := false } }) ∧
  (∀ (s : State) (rail ns : Nat), rail < 4 → awake s.dev →
    ((s.dev.srcThresh (glitchSource rail) none 100 0).1 ≤ ns → leaves (.supplyGlitch rail ns) s (s.dev.raiseSrc (glitchSource rail))) ∧
    (ns < (s.dev.srcThresh (glitchSource rail) none 100 0).1 → leaves (.supplyGlitch rail ns) s s.dev)) ∧
  (∀ (s : State) (k j t : Nat) (raised cleared : Bool), s.dev.tam.test = some (k, j, t) → k < 256 → t ≠ 0 →
    (t + 16 ≤ s.dev.clk.runTick + 1 → s.dev.tam.testReal = none →
      gives (.monitorTestEnd raised cleared) s (fun d => d.tam.test = none ∧ (d.ledger k).testing = false ∧
        (d.ledger k).test = (if raised then (if cleared then 1 else 3) else 2) ∧ (d.ledger k).testAt = s.dev.clk.secs)) ∧
    (s.dev.clk.runTick + 1 < t + 16 → leaves (.monitorTestEnd raised cleared) s s.dev))

/-- A slew ends when its correction is made. A running job whose work is complete ends with the result of its kind: a plain store
write, a profile or event read, a CRYPTO operation, a signature, an image check. Every 2^24 ticks the root is split again, every 2^20 ticks each working copy takes a fresh mask; a TRNG failure stops the DRBG, and its retry a
minute later restarts it on a pass (R13, R29, R147, R321, R332, R333). -/
def Obligations.VaultAndJobEventsTakeEffect : Prop :=
  (∀ (s : State) (w : Slew), s.dev.clk.slew = some w →
    (w.total ≤ w.made → s.dev.timeJob = none → leaves .slewEnd s { s.dev with clk := { s.dev.clk with slew := none } }) ∧
    (w.made < w.total → leaves .slewEnd s s.dev)) ∧
  (∀ (s : State) (j : Job), awake s.dev → s.dev.findJob j.num = some j → j.phase = .running → j.fin = none →
    (j.stage = 0 ∨ (j.stage = 3 ∧ s.dev.opsReady j = true) → leaves (.jobCompletion j.num) s (s.dev.complete j)) ∧
    (j.stage = 0 → j.op = 0x33 → leaves (.jobCompletion j.num) s ((s.dev.doneStoreWrite j).finish j.num .done 0 [])) ∧
    (j.stage = 0 → j.op = 0x21 →
      let r := s.dev.profileResult j.args
      leaves (.jobCompletion j.num) s (r.2.2.2.finish j.num r.1 r.2.1 r.2.2.1)) ∧
    (j.stage = 0 → j.op = 0x22 → leaves (.jobCompletion j.num) s (s.dev.doneEventRead j)) ∧
    (j.stage = 3 → s.dev.opsReady j = true →
      (j.op = 0x67 → leaves (.jobCompletion j.num) s (s.dev.doneCrypto j)) ∧
      (j.op = 0x20 ∨ j.op = 0x69 → leaves (.jobCompletion j.num) s (s.dev.doneSigned j)) ∧
      (j.op = 0x31 → leaves (.jobCompletion j.num) s ((s.dev.verifySlot (u8 j.args 0) 1).doneImageLoad j))) ∧
    (j.stage = 3 → s.dev.opsReady j = false → leaves (.jobCompletion j.num) s s.dev)) ∧
  (∀ (s : State) (j : Job), s.dev.findJob j.num = some j → j.phase ≠ .running ∨ j.fin.isSome = true ∨ ¬ awake s.dev →
    leaves (.jobCompletion j.num) s s.dev) ∧
  (∀ (s : State) (n : Nat), s.dev.findJob n = none → leaves (.jobCompletion n) s s.dev) ∧
  (∀ s : State, s.dev.clk.runTick ≠ 0 → s.dev.clk.runTick % 2 ^ 24 = 0 → s.dev.vault.shares.isSome = true →
    s.dev.vault.debug = false → awake s.dev →
    (s.dev.vault.trngOk = true → gives .resplit s (fun d => RgWrite.resplit ∈ d.store.rgq ∧ d.vault = s.dev.vault)) ∧
    (s.dev.vault.trngOk = false → leaves .resplit s { s.dev with vault := { s.dev.vault with rspPend := true } })) ∧
  (∀ s : State, s.dev.clk.runTick % 2 ^ 24 ≠ 0 → leaves .resplit s s.dev) ∧
  (∀ s : State, s.dev.clk.runTick ≠ 0 → s.dev.clk.runTick % 2 ^ 20 = 0 → s.dev.vault.trngOk = true →
    gives .maskRefresh s (fun d => d = { s.dev with vault := d.vault } ∧ d.vault.draw =
      s.dev.vault.draw + 32 * (s.dev.vault.slots.filter (fun e => e.2.working)).length)) ∧
  (∀ (s : State) (kind : Nat), kind < 3 → gives (.trngFail kind) s (fun d => d.vault.trngOk = false ∧
    d.vault.retryAt = s.dev.clk.runTick ∧ d.vault.slots = s.dev.vault.slots ∧ d.clk = s.dev.clk)) ∧
  (∀ (s : State), s.dev.vault.trngOk = false → s.dev.vault.retryAt + 960000 ≤ s.dev.clk.runTick →
    leaves (.trngRetry true) s { s.dev with vault := { s.dev.vault with trngOk := true, retryAt := s.dev.clk.runTick } } ∧
    gives (.trngRetry false) s (fun d => d.vault.trngOk = false ∧ d.vault.retryAt = s.dev.clk.runTick)) ∧
  (∀ (s : State) (pass : Bool), s.dev.vault.trngOk = true ∨ s.dev.clk.runTick < s.dev.vault.retryAt + 960000 →
    leaves (.trngRetry pass) s s.dev)

/-- A panel frame starts under a grant that outlasts it, and counts; PMIC_EN falls 16 ticks after the last grant; the strip is
rendered at offset 736; a press released within 2 s shows the next item, one held longer the next list, the scroll timer
advances, and 120 s without a press return to list 0 (R350, R355, R363, R364). -/
def Obligations.DisplayEventsTakeEffect : Prop :=
  (∀ (s : State) (g : Draw), s.dev.dspGrant = some g → s.dev.isLive = true → s.dev.dsp.scan = none → s.dev.dsp.pmic = true →
    s.dev.dsp.nextAt ≤ s.dev.clk.runTick → s.dev.clk.runTick + s.dev.panelTicks ≤ g.until_ →
    leaves .panelFrame s { s.dev with dsp := { s.dev.dsp with
      scan := some (s.dev.clk.runTick, s.dev.band, []), frames := min (s.dev.dsp.frames + 1) (2 ^ 32 - 1),
      nextAt := s.dev.clk.runTick + s.dev.panelTicks } }) ∧
  (∀ s : State, s.dev.dspGrant = none → leaves .panelFrame s s.dev) ∧
  (∀ s : State, s.dev.dsp.pmic = true → s.dev.dspGrant = none →
    (s.dev.dsp.retAt + 16 ≤ s.dev.clk.runTick → leaves .pmicEnFall s { s.dev with dsp := { s.dev.dsp with pmic := false } }) ∧
    (s.dev.clk.runTick < s.dev.dsp.retAt + 16 → leaves .pmicEnFall s s.dev)) ∧
  (∀ s : State, s.dev.isLive = true → s.dev.off = 736 → (s.dev.frameInSec = 0 ∨ s.dev.dsp.dirty = true) → awake s.dev →
    gives .stripRender s (fun d => d.dsp.dirty = false ∧ d.clk = s.dev.clk ∧ d.dsp.item = s.dev.dsp.item)) ∧
  (∀ s : State, s.dev.off ≠ 736 → leaves .stripRender s s.dev) ∧
  (∀ s : State, s.dev.released = true →
    leaves .scrollN s { s.dev with dsp := { s.dev.dsp with
      item := if s.dev.dsp.item + 1 < s.dev.listCount s.dev.dsp.list then s.dev.dsp.item + 1 else 0, dirty := true,
      advAt := s.dev.clk.secs, pressAt := s.dev.clk.secs, scroll := none, scrollRun := 0 } }) ∧
  (∀ s : State, s.dev.heldPress = true →
    leaves .scrollNHold s { s.dev with dsp := { s.dev.dsp with
      list := s.dev.nextList s.dev.dsp.list, item := 0, dirty := true, advAt := s.dev.clk.secs, pressAt := s.dev.clk.secs,
      scroll := s.dev.dsp.scroll.map (fun p => (p.1, true)) } }) ∧
  (∀ s : State, (s.dev.released = false → leaves .scrollN s s.dev) ∧ (s.dev.heldPress = false → leaves .scrollNHold s s.dev) ∧
    (s.dev.pressed = false → leaves .listReturn s s.dev)) ∧
  (∀ s : State, s.dev.isLive = true → awake s.dev → s.dev.clk.tick = 0 → u8 (s.dev.listBytes s.dev.dsp.list) 1 ≠ 0 →
    (s.dev.dsp.advAt + u8 (s.dev.listBytes s.dev.dsp.list) 1 ≤ s.dev.clk.secs → leaves .scrollTimer s s.dev.nextItem) ∧
    (s.dev.clk.secs < s.dev.dsp.advAt + u8 (s.dev.listBytes s.dev.dsp.list) 1 → leaves .scrollTimer s s.dev)) ∧
  (∀ s : State, s.dev.pressed = true → s.dev.dsp.list ≠ 0 →
    (s.dev.dsp.pressAt + 120 ≤ s.dev.clk.secs → leaves .listReturn s { s.dev with dsp := { s.dev.dsp with
      list := 0, item := 0, dirty := true, advAt := s.dev.clk.secs } }) ∧
    (s.dev.clk.secs < s.dev.dsp.pressAt + 120 → leaves .listReturn s s.dev))

/-! ## Rules of single functions -/

/-- SEQ values compare in 32-bit serial order: x is newer than y when (x - y) mod 2^32 lies from 1 to 2^31 - 1 (R216). -/
def Obligations.SerialOrderOfSequenceNumbers : Prop :=
  ∀ x y : Nat, x < 2 ^ 32 → y < 2 ^ 32 →
    (serialNewer x y = true ↔ 1 ≤ ((x : Int) - y) % 2 ^ 32 ∧ ((x : Int) - y) % 2 ^ 32 ≤ 2 ^ 31 - 1) ∧
    ¬ (serialNewer x y = true ∧ serialNewer y x = true)

/-- The loader accepts a slot only when both signatures verify against the two image-authority keys; when either key is absent
no image is valid (R186). -/
def Obligations.NoImageIsValidWithoutBothAuthorities : Prop :=
  ∀ (d : Dev) (k : Nat),
    (d.vault.authM = none ∨ d.vault.authO = none → d.slotBad k ≠ none) ∧
    (d.slotBad k ≠ none ∨ ∃ m o, d.vault.authM = some m ∧ d.vault.authO = some o ∧
      let b := d.slotBytes k
      Config.ecdsaVerify o (baseDigestOf b) (sliceB b (u32 b 8 - 64) 64) = true ∧
      Config.ecdsaVerify m (Config.sha256 (legalStatement b)) (sliceB b (u32 b 8 - 128) 64) = true)

/-- The KDF forms block i as CMAC over the 32-bit big-endian index, label, a zero byte, context and the output length, for
i = 1 to ⌈L/128⌉, and answers the first L bits of the blocks joined, L a whole number of bytes (R320). -/
def Obligations.KdfJoinsItsBlocks : Prop :=
  ∀ (kin label ctx : List Byte) (bits : Nat), bits % 8 = 0 →
    let block (i : Nat) : List Byte := Config.cmac kin (beBytes 4 i ++ label ++ [0#8] ++ ctx ++ beBytes 4 bits)
    (kdf kin label ctx bits).length = bits / 8 ∧
    ∀ i : Nat, i < (bits + 127) / 128 →
      ((kdf kin label ctx bits).drop (16 * i)).take 16 = (block (i + 1)).take (bits / 8 - 16 * i)
end

