-- ==== Sys2Proof/Laws/State.lean ====
section
/-! SUPPORT. One lemma per field per update of the device and the state, each true by rfl. -/

namespace Sys2Proof.Machine

section StateFields
variable (s : State) (f : Dev → Dev) (d : Dev)

@[simp] theorem State.onDev_dev : (s.onDev f).dev = f s.dev := rfl
@[simp] theorem State.onDev_seen : (s.onDev f).seen = s.seen := rfl
@[simp] theorem State.onDev_pending : (s.onDev f).pending = s.pending := rfl

end StateFields

section mapClkFields
variable (d : Dev) (f : Clock → Clock)

@[simp] theorem Dev.mapClk_clk : (d.mapClk f).clk = f d.clk := rfl
@[simp] theorem Dev.mapClk_regs : (d.mapClk f).regs = d.regs := rfl
@[simp] theorem Dev.mapClk_lanes : (d.mapClk f).lanes = d.lanes := rfl
@[simp] theorem Dev.mapClk_rot : (d.mapClk f).rot = d.rot := rfl
@[simp] theorem Dev.mapClk_straits : (d.mapClk f).straits = d.straits := rfl
@[simp] theorem Dev.mapClk_elems : (d.mapClk f).elems = d.elems := rfl
@[simp] theorem Dev.mapClk_engines : (d.mapClk f).engines = d.engines := rfl
@[simp] theorem Dev.mapClk_ticks : (d.mapClk f).ticks = d.ticks := rfl
@[simp] theorem Dev.mapClk_run : (d.mapClk f).run = d.run := rfl
@[simp] theorem Dev.mapClk_store : (d.mapClk f).store = d.store := rfl
@[simp] theorem Dev.mapClk_pwr : (d.mapClk f).pwr = d.pwr := rfl
@[simp] theorem Dev.mapClk_bak : (d.mapClk f).bak = d.bak := rfl
@[simp] theorem Dev.mapClk_ports : (d.mapClk f).ports = d.ports := rfl
@[simp] theorem Dev.mapClk_partners : (d.mapClk f).partners = d.partners := rfl
@[simp] theorem Dev.mapClk_evt : (d.mapClk f).evt = d.evt := rfl
@[simp] theorem Dev.mapClk_tam : (d.mapClk f).tam = d.tam := rfl
@[simp] theorem Dev.mapClk_vault : (d.mapClk f).vault = d.vault := rfl
@[simp] theorem Dev.mapClk_dsp : (d.mapClk f).dsp = d.dsp := rfl
@[simp] theorem Dev.mapClk_caps : (d.mapClk f).caps = d.caps := rfl
@[simp] theorem Dev.mapClk_capSeq : (d.mapClk f).capSeq = d.capSeq := rfl
@[simp] theorem Dev.mapClk_link : (d.mapClk f).link = d.link := rfl
@[simp] theorem Dev.mapClk_img : (d.mapClk f).img = d.img := rfl
@[simp] theorem Dev.mapClk_rtdOn : (d.mapClk f).rtdOn = d.rtdOn := rfl
@[simp] theorem Dev.mapClk_rtdDone : (d.mapClk f).rtdDone = d.rtdDone := rfl
@[simp] theorem Dev.mapClk_capReq : (d.mapClk f).capReq = d.capReq := rfl
@[simp] theorem Dev.mapClk_tap : (d.mapClk f).tap = d.tap := rfl

end mapClkFields

section mapRunFields
variable (d : Dev) (f : Running → Running)

@[simp] theorem Dev.mapRun_clk : (d.mapRun f).clk = d.clk := rfl
@[simp] theorem Dev.mapRun_regs : (d.mapRun f).regs = d.regs := rfl
@[simp] theorem Dev.mapRun_lanes : (d.mapRun f).lanes = d.lanes := rfl
@[simp] theorem Dev.mapRun_rot : (d.mapRun f).rot = d.rot := rfl
@[simp] theorem Dev.mapRun_straits : (d.mapRun f).straits = d.straits := rfl
@[simp] theorem Dev.mapRun_elems : (d.mapRun f).elems = d.elems := rfl
@[simp] theorem Dev.mapRun_engines : (d.mapRun f).engines = d.engines := rfl
@[simp] theorem Dev.mapRun_ticks : (d.mapRun f).ticks = d.ticks := rfl
@[simp] theorem Dev.mapRun_run : (d.mapRun f).run = f d.run := rfl
@[simp] theorem Dev.mapRun_store : (d.mapRun f).store = d.store := rfl
@[simp] theorem Dev.mapRun_pwr : (d.mapRun f).pwr = d.pwr := rfl
@[simp] theorem Dev.mapRun_bak : (d.mapRun f).bak = d.bak := rfl
@[simp] theorem Dev.mapRun_ports : (d.mapRun f).ports = d.ports := rfl
@[simp] theorem Dev.mapRun_partners : (d.mapRun f).partners = d.partners := rfl
@[simp] theorem Dev.mapRun_evt : (d.mapRun f).evt = d.evt := rfl
@[simp] theorem Dev.mapRun_tam : (d.mapRun f).tam = d.tam := rfl
@[simp] theorem Dev.mapRun_vault : (d.mapRun f).vault = d.vault := rfl
@[simp] theorem Dev.mapRun_dsp : (d.mapRun f).dsp = d.dsp := rfl
@[simp] theorem Dev.mapRun_caps : (d.mapRun f).caps = d.caps := rfl
@[simp] theorem Dev.mapRun_capSeq : (d.mapRun f).capSeq = d.capSeq := rfl
@[simp] theorem Dev.mapRun_link : (d.mapRun f).link = d.link := rfl
@[simp] theorem Dev.mapRun_img : (d.mapRun f).img = d.img := rfl
@[simp] theorem Dev.mapRun_rtdOn : (d.mapRun f).rtdOn = d.rtdOn := rfl
@[simp] theorem Dev.mapRun_rtdDone : (d.mapRun f).rtdDone = d.rtdDone := rfl
@[simp] theorem Dev.mapRun_capReq : (d.mapRun f).capReq = d.capReq := rfl
@[simp] theorem Dev.mapRun_tap : (d.mapRun f).tap = d.tap := rfl

end mapRunFields

section mapStoreFields
variable (d : Dev) (f : Store → Store)

@[simp] theorem Dev.mapStore_clk : (d.mapStore f).clk = d.clk := rfl
@[simp] theorem Dev.mapStore_regs : (d.mapStore f).regs = d.regs := rfl
@[simp] theorem Dev.mapStore_lanes : (d.mapStore f).lanes = d.lanes := rfl
@[simp] theorem Dev.mapStore_rot : (d.mapStore f).rot = d.rot := rfl
@[simp] theorem Dev.mapStore_straits : (d.mapStore f).straits = d.straits := rfl
@[simp] theorem Dev.mapStore_elems : (d.mapStore f).elems = d.elems := rfl
@[simp] theorem Dev.mapStore_engines : (d.mapStore f).engines = d.engines := rfl
@[simp] theorem Dev.mapStore_ticks : (d.mapStore f).ticks = d.ticks := rfl
@[simp] theorem Dev.mapStore_run : (d.mapStore f).run = d.run := rfl
@[simp] theorem Dev.mapStore_store : (d.mapStore f).store = f d.store := rfl
@[simp] theorem Dev.mapStore_pwr : (d.mapStore f).pwr = d.pwr := rfl
@[simp] theorem Dev.mapStore_bak : (d.mapStore f).bak = d.bak := rfl
@[simp] theorem Dev.mapStore_ports : (d.mapStore f).ports = d.ports := rfl
@[simp] theorem Dev.mapStore_partners : (d.mapStore f).partners = d.partners := rfl
@[simp] theorem Dev.mapStore_evt : (d.mapStore f).evt = d.evt := rfl
@[simp] theorem Dev.mapStore_tam : (d.mapStore f).tam = d.tam := rfl
@[simp] theorem Dev.mapStore_vault : (d.mapStore f).vault = d.vault := rfl
@[simp] theorem Dev.mapStore_dsp : (d.mapStore f).dsp = d.dsp := rfl
@[simp] theorem Dev.mapStore_caps : (d.mapStore f).caps = d.caps := rfl
@[simp] theorem Dev.mapStore_capSeq : (d.mapStore f).capSeq = d.capSeq := rfl
@[simp] theorem Dev.mapStore_link : (d.mapStore f).link = d.link := rfl
@[simp] theorem Dev.mapStore_img : (d.mapStore f).img = d.img := rfl
@[simp] theorem Dev.mapStore_rtdOn : (d.mapStore f).rtdOn = d.rtdOn := rfl
@[simp] theorem Dev.mapStore_rtdDone : (d.mapStore f).rtdDone = d.rtdDone := rfl
@[simp] theorem Dev.mapStore_capReq : (d.mapStore f).capReq = d.capReq := rfl
@[simp] theorem Dev.mapStore_tap : (d.mapStore f).tap = d.tap := rfl

end mapStoreFields

section mapPwrFields
variable (d : Dev) (f : Power → Power)

@[simp] theorem Dev.mapPwr_clk : (d.mapPwr f).clk = d.clk := rfl
@[simp] theorem Dev.mapPwr_regs : (d.mapPwr f).regs = d.regs := rfl
@[simp] theorem Dev.mapPwr_lanes : (d.mapPwr f).lanes = d.lanes := rfl
@[simp] theorem Dev.mapPwr_rot : (d.mapPwr f).rot = d.rot := rfl
@[simp] theorem Dev.mapPwr_straits : (d.mapPwr f).straits = d.straits := rfl
@[simp] theorem Dev.mapPwr_elems : (d.mapPwr f).elems = d.elems := rfl
@[simp] theorem Dev.mapPwr_engines : (d.mapPwr f).engines = d.engines := rfl
@[simp] theorem Dev.mapPwr_ticks : (d.mapPwr f).ticks = d.ticks := rfl
@[simp] theorem Dev.mapPwr_run : (d.mapPwr f).run = d.run := rfl
@[simp] theorem Dev.mapPwr_store : (d.mapPwr f).store = d.store := rfl
@[simp] theorem Dev.mapPwr_pwr : (d.mapPwr f).pwr = f d.pwr := rfl
@[simp] theorem Dev.mapPwr_bak : (d.mapPwr f).bak = d.bak := rfl
@[simp] theorem Dev.mapPwr_ports : (d.mapPwr f).ports = d.ports := rfl
@[simp] theorem Dev.mapPwr_partners : (d.mapPwr f).partners = d.partners := rfl
@[simp] theorem Dev.mapPwr_evt : (d.mapPwr f).evt = d.evt := rfl
@[simp] theorem Dev.mapPwr_tam : (d.mapPwr f).tam = d.tam := rfl
@[simp] theorem Dev.mapPwr_vault : (d.mapPwr f).vault = d.vault := rfl
@[simp] theorem Dev.mapPwr_dsp : (d.mapPwr f).dsp = d.dsp := rfl
@[simp] theorem Dev.mapPwr_caps : (d.mapPwr f).caps = d.caps := rfl
@[simp] theorem Dev.mapPwr_capSeq : (d.mapPwr f).capSeq = d.capSeq := rfl
@[simp] theorem Dev.mapPwr_link : (d.mapPwr f).link = d.link := rfl
@[simp] theorem Dev.mapPwr_img : (d.mapPwr f).img = d.img := rfl
@[simp] theorem Dev.mapPwr_rtdOn : (d.mapPwr f).rtdOn = d.rtdOn := rfl
@[simp] theorem Dev.mapPwr_rtdDone : (d.mapPwr f).rtdDone = d.rtdDone := rfl
@[simp] theorem Dev.mapPwr_capReq : (d.mapPwr f).capReq = d.capReq := rfl
@[simp] theorem Dev.mapPwr_tap : (d.mapPwr f).tap = d.tap := rfl

end mapPwrFields

section mapBakFields
variable (d : Dev) (f : Backup → Backup)

@[simp] theorem Dev.mapBak_clk : (d.mapBak f).clk = d.clk := rfl
@[simp] theorem Dev.mapBak_regs : (d.mapBak f).regs = d.regs := rfl
@[simp] theorem Dev.mapBak_lanes : (d.mapBak f).lanes = d.lanes := rfl
@[simp] theorem Dev.mapBak_rot : (d.mapBak f).rot = d.rot := rfl
@[simp] theorem Dev.mapBak_straits : (d.mapBak f).straits = d.straits := rfl
@[simp] theorem Dev.mapBak_elems : (d.mapBak f).elems = d.elems := rfl
@[simp] theorem Dev.mapBak_engines : (d.mapBak f).engines = d.engines := rfl
@[simp] theorem Dev.mapBak_ticks : (d.mapBak f).ticks = d.ticks := rfl
@[simp] theorem Dev.mapBak_run : (d.mapBak f).run = d.run := rfl
@[simp] theorem Dev.mapBak_store : (d.mapBak f).store = d.store := rfl
@[simp] theorem Dev.mapBak_pwr : (d.mapBak f).pwr = d.pwr := rfl
@[simp] theorem Dev.mapBak_bak : (d.mapBak f).bak = f d.bak := rfl
@[simp] theorem Dev.mapBak_ports : (d.mapBak f).ports = d.ports := rfl
@[simp] theorem Dev.mapBak_partners : (d.mapBak f).partners = d.partners := rfl
@[simp] theorem Dev.mapBak_evt : (d.mapBak f).evt = d.evt := rfl
@[simp] theorem Dev.mapBak_tam : (d.mapBak f).tam = d.tam := rfl
@[simp] theorem Dev.mapBak_vault : (d.mapBak f).vault = d.vault := rfl
@[simp] theorem Dev.mapBak_dsp : (d.mapBak f).dsp = d.dsp := rfl
@[simp] theorem Dev.mapBak_caps : (d.mapBak f).caps = d.caps := rfl
@[simp] theorem Dev.mapBak_capSeq : (d.mapBak f).capSeq = d.capSeq := rfl
@[simp] theorem Dev.mapBak_link : (d.mapBak f).link = d.link := rfl
@[simp] theorem Dev.mapBak_img : (d.mapBak f).img = d.img := rfl
@[simp] theorem Dev.mapBak_rtdOn : (d.mapBak f).rtdOn = d.rtdOn := rfl
@[simp] theorem Dev.mapBak_rtdDone : (d.mapBak f).rtdDone = d.rtdDone := rfl
@[simp] theorem Dev.mapBak_capReq : (d.mapBak f).capReq = d.capReq := rfl
@[simp] theorem Dev.mapBak_tap : (d.mapBak f).tap = d.tap := rfl

end mapBakFields

section mapEvtFields
variable (d : Dev) (f : Events → Events)

@[simp] theorem Dev.mapEvt_clk : (d.mapEvt f).clk = d.clk := rfl
@[simp] theorem Dev.mapEvt_regs : (d.mapEvt f).regs = d.regs := rfl
@[simp] theorem Dev.mapEvt_lanes : (d.mapEvt f).lanes = d.lanes := rfl
@[simp] theorem Dev.mapEvt_rot : (d.mapEvt f).rot = d.rot := rfl
@[simp] theorem Dev.mapEvt_straits : (d.mapEvt f).straits = d.straits := rfl
@[simp] theorem Dev.mapEvt_elems : (d.mapEvt f).elems = d.elems := rfl
@[simp] theorem Dev.mapEvt_engines : (d.mapEvt f).engines = d.engines := rfl
@[simp] theorem Dev.mapEvt_ticks : (d.mapEvt f).ticks = d.ticks := rfl
@[simp] theorem Dev.mapEvt_run : (d.mapEvt f).run = d.run := rfl
@[simp] theorem Dev.mapEvt_store : (d.mapEvt f).store = d.store := rfl
@[simp] theorem Dev.mapEvt_pwr : (d.mapEvt f).pwr = d.pwr := rfl
@[simp] theorem Dev.mapEvt_bak : (d.mapEvt f).bak = d.bak := rfl
@[simp] theorem Dev.mapEvt_ports : (d.mapEvt f).ports = d.ports := rfl
@[simp] theorem Dev.mapEvt_partners : (d.mapEvt f).partners = d.partners := rfl
@[simp] theorem Dev.mapEvt_evt : (d.mapEvt f).evt = f d.evt := rfl
@[simp] theorem Dev.mapEvt_tam : (d.mapEvt f).tam = d.tam := rfl
@[simp] theorem Dev.mapEvt_vault : (d.mapEvt f).vault = d.vault := rfl
@[simp] theorem Dev.mapEvt_dsp : (d.mapEvt f).dsp = d.dsp := rfl
@[simp] theorem Dev.mapEvt_caps : (d.mapEvt f).caps = d.caps := rfl
@[simp] theorem Dev.mapEvt_capSeq : (d.mapEvt f).capSeq = d.capSeq := rfl
@[simp] theorem Dev.mapEvt_link : (d.mapEvt f).link = d.link := rfl
@[simp] theorem Dev.mapEvt_img : (d.mapEvt f).img = d.img := rfl
@[simp] theorem Dev.mapEvt_rtdOn : (d.mapEvt f).rtdOn = d.rtdOn := rfl
@[simp] theorem Dev.mapEvt_rtdDone : (d.mapEvt f).rtdDone = d.rtdDone := rfl
@[simp] theorem Dev.mapEvt_capReq : (d.mapEvt f).capReq = d.capReq := rfl
@[simp] theorem Dev.mapEvt_tap : (d.mapEvt f).tap = d.tap := rfl

end mapEvtFields

section mapTamFields
variable (d : Dev) (f : Tamper → Tamper)

@[simp] theorem Dev.mapTam_clk : (d.mapTam f).clk = d.clk := rfl
@[simp] theorem Dev.mapTam_regs : (d.mapTam f).regs = d.regs := rfl
@[simp] theorem Dev.mapTam_lanes : (d.mapTam f).lanes = d.lanes := rfl
@[simp] theorem Dev.mapTam_rot : (d.mapTam f).rot = d.rot := rfl
@[simp] theorem Dev.mapTam_straits : (d.mapTam f).straits = d.straits := rfl
@[simp] theorem Dev.mapTam_elems : (d.mapTam f).elems = d.elems := rfl
@[simp] theorem Dev.mapTam_engines : (d.mapTam f).engines = d.engines := rfl
@[simp] theorem Dev.mapTam_ticks : (d.mapTam f).ticks = d.ticks := rfl
@[simp] theorem Dev.mapTam_run : (d.mapTam f).run = d.run := rfl
@[simp] theorem Dev.mapTam_store : (d.mapTam f).store = d.store := rfl
@[simp] theorem Dev.mapTam_pwr : (d.mapTam f).pwr = d.pwr := rfl
@[simp] theorem Dev.mapTam_bak : (d.mapTam f).bak = d.bak := rfl
@[simp] theorem Dev.mapTam_ports : (d.mapTam f).ports = d.ports := rfl
@[simp] theorem Dev.mapTam_partners : (d.mapTam f).partners = d.partners := rfl
@[simp] theorem Dev.mapTam_evt : (d.mapTam f).evt = d.evt := rfl
@[simp] theorem Dev.mapTam_tam : (d.mapTam f).tam = f d.tam := rfl
@[simp] theorem Dev.mapTam_vault : (d.mapTam f).vault = d.vault := rfl
@[simp] theorem Dev.mapTam_dsp : (d.mapTam f).dsp = d.dsp := rfl
@[simp] theorem Dev.mapTam_caps : (d.mapTam f).caps = d.caps := rfl
@[simp] theorem Dev.mapTam_capSeq : (d.mapTam f).capSeq = d.capSeq := rfl
@[simp] theorem Dev.mapTam_link : (d.mapTam f).link = d.link := rfl
@[simp] theorem Dev.mapTam_img : (d.mapTam f).img = d.img := rfl
@[simp] theorem Dev.mapTam_rtdOn : (d.mapTam f).rtdOn = d.rtdOn := rfl
@[simp] theorem Dev.mapTam_rtdDone : (d.mapTam f).rtdDone = d.rtdDone := rfl
@[simp] theorem Dev.mapTam_capReq : (d.mapTam f).capReq = d.capReq := rfl
@[simp] theorem Dev.mapTam_tap : (d.mapTam f).tap = d.tap := rfl

end mapTamFields

section mapVaultFields
variable (d : Dev) (f : Vault → Vault)

@[simp] theorem Dev.mapVault_clk : (d.mapVault f).clk = d.clk := rfl
@[simp] theorem Dev.mapVault_regs : (d.mapVault f).regs = d.regs := rfl
@[simp] theorem Dev.mapVault_lanes : (d.mapVault f).lanes = d.lanes := rfl
@[simp] theorem Dev.mapVault_rot : (d.mapVault f).rot = d.rot := rfl
@[simp] theorem Dev.mapVault_straits : (d.mapVault f).straits = d.straits := rfl
@[simp] theorem Dev.mapVault_elems : (d.mapVault f).elems = d.elems := rfl
@[simp] theorem Dev.mapVault_engines : (d.mapVault f).engines = d.engines := rfl
@[simp] theorem Dev.mapVault_ticks : (d.mapVault f).ticks = d.ticks := rfl
@[simp] theorem Dev.mapVault_run : (d.mapVault f).run = d.run := rfl
@[simp] theorem Dev.mapVault_store : (d.mapVault f).store = d.store := rfl
@[simp] theorem Dev.mapVault_pwr : (d.mapVault f).pwr = d.pwr := rfl
@[simp] theorem Dev.mapVault_bak : (d.mapVault f).bak = d.bak := rfl
@[simp] theorem Dev.mapVault_ports : (d.mapVault f).ports = d.ports := rfl
@[simp] theorem Dev.mapVault_partners : (d.mapVault f).partners = d.partners := rfl
@[simp] theorem Dev.mapVault_evt : (d.mapVault f).evt = d.evt := rfl
@[simp] theorem Dev.mapVault_tam : (d.mapVault f).tam = d.tam := rfl
@[simp] theorem Dev.mapVault_vault : (d.mapVault f).vault = f d.vault := rfl
@[simp] theorem Dev.mapVault_dsp : (d.mapVault f).dsp = d.dsp := rfl
@[simp] theorem Dev.mapVault_caps : (d.mapVault f).caps = d.caps := rfl
@[simp] theorem Dev.mapVault_capSeq : (d.mapVault f).capSeq = d.capSeq := rfl
@[simp] theorem Dev.mapVault_link : (d.mapVault f).link = d.link := rfl
@[simp] theorem Dev.mapVault_img : (d.mapVault f).img = d.img := rfl
@[simp] theorem Dev.mapVault_rtdOn : (d.mapVault f).rtdOn = d.rtdOn := rfl
@[simp] theorem Dev.mapVault_rtdDone : (d.mapVault f).rtdDone = d.rtdDone := rfl
@[simp] theorem Dev.mapVault_capReq : (d.mapVault f).capReq = d.capReq := rfl
@[simp] theorem Dev.mapVault_tap : (d.mapVault f).tap = d.tap := rfl

end mapVaultFields

section mapDspFields
variable (d : Dev) (f : Display → Display)

@[simp] theorem Dev.mapDsp_clk : (d.mapDsp f).clk = d.clk := rfl
@[simp] theorem Dev.mapDsp_regs : (d.mapDsp f).regs = d.regs := rfl
@[simp] theorem Dev.mapDsp_lanes : (d.mapDsp f).lanes = d.lanes := rfl
@[simp] theorem Dev.mapDsp_rot : (d.mapDsp f).rot = d.rot := rfl
@[simp] theorem Dev.mapDsp_straits : (d.mapDsp f).straits = d.straits := rfl
@[simp] theorem Dev.mapDsp_elems : (d.mapDsp f).elems = d.elems := rfl
@[simp] theorem Dev.mapDsp_engines : (d.mapDsp f).engines = d.engines := rfl
@[simp] theorem Dev.mapDsp_ticks : (d.mapDsp f).ticks = d.ticks := rfl
@[simp] theorem Dev.mapDsp_run : (d.mapDsp f).run = d.run := rfl
@[simp] theorem Dev.mapDsp_store : (d.mapDsp f).store = d.store := rfl
@[simp] theorem Dev.mapDsp_pwr : (d.mapDsp f).pwr = d.pwr := rfl
@[simp] theorem Dev.mapDsp_bak : (d.mapDsp f).bak = d.bak := rfl
@[simp] theorem Dev.mapDsp_ports : (d.mapDsp f).ports = d.ports := rfl
@[simp] theorem Dev.mapDsp_partners : (d.mapDsp f).partners = d.partners := rfl
@[simp] theorem Dev.mapDsp_evt : (d.mapDsp f).evt = d.evt := rfl
@[simp] theorem Dev.mapDsp_tam : (d.mapDsp f).tam = d.tam := rfl
@[simp] theorem Dev.mapDsp_vault : (d.mapDsp f).vault = d.vault := rfl
@[simp] theorem Dev.mapDsp_dsp : (d.mapDsp f).dsp = f d.dsp := rfl
@[simp] theorem Dev.mapDsp_caps : (d.mapDsp f).caps = d.caps := rfl
@[simp] theorem Dev.mapDsp_capSeq : (d.mapDsp f).capSeq = d.capSeq := rfl
@[simp] theorem Dev.mapDsp_link : (d.mapDsp f).link = d.link := rfl
@[simp] theorem Dev.mapDsp_img : (d.mapDsp f).img = d.img := rfl
@[simp] theorem Dev.mapDsp_rtdOn : (d.mapDsp f).rtdOn = d.rtdOn := rfl
@[simp] theorem Dev.mapDsp_rtdDone : (d.mapDsp f).rtdDone = d.rtdDone := rfl
@[simp] theorem Dev.mapDsp_capReq : (d.mapDsp f).capReq = d.capReq := rfl
@[simp] theorem Dev.mapDsp_tap : (d.mapDsp f).tap = d.tap := rfl

end mapDspFields

section mapLinkFields
variable (d : Dev) (f : HostLink → HostLink)

@[simp] theorem Dev.mapLink_clk : (d.mapLink f).clk = d.clk := rfl
@[simp] theorem Dev.mapLink_regs : (d.mapLink f).regs = d.regs := rfl
@[simp] theorem Dev.mapLink_lanes : (d.mapLink f).lanes = d.lanes := rfl
@[simp] theorem Dev.mapLink_rot : (d.mapLink f).rot = d.rot := rfl
@[simp] theorem Dev.mapLink_straits : (d.mapLink f).straits = d.straits := rfl
@[simp] theorem Dev.mapLink_elems : (d.mapLink f).elems = d.elems := rfl
@[simp] theorem Dev.mapLink_engines : (d.mapLink f).engines = d.engines := rfl
@[simp] theorem Dev.mapLink_ticks : (d.mapLink f).ticks = d.ticks := rfl
@[simp] theorem Dev.mapLink_run : (d.mapLink f).run = d.run := rfl
@[simp] theorem Dev.mapLink_store : (d.mapLink f).store = d.store := rfl
@[simp] theorem Dev.mapLink_pwr : (d.mapLink f).pwr = d.pwr := rfl
@[simp] theorem Dev.mapLink_bak : (d.mapLink f).bak = d.bak := rfl
@[simp] theorem Dev.mapLink_ports : (d.mapLink f).ports = d.ports := rfl
@[simp] theorem Dev.mapLink_partners : (d.mapLink f).partners = d.partners := rfl
@[simp] theorem Dev.mapLink_evt : (d.mapLink f).evt = d.evt := rfl
@[simp] theorem Dev.mapLink_tam : (d.mapLink f).tam = d.tam := rfl
@[simp] theorem Dev.mapLink_vault : (d.mapLink f).vault = d.vault := rfl
@[simp] theorem Dev.mapLink_dsp : (d.mapLink f).dsp = d.dsp := rfl
@[simp] theorem Dev.mapLink_caps : (d.mapLink f).caps = d.caps := rfl
@[simp] theorem Dev.mapLink_capSeq : (d.mapLink f).capSeq = d.capSeq := rfl
@[simp] theorem Dev.mapLink_link : (d.mapLink f).link = f d.link := rfl
@[simp] theorem Dev.mapLink_img : (d.mapLink f).img = d.img := rfl
@[simp] theorem Dev.mapLink_rtdOn : (d.mapLink f).rtdOn = d.rtdOn := rfl
@[simp] theorem Dev.mapLink_rtdDone : (d.mapLink f).rtdDone = d.rtdDone := rfl
@[simp] theorem Dev.mapLink_capReq : (d.mapLink f).capReq = d.capReq := rfl
@[simp] theorem Dev.mapLink_tap : (d.mapLink f).tap = d.tap := rfl

end mapLinkFields

section mapImgFields
variable (d : Dev) (f : ImageSt → ImageSt)

@[simp] theorem Dev.mapImg_clk : (d.mapImg f).clk = d.clk := rfl
@[simp] theorem Dev.mapImg_regs : (d.mapImg f).regs = d.regs := rfl
@[simp] theorem Dev.mapImg_lanes : (d.mapImg f).lanes = d.lanes := rfl
@[simp] theorem Dev.mapImg_rot : (d.mapImg f).rot = d.rot := rfl
@[simp] theorem Dev.mapImg_straits : (d.mapImg f).straits = d.straits := rfl
@[simp] theorem Dev.mapImg_elems : (d.mapImg f).elems = d.elems := rfl
@[simp] theorem Dev.mapImg_engines : (d.mapImg f).engines = d.engines := rfl
@[simp] theorem Dev.mapImg_ticks : (d.mapImg f).ticks = d.ticks := rfl
@[simp] theorem Dev.mapImg_run : (d.mapImg f).run = d.run := rfl
@[simp] theorem Dev.mapImg_store : (d.mapImg f).store = d.store := rfl
@[simp] theorem Dev.mapImg_pwr : (d.mapImg f).pwr = d.pwr := rfl
@[simp] theorem Dev.mapImg_bak : (d.mapImg f).bak = d.bak := rfl
@[simp] theorem Dev.mapImg_ports : (d.mapImg f).ports = d.ports := rfl
@[simp] theorem Dev.mapImg_partners : (d.mapImg f).partners = d.partners := rfl
@[simp] theorem Dev.mapImg_evt : (d.mapImg f).evt = d.evt := rfl
@[simp] theorem Dev.mapImg_tam : (d.mapImg f).tam = d.tam := rfl
@[simp] theorem Dev.mapImg_vault : (d.mapImg f).vault = d.vault := rfl
@[simp] theorem Dev.mapImg_dsp : (d.mapImg f).dsp = d.dsp := rfl
@[simp] theorem Dev.mapImg_caps : (d.mapImg f).caps = d.caps := rfl
@[simp] theorem Dev.mapImg_capSeq : (d.mapImg f).capSeq = d.capSeq := rfl
@[simp] theorem Dev.mapImg_link : (d.mapImg f).link = d.link := rfl
@[simp] theorem Dev.mapImg_img : (d.mapImg f).img = f d.img := rfl
@[simp] theorem Dev.mapImg_rtdOn : (d.mapImg f).rtdOn = d.rtdOn := rfl
@[simp] theorem Dev.mapImg_rtdDone : (d.mapImg f).rtdDone = d.rtdDone := rfl
@[simp] theorem Dev.mapImg_capReq : (d.mapImg f).capReq = d.capReq := rfl
@[simp] theorem Dev.mapImg_tap : (d.mapImg f).tap = d.tap := rfl

end mapImgFields

section setLaneFields
variable (d : Dev) (n : Nat) (x : LaneSt)

@[simp] theorem Dev.setLane_clk : (d.setLane n x).clk = d.clk := rfl
@[simp] theorem Dev.setLane_regs : (d.setLane n x).regs = d.regs := rfl
@[simp] theorem Dev.setLane_lanes : (d.setLane n x).lanes = tabPut .init n x d.lanes := rfl
@[simp] theorem Dev.setLane_rot : (d.setLane n x).rot = d.rot := rfl
@[simp] theorem Dev.setLane_straits : (d.setLane n x).straits = d.straits := rfl
@[simp] theorem Dev.setLane_elems : (d.setLane n x).elems = d.elems := rfl
@[simp] theorem Dev.setLane_engines : (d.setLane n x).engines = d.engines := rfl
@[simp] theorem Dev.setLane_ticks : (d.setLane n x).ticks = d.ticks := rfl
@[simp] theorem Dev.setLane_run : (d.setLane n x).run = d.run := rfl
@[simp] theorem Dev.setLane_store : (d.setLane n x).store = d.store := rfl
@[simp] theorem Dev.setLane_pwr : (d.setLane n x).pwr = d.pwr := rfl
@[simp] theorem Dev.setLane_bak : (d.setLane n x).bak = d.bak := rfl
@[simp] theorem Dev.setLane_ports : (d.setLane n x).ports = d.ports := rfl
@[simp] theorem Dev.setLane_partners : (d.setLane n x).partners = d.partners := rfl
@[simp] theorem Dev.setLane_evt : (d.setLane n x).evt = d.evt := rfl
@[simp] theorem Dev.setLane_tam : (d.setLane n x).tam = d.tam := rfl
@[simp] theorem Dev.setLane_vault : (d.setLane n x).vault = d.vault := rfl
@[simp] theorem Dev.setLane_dsp : (d.setLane n x).dsp = d.dsp := rfl
@[simp] theorem Dev.setLane_caps : (d.setLane n x).caps = d.caps := rfl
@[simp] theorem Dev.setLane_capSeq : (d.setLane n x).capSeq = d.capSeq := rfl
@[simp] theorem Dev.setLane_link : (d.setLane n x).link = d.link := rfl
@[simp] theorem Dev.setLane_img : (d.setLane n x).img = d.img := rfl
@[simp] theorem Dev.setLane_rtdOn : (d.setLane n x).rtdOn = d.rtdOn := rfl
@[simp] theorem Dev.setLane_rtdDone : (d.setLane n x).rtdDone = d.rtdDone := rfl
@[simp] theorem Dev.setLane_capReq : (d.setLane n x).capReq = d.capReq := rfl
@[simp] theorem Dev.setLane_tap : (d.setLane n x).tap = d.tap := rfl

end setLaneFields

section setStraitFields
variable (d : Dev) (n : Nat) (x : StraitSt)

@[simp] theorem Dev.setStrait_clk : (d.setStrait n x).clk = d.clk := rfl
@[simp] theorem Dev.setStrait_regs : (d.setStrait n x).regs = d.regs := rfl
@[simp] theorem Dev.setStrait_lanes : (d.setStrait n x).lanes = d.lanes := rfl
@[simp] theorem Dev.setStrait_rot : (d.setStrait n x).rot = d.rot := rfl
@[simp] theorem Dev.setStrait_straits : (d.setStrait n x).straits = tabPut .init n x d.straits := rfl
@[simp] theorem Dev.setStrait_elems : (d.setStrait n x).elems = d.elems := rfl
@[simp] theorem Dev.setStrait_engines : (d.setStrait n x).engines = d.engines := rfl
@[simp] theorem Dev.setStrait_ticks : (d.setStrait n x).ticks = d.ticks := rfl
@[simp] theorem Dev.setStrait_run : (d.setStrait n x).run = d.run := rfl
@[simp] theorem Dev.setStrait_store : (d.setStrait n x).store = d.store := rfl
@[simp] theorem Dev.setStrait_pwr : (d.setStrait n x).pwr = d.pwr := rfl
@[simp] theorem Dev.setStrait_bak : (d.setStrait n x).bak = d.bak := rfl
@[simp] theorem Dev.setStrait_ports : (d.setStrait n x).ports = d.ports := rfl
@[simp] theorem Dev.setStrait_partners : (d.setStrait n x).partners = d.partners := rfl
@[simp] theorem Dev.setStrait_evt : (d.setStrait n x).evt = d.evt := rfl
@[simp] theorem Dev.setStrait_tam : (d.setStrait n x).tam = d.tam := rfl
@[simp] theorem Dev.setStrait_vault : (d.setStrait n x).vault = d.vault := rfl
@[simp] theorem Dev.setStrait_dsp : (d.setStrait n x).dsp = d.dsp := rfl
@[simp] theorem Dev.setStrait_caps : (d.setStrait n x).caps = d.caps := rfl
@[simp] theorem Dev.setStrait_capSeq : (d.setStrait n x).capSeq = d.capSeq := rfl
@[simp] theorem Dev.setStrait_link : (d.setStrait n x).link = d.link := rfl
@[simp] theorem Dev.setStrait_img : (d.setStrait n x).img = d.img := rfl
@[simp] theorem Dev.setStrait_rtdOn : (d.setStrait n x).rtdOn = d.rtdOn := rfl
@[simp] theorem Dev.setStrait_rtdDone : (d.setStrait n x).rtdDone = d.rtdDone := rfl
@[simp] theorem Dev.setStrait_capReq : (d.setStrait n x).capReq = d.capReq := rfl
@[simp] theorem Dev.setStrait_tap : (d.setStrait n x).tap = d.tap := rfl

end setStraitFields

section setElemFields
variable (d : Dev) (n : Nat) (x : ElemSt)

@[simp] theorem Dev.setElem_clk : (d.setElem n x).clk = d.clk := rfl
@[simp] theorem Dev.setElem_regs : (d.setElem n x).regs = d.regs := rfl
@[simp] theorem Dev.setElem_lanes : (d.setElem n x).lanes = d.lanes := rfl
@[simp] theorem Dev.setElem_rot : (d.setElem n x).rot = d.rot := rfl
@[simp] theorem Dev.setElem_straits : (d.setElem n x).straits = d.straits := rfl
@[simp] theorem Dev.setElem_elems : (d.setElem n x).elems = tabPut .init n x d.elems := rfl
@[simp] theorem Dev.setElem_engines : (d.setElem n x).engines = d.engines := rfl
@[simp] theorem Dev.setElem_ticks : (d.setElem n x).ticks = d.ticks := rfl
@[simp] theorem Dev.setElem_run : (d.setElem n x).run = d.run := rfl
@[simp] theorem Dev.setElem_store : (d.setElem n x).store = d.store := rfl
@[simp] theorem Dev.setElem_pwr : (d.setElem n x).pwr = d.pwr := rfl
@[simp] theorem Dev.setElem_bak : (d.setElem n x).bak = d.bak := rfl
@[simp] theorem Dev.setElem_ports : (d.setElem n x).ports = d.ports := rfl
@[simp] theorem Dev.setElem_partners : (d.setElem n x).partners = d.partners := rfl
@[simp] theorem Dev.setElem_evt : (d.setElem n x).evt = d.evt := rfl
@[simp] theorem Dev.setElem_tam : (d.setElem n x).tam = d.tam := rfl
@[simp] theorem Dev.setElem_vault : (d.setElem n x).vault = d.vault := rfl
@[simp] theorem Dev.setElem_dsp : (d.setElem n x).dsp = d.dsp := rfl
@[simp] theorem Dev.setElem_caps : (d.setElem n x).caps = d.caps := rfl
@[simp] theorem Dev.setElem_capSeq : (d.setElem n x).capSeq = d.capSeq := rfl
@[simp] theorem Dev.setElem_link : (d.setElem n x).link = d.link := rfl
@[simp] theorem Dev.setElem_img : (d.setElem n x).img = d.img := rfl
@[simp] theorem Dev.setElem_rtdOn : (d.setElem n x).rtdOn = d.rtdOn := rfl
@[simp] theorem Dev.setElem_rtdDone : (d.setElem n x).rtdDone = d.rtdDone := rfl
@[simp] theorem Dev.setElem_capReq : (d.setElem n x).capReq = d.capReq := rfl
@[simp] theorem Dev.setElem_tap : (d.setElem n x).tap = d.tap := rfl

end setElemFields

section setEngineFields
variable (d : Dev) (n : Nat) (x : EngineSt)

@[simp] theorem Dev.setEngine_clk : (d.setEngine n x).clk = d.clk := rfl
@[simp] theorem Dev.setEngine_regs : (d.setEngine n x).regs = d.regs := rfl
@[simp] theorem Dev.setEngine_lanes : (d.setEngine n x).lanes = d.lanes := rfl
@[simp] theorem Dev.setEngine_rot : (d.setEngine n x).rot = d.rot := rfl
@[simp] theorem Dev.setEngine_straits : (d.setEngine n x).straits = d.straits := rfl
@[simp] theorem Dev.setEngine_elems : (d.setEngine n x).elems = d.elems := rfl
@[simp] theorem Dev.setEngine_engines : (d.setEngine n x).engines = tabPut .init n x d.engines := rfl
@[simp] theorem Dev.setEngine_ticks : (d.setEngine n x).ticks = d.ticks := rfl
@[simp] theorem Dev.setEngine_run : (d.setEngine n x).run = d.run := rfl
@[simp] theorem Dev.setEngine_store : (d.setEngine n x).store = d.store := rfl
@[simp] theorem Dev.setEngine_pwr : (d.setEngine n x).pwr = d.pwr := rfl
@[simp] theorem Dev.setEngine_bak : (d.setEngine n x).bak = d.bak := rfl
@[simp] theorem Dev.setEngine_ports : (d.setEngine n x).ports = d.ports := rfl
@[simp] theorem Dev.setEngine_partners : (d.setEngine n x).partners = d.partners := rfl
@[simp] theorem Dev.setEngine_evt : (d.setEngine n x).evt = d.evt := rfl
@[simp] theorem Dev.setEngine_tam : (d.setEngine n x).tam = d.tam := rfl
@[simp] theorem Dev.setEngine_vault : (d.setEngine n x).vault = d.vault := rfl
@[simp] theorem Dev.setEngine_dsp : (d.setEngine n x).dsp = d.dsp := rfl
@[simp] theorem Dev.setEngine_caps : (d.setEngine n x).caps = d.caps := rfl
@[simp] theorem Dev.setEngine_capSeq : (d.setEngine n x).capSeq = d.capSeq := rfl
@[simp] theorem Dev.setEngine_link : (d.setEngine n x).link = d.link := rfl
@[simp] theorem Dev.setEngine_img : (d.setEngine n x).img = d.img := rfl
@[simp] theorem Dev.setEngine_rtdOn : (d.setEngine n x).rtdOn = d.rtdOn := rfl
@[simp] theorem Dev.setEngine_rtdDone : (d.setEngine n x).rtdDone = d.rtdDone := rfl
@[simp] theorem Dev.setEngine_capReq : (d.setEngine n x).capReq = d.capReq := rfl
@[simp] theorem Dev.setEngine_tap : (d.setEngine n x).tap = d.tap := rfl

end setEngineFields

section setPortFields
variable (d : Dev) (n : Nat) (x : PortSt)

@[simp] theorem Dev.setPort_clk : (d.setPort n x).clk = d.clk := rfl
@[simp] theorem Dev.setPort_regs : (d.setPort n x).regs = d.regs := rfl
@[simp] theorem Dev.setPort_lanes : (d.setPort n x).lanes = d.lanes := rfl
@[simp] theorem Dev.setPort_rot : (d.setPort n x).rot = d.rot := rfl
@[simp] theorem Dev.setPort_straits : (d.setPort n x).straits = d.straits := rfl
@[simp] theorem Dev.setPort_elems : (d.setPort n x).elems = d.elems := rfl
@[simp] theorem Dev.setPort_engines : (d.setPort n x).engines = d.engines := rfl
@[simp] theorem Dev.setPort_ticks : (d.setPort n x).ticks = d.ticks := rfl
@[simp] theorem Dev.setPort_run : (d.setPort n x).run = d.run := rfl
@[simp] theorem Dev.setPort_store : (d.setPort n x).store = d.store := rfl
@[simp] theorem Dev.setPort_pwr : (d.setPort n x).pwr = d.pwr := rfl
@[simp] theorem Dev.setPort_bak : (d.setPort n x).bak = d.bak := rfl
@[simp] theorem Dev.setPort_ports : (d.setPort n x).ports = tabPut .init n x d.ports := rfl
@[simp] theorem Dev.setPort_partners : (d.setPort n x).partners = d.partners := rfl
@[simp] theorem Dev.setPort_evt : (d.setPort n x).evt = d.evt := rfl
@[simp] theorem Dev.setPort_tam : (d.setPort n x).tam = d.tam := rfl
@[simp] theorem Dev.setPort_vault : (d.setPort n x).vault = d.vault := rfl
@[simp] theorem Dev.setPort_dsp : (d.setPort n x).dsp = d.dsp := rfl
@[simp] theorem Dev.setPort_caps : (d.setPort n x).caps = d.caps := rfl
@[simp] theorem Dev.setPort_capSeq : (d.setPort n x).capSeq = d.capSeq := rfl
@[simp] theorem Dev.setPort_link : (d.setPort n x).link = d.link := rfl
@[simp] theorem Dev.setPort_img : (d.setPort n x).img = d.img := rfl
@[simp] theorem Dev.setPort_rtdOn : (d.setPort n x).rtdOn = d.rtdOn := rfl
@[simp] theorem Dev.setPort_rtdDone : (d.setPort n x).rtdDone = d.rtdDone := rfl
@[simp] theorem Dev.setPort_capReq : (d.setPort n x).capReq = d.capReq := rfl
@[simp] theorem Dev.setPort_tap : (d.setPort n x).tap = d.tap := rfl

end setPortFields

section setPartnerFields
variable (d : Dev) (n : Nat) (x : Partner)

@[simp] theorem Dev.setPartner_clk : (d.setPartner n x).clk = d.clk := rfl
@[simp] theorem Dev.setPartner_regs : (d.setPartner n x).regs = d.regs := rfl
@[simp] theorem Dev.setPartner_lanes : (d.setPartner n x).lanes = d.lanes := rfl
@[simp] theorem Dev.setPartner_rot : (d.setPartner n x).rot = d.rot := rfl
@[simp] theorem Dev.setPartner_straits : (d.setPartner n x).straits = d.straits := rfl
@[simp] theorem Dev.setPartner_elems : (d.setPartner n x).elems = d.elems := rfl
@[simp] theorem Dev.setPartner_engines : (d.setPartner n x).engines = d.engines := rfl
@[simp] theorem Dev.setPartner_ticks : (d.setPartner n x).ticks = d.ticks := rfl
@[simp] theorem Dev.setPartner_run : (d.setPartner n x).run = d.run := rfl
@[simp] theorem Dev.setPartner_store : (d.setPartner n x).store = d.store := rfl
@[simp] theorem Dev.setPartner_pwr : (d.setPartner n x).pwr = d.pwr := rfl
@[simp] theorem Dev.setPartner_bak : (d.setPartner n x).bak = d.bak := rfl
@[simp] theorem Dev.setPartner_ports : (d.setPartner n x).ports = d.ports := rfl
@[simp] theorem Dev.setPartner_partners : (d.setPartner n x).partners = tabPut .free n x d.partners := rfl
@[simp] theorem Dev.setPartner_evt : (d.setPartner n x).evt = d.evt := rfl
@[simp] theorem Dev.setPartner_tam : (d.setPartner n x).tam = d.tam := rfl
@[simp] theorem Dev.setPartner_vault : (d.setPartner n x).vault = d.vault := rfl
@[simp] theorem Dev.setPartner_dsp : (d.setPartner n x).dsp = d.dsp := rfl
@[simp] theorem Dev.setPartner_caps : (d.setPartner n x).caps = d.caps := rfl
@[simp] theorem Dev.setPartner_capSeq : (d.setPartner n x).capSeq = d.capSeq := rfl
@[simp] theorem Dev.setPartner_link : (d.setPartner n x).link = d.link := rfl
@[simp] theorem Dev.setPartner_img : (d.setPartner n x).img = d.img := rfl
@[simp] theorem Dev.setPartner_rtdOn : (d.setPartner n x).rtdOn = d.rtdOn := rfl
@[simp] theorem Dev.setPartner_rtdDone : (d.setPartner n x).rtdDone = d.rtdDone := rfl
@[simp] theorem Dev.setPartner_capReq : (d.setPartner n x).capReq = d.capReq := rfl
@[simp] theorem Dev.setPartner_tap : (d.setPartner n x).tap = d.tap := rfl

end setPartnerFields

section setCapFields
variable (d : Dev) (n : Nat) (x : CapSlot)

@[simp] theorem Dev.setCap_clk : (d.setCap n x).clk = d.clk := rfl
@[simp] theorem Dev.setCap_regs : (d.setCap n x).regs = d.regs := rfl
@[simp] theorem Dev.setCap_lanes : (d.setCap n x).lanes = d.lanes := rfl
@[simp] theorem Dev.setCap_rot : (d.setCap n x).rot = d.rot := rfl
@[simp] theorem Dev.setCap_straits : (d.setCap n x).straits = d.straits := rfl
@[simp] theorem Dev.setCap_elems : (d.setCap n x).elems = d.elems := rfl
@[simp] theorem Dev.setCap_engines : (d.setCap n x).engines = d.engines := rfl
@[simp] theorem Dev.setCap_ticks : (d.setCap n x).ticks = d.ticks := rfl
@[simp] theorem Dev.setCap_run : (d.setCap n x).run = d.run := rfl
@[simp] theorem Dev.setCap_store : (d.setCap n x).store = d.store := rfl
@[simp] theorem Dev.setCap_pwr : (d.setCap n x).pwr = d.pwr := rfl
@[simp] theorem Dev.setCap_bak : (d.setCap n x).bak = d.bak := rfl
@[simp] theorem Dev.setCap_ports : (d.setCap n x).ports = d.ports := rfl
@[simp] theorem Dev.setCap_partners : (d.setCap n x).partners = d.partners := rfl
@[simp] theorem Dev.setCap_evt : (d.setCap n x).evt = d.evt := rfl
@[simp] theorem Dev.setCap_tam : (d.setCap n x).tam = d.tam := rfl
@[simp] theorem Dev.setCap_vault : (d.setCap n x).vault = d.vault := rfl
@[simp] theorem Dev.setCap_dsp : (d.setCap n x).dsp = d.dsp := rfl
@[simp] theorem Dev.setCap_caps : (d.setCap n x).caps = tabPut .free n x d.caps := rfl
@[simp] theorem Dev.setCap_capSeq : (d.setCap n x).capSeq = d.capSeq := rfl
@[simp] theorem Dev.setCap_link : (d.setCap n x).link = d.link := rfl
@[simp] theorem Dev.setCap_img : (d.setCap n x).img = d.img := rfl
@[simp] theorem Dev.setCap_rtdOn : (d.setCap n x).rtdOn = d.rtdOn := rfl
@[simp] theorem Dev.setCap_rtdDone : (d.setCap n x).rtdDone = d.rtdDone := rfl
@[simp] theorem Dev.setCap_capReq : (d.setCap n x).capReq = d.capReq := rfl
@[simp] theorem Dev.setCap_tap : (d.setCap n x).tap = d.tap := rfl

end setCapFields

section setIsleFields
variable (d : Dev) (n : Nat) (x : IsleSt)

@[simp] theorem Dev.setIsle_clk : (d.setIsle n x).clk = d.clk := rfl
@[simp] theorem Dev.setIsle_regs : (d.setIsle n x).regs = d.regs := rfl
@[simp] theorem Dev.setIsle_lanes : (d.setIsle n x).lanes = d.lanes := rfl
@[simp] theorem Dev.setIsle_rot : (d.setIsle n x).rot = d.rot := rfl
@[simp] theorem Dev.setIsle_straits : (d.setIsle n x).straits = d.straits := rfl
@[simp] theorem Dev.setIsle_elems : (d.setIsle n x).elems = d.elems := rfl
@[simp] theorem Dev.setIsle_engines : (d.setIsle n x).engines = d.engines := rfl
@[simp] theorem Dev.setIsle_ticks : (d.setIsle n x).ticks = d.ticks := rfl
@[simp] theorem Dev.setIsle_run : (d.setIsle n x).run = { d.run with isles := tabPut .init n x d.run.isles } := rfl
@[simp] theorem Dev.setIsle_store : (d.setIsle n x).store = d.store := rfl
@[simp] theorem Dev.setIsle_pwr : (d.setIsle n x).pwr = d.pwr := rfl
@[simp] theorem Dev.setIsle_bak : (d.setIsle n x).bak = d.bak := rfl
@[simp] theorem Dev.setIsle_ports : (d.setIsle n x).ports = d.ports := rfl
@[simp] theorem Dev.setIsle_partners : (d.setIsle n x).partners = d.partners := rfl
@[simp] theorem Dev.setIsle_evt : (d.setIsle n x).evt = d.evt := rfl
@[simp] theorem Dev.setIsle_tam : (d.setIsle n x).tam = d.tam := rfl
@[simp] theorem Dev.setIsle_vault : (d.setIsle n x).vault = d.vault := rfl
@[simp] theorem Dev.setIsle_dsp : (d.setIsle n x).dsp = d.dsp := rfl
@[simp] theorem Dev.setIsle_caps : (d.setIsle n x).caps = d.caps := rfl
@[simp] theorem Dev.setIsle_capSeq : (d.setIsle n x).capSeq = d.capSeq := rfl
@[simp] theorem Dev.setIsle_link : (d.setIsle n x).link = d.link := rfl
@[simp] theorem Dev.setIsle_img : (d.setIsle n x).img = d.img := rfl
@[simp] theorem Dev.setIsle_rtdOn : (d.setIsle n x).rtdOn = d.rtdOn := rfl
@[simp] theorem Dev.setIsle_rtdDone : (d.setIsle n x).rtdDone = d.rtdDone := rfl
@[simp] theorem Dev.setIsle_capReq : (d.setIsle n x).capReq = d.capReq := rfl
@[simp] theorem Dev.setIsle_tap : (d.setIsle n x).tap = d.tap := rfl

end setIsleFields

section setKnotFields
variable (d : Dev) (n : Nat) (x : Knot)

@[simp] theorem Dev.setKnot_clk : (d.setKnot n x).clk = d.clk := rfl
@[simp] theorem Dev.setKnot_regs : (d.setKnot n x).regs = d.regs := rfl
@[simp] theorem Dev.setKnot_lanes : (d.setKnot n x).lanes = d.lanes := rfl
@[simp] theorem Dev.setKnot_rot : (d.setKnot n x).rot = d.rot := rfl
@[simp] theorem Dev.setKnot_straits : (d.setKnot n x).straits = d.straits := rfl
@[simp] theorem Dev.setKnot_elems : (d.setKnot n x).elems = d.elems := rfl
@[simp] theorem Dev.setKnot_engines : (d.setKnot n x).engines = d.engines := rfl
@[simp] theorem Dev.setKnot_ticks : (d.setKnot n x).ticks = d.ticks := rfl
@[simp] theorem Dev.setKnot_run : (d.setKnot n x).run = { d.run with knots := tabPut .free n x d.run.knots } := rfl
@[simp] theorem Dev.setKnot_store : (d.setKnot n x).store = d.store := rfl
@[simp] theorem Dev.setKnot_pwr : (d.setKnot n x).pwr = d.pwr := rfl
@[simp] theorem Dev.setKnot_bak : (d.setKnot n x).bak = d.bak := rfl
@[simp] theorem Dev.setKnot_ports : (d.setKnot n x).ports = d.ports := rfl
@[simp] theorem Dev.setKnot_partners : (d.setKnot n x).partners = d.partners := rfl
@[simp] theorem Dev.setKnot_evt : (d.setKnot n x).evt = d.evt := rfl
@[simp] theorem Dev.setKnot_tam : (d.setKnot n x).tam = d.tam := rfl
@[simp] theorem Dev.setKnot_vault : (d.setKnot n x).vault = d.vault := rfl
@[simp] theorem Dev.setKnot_dsp : (d.setKnot n x).dsp = d.dsp := rfl
@[simp] theorem Dev.setKnot_caps : (d.setKnot n x).caps = d.caps := rfl
@[simp] theorem Dev.setKnot_capSeq : (d.setKnot n x).capSeq = d.capSeq := rfl
@[simp] theorem Dev.setKnot_link : (d.setKnot n x).link = d.link := rfl
@[simp] theorem Dev.setKnot_img : (d.setKnot n x).img = d.img := rfl
@[simp] theorem Dev.setKnot_rtdOn : (d.setKnot n x).rtdOn = d.rtdOn := rfl
@[simp] theorem Dev.setKnot_rtdDone : (d.setKnot n x).rtdDone = d.rtdDone := rfl
@[simp] theorem Dev.setKnot_capReq : (d.setKnot n x).capReq = d.capReq := rfl
@[simp] theorem Dev.setKnot_tap : (d.setKnot n x).tap = d.tap := rfl

end setKnotFields

section setLedgerFields
variable (d : Dev) (n : Nat) (x : Ledger)

@[simp] theorem Dev.setLedger_clk : (d.setLedger n x).clk = d.clk := rfl
@[simp] theorem Dev.setLedger_regs : (d.setLedger n x).regs = d.regs := rfl
@[simp] theorem Dev.setLedger_lanes : (d.setLedger n x).lanes = d.lanes := rfl
@[simp] theorem Dev.setLedger_rot : (d.setLedger n x).rot = d.rot := rfl
@[simp] theorem Dev.setLedger_straits : (d.setLedger n x).straits = d.straits := rfl
@[simp] theorem Dev.setLedger_elems : (d.setLedger n x).elems = d.elems := rfl
@[simp] theorem Dev.setLedger_engines : (d.setLedger n x).engines = d.engines := rfl
@[simp] theorem Dev.setLedger_ticks : (d.setLedger n x).ticks = d.ticks := rfl
@[simp] theorem Dev.setLedger_run : (d.setLedger n x).run = d.run := rfl
@[simp] theorem Dev.setLedger_store : (d.setLedger n x).store = d.store := rfl
@[simp] theorem Dev.setLedger_pwr : (d.setLedger n x).pwr = d.pwr := rfl
@[simp] theorem Dev.setLedger_bak : (d.setLedger n x).bak = d.bak := rfl
@[simp] theorem Dev.setLedger_ports : (d.setLedger n x).ports = d.ports := rfl
@[simp] theorem Dev.setLedger_partners : (d.setLedger n x).partners = d.partners := rfl
@[simp] theorem Dev.setLedger_evt : (d.setLedger n x).evt = d.evt := rfl
@[simp] theorem Dev.setLedger_tam : (d.setLedger n x).tam =
    { d.tam with ledger := tabPut .init n x d.tam.ledger,
                 dirty := if ledgerRecord n ∈ d.tam.dirty then d.tam.dirty else d.tam.dirty ++ [ledgerRecord n] } := rfl
@[simp] theorem Dev.setLedger_vault : (d.setLedger n x).vault = d.vault := rfl
@[simp] theorem Dev.setLedger_dsp : (d.setLedger n x).dsp = d.dsp := rfl
@[simp] theorem Dev.setLedger_caps : (d.setLedger n x).caps = d.caps := rfl
@[simp] theorem Dev.setLedger_capSeq : (d.setLedger n x).capSeq = d.capSeq := rfl
@[simp] theorem Dev.setLedger_link : (d.setLedger n x).link = d.link := rfl
@[simp] theorem Dev.setLedger_img : (d.setLedger n x).img = d.img := rfl
@[simp] theorem Dev.setLedger_rtdOn : (d.setLedger n x).rtdOn = d.rtdOn := rfl
@[simp] theorem Dev.setLedger_rtdDone : (d.setLedger n x).rtdDone = d.rtdDone := rfl
@[simp] theorem Dev.setLedger_capReq : (d.setLedger n x).capReq = d.capReq := rfl
@[simp] theorem Dev.setLedger_tap : (d.setLedger n x).tap = d.tap := rfl

end setLedgerFields

section setSlotFields
variable (d : Dev) (n : Nat) (x : Slot)

@[simp] theorem Dev.setSlot_clk : (d.setSlot n x).clk = d.clk := rfl
@[simp] theorem Dev.setSlot_regs : (d.setSlot n x).regs = d.regs := rfl
@[simp] theorem Dev.setSlot_lanes : (d.setSlot n x).lanes = d.lanes := rfl
@[simp] theorem Dev.setSlot_rot : (d.setSlot n x).rot = d.rot := rfl
@[simp] theorem Dev.setSlot_straits : (d.setSlot n x).straits = d.straits := rfl
@[simp] theorem Dev.setSlot_elems : (d.setSlot n x).elems = d.elems := rfl
@[simp] theorem Dev.setSlot_engines : (d.setSlot n x).engines = d.engines := rfl
@[simp] theorem Dev.setSlot_ticks : (d.setSlot n x).ticks = d.ticks := rfl
@[simp] theorem Dev.setSlot_run : (d.setSlot n x).run = d.run := rfl
@[simp] theorem Dev.setSlot_store : (d.setSlot n x).store = d.store := rfl
@[simp] theorem Dev.setSlot_pwr : (d.setSlot n x).pwr = d.pwr := rfl
@[simp] theorem Dev.setSlot_bak : (d.setSlot n x).bak = d.bak := rfl
@[simp] theorem Dev.setSlot_ports : (d.setSlot n x).ports = d.ports := rfl
@[simp] theorem Dev.setSlot_partners : (d.setSlot n x).partners = d.partners := rfl
@[simp] theorem Dev.setSlot_evt : (d.setSlot n x).evt = d.evt := rfl
@[simp] theorem Dev.setSlot_tam : (d.setSlot n x).tam = d.tam := rfl
@[simp] theorem Dev.setSlot_vault : (d.setSlot n x).vault = { d.vault with slots := tabPut .init n x d.vault.slots } := rfl
@[simp] theorem Dev.setSlot_dsp : (d.setSlot n x).dsp = d.dsp := rfl
@[simp] theorem Dev.setSlot_caps : (d.setSlot n x).caps = d.caps := rfl
@[simp] theorem Dev.setSlot_capSeq : (d.setSlot n x).capSeq = d.capSeq := rfl
@[simp] theorem Dev.setSlot_link : (d.setSlot n x).link = d.link := rfl
@[simp] theorem Dev.setSlot_img : (d.setSlot n x).img = d.img := rfl
@[simp] theorem Dev.setSlot_rtdOn : (d.setSlot n x).rtdOn = d.rtdOn := rfl
@[simp] theorem Dev.setSlot_rtdDone : (d.setSlot n x).rtdDone = d.rtdDone := rfl
@[simp] theorem Dev.setSlot_capReq : (d.setSlot n x).capReq = d.capReq := rfl
@[simp] theorem Dev.setSlot_tap : (d.setSlot n x).tap = d.tap := rfl

end setSlotFields

end Sys2Proof.Machine
end

