-- ==== Sys2Proof/Laws/Link.lean ====
section
/-! SUPPORT. What one transaction of the host link can do: not answered, busy, denied by its CRC, or admitted. -/

namespace Sys2Proof.Safety

open Sys2Proof.Machine

/-- An admitted transaction runs its access, or answers ST_RANGE outside the map. -/
theorem transact_of_admit {d e : Dev} {l : Link} {op a len : Nat} {p : List Byte} {x : Bool}
    (h : admitted d l op a len p = some (x, e)) (mapped : Bool) (body : Bool → Dev → Status × List Byte × Dev) :
    d.transact l op a len p true mapped body =
      if mapped then (body x e).2.2.respond (linkCmd l op) (body x e).1 (body x e).2.1
      else e.respond (linkCmd l op) .range [] := by
  unfold admitted wireLen at h
  unfold Dev.transact
  generalize (if op = 1 ∨ op = 2 then len + l.trailer.length else len) = n at h ⊢
  simp only [] at h ⊢
  split_ifs at h with h1 h2
  · simp only [Bool.or_eq_true, Bool.not_eq_true', Bool.and_eq_true, decide_eq_true_eq, not_or, not_and, ne_eq,
      Bool.not_eq_false, Bool.not_eq_true, not_not] at h1
    obtain ⟨⟨⟨⟨⟨hl, hb⟩, hc⟩, hr⟩, hs⟩, hn⟩ := h1
    cases hv : d.vault.session with
    | none => rw [hv] at h; simp at h
    | some s =>
      rw [hv] at h
      simp only [] at h
      split_ifs at h with ht
      simp only [Option.some.injEq, Prod.mk.injEq] at h
      obtain ⟨rfl, rfl⟩ := h
      have hs' := hs h2
      simp only [hl, hb, hc, hr, h2, ht, hn, hs', not_true, if_false, if_true, Bool.not_true, Bool.false_eq_true, ne_eq,
        not_false_eq_true, and_false, or_false, Bool.true_eq_false]
      cases mapped <;> simp
  · simp only [Bool.or_eq_true, Bool.not_eq_true', Bool.and_eq_true, decide_eq_true_eq, not_or, not_and, ne_eq,
      Bool.not_eq_false, Bool.not_eq_true, not_not] at h1
    obtain ⟨⟨⟨⟨⟨hl, hb⟩, hc⟩, hr⟩, hs⟩, hn⟩ := h1
    simp only [Option.some.injEq, Prod.mk.injEq] at h
    obtain ⟨rfl, rfl⟩ := h
    simp only [hl, hb, hc, hr, h2, hn, not_true, if_false, if_true, Bool.not_true, Bool.false_eq_true, ne_eq,
      not_false_eq_true, false_and, or_false, Bool.true_eq_false]
    cases mapped <;> simp

/-- An admitted mailbox command with the right length runs its effect. -/
theorem exec_of_admitCmd {d e : Dev} {l : Link} {op : Nat} {args : List Byte} {hostRow needLive x : Bool}
    (h : admitCmd d l op args hostRow needLive = some (x, e)) (body : Bool → Dev → Status × List Byte × Dev) :
    d.exec l op args true hostRow needLive body = answered (body x e).2.2 l (body x e).1 (body x e).2.1 := by
  unfold admitCmd at h
  split at h
  · rename_i x' e' ha
    split_ifs at h with hc
    simp only [Option.some.injEq, Prod.mk.injEq] at h
    obtain ⟨rfl, rfl⟩ := h
    simp only [Bool.or_eq_true, Bool.and_eq_true, Bool.not_eq_true', not_or, not_and, Bool.not_eq_true, Bool.not_eq_false] at hc
    unfold Dev.exec
    simp only []
    rw [show leBytes 2 op ++ [0#8, 0#8] ++ args = execPayload op args from rfl, transact_of_admit ha]
    have h1 : (hostRow && e'.hostDenied x') = false := by
      cases hr : hostRow <;> simp [hr] at hc ⊢; exact hc.1
    have h2 : (needLive && !e'.isLive) = false := by
      cases hn : needLive <;> simp [hn] at hc ⊢; exact hc.2
    simp only [answered, if_true, Bool.not_true, Bool.false_eq_true, if_false, h1, h2]
  · simp at h

/-- An admitted job command with the right length is offered to the job table. -/
theorem execJob_of_admitCmd {d e : Dev} {l : Link} {op : Nat} {args : List Byte} {hostRow needLive x : Bool}
    (h : admitCmd d l op args hostRow needLive = some (x, e)) :
    d.execJob l op args true hostRow needLive =
      answered (e.acceptJob op args (e.roleOf x)).2.2 l (e.acceptJob op args (e.roleOf x)).1 (e.acceptJob op args (e.roleOf x)).2.1 := by
  unfold Dev.execJob
  exact exec_of_admitCmd h _

/-- Nothing is answered while the link is down. -/
theorem transact_of_down {d : Dev} (h : d.linkLive = false) (l : Link) (op a len : Nat) (p : List Byte) (shape mapped : Bool)
    (body : Bool → Dev → Status × List Byte × Dev) :
    d.transact l op a len p shape mapped body = { d with link := { d.link with resp := none } } := by
  unfold Dev.transact
  simp [h, Dev.mapLink]

/-- Everything is ST_BUSY asleep and from the power-fail latch. -/
theorem transact_of_busy {d : Dev} (h : d.linkLive = true) (hb : d.linkBusy = true) (l : Link) (op a len : Nat) (p : List Byte)
    (shape mapped : Bool) (body : Bool → Dev → Status × List Byte × Dev) :
    d.transact l op a len p shape mapped body =
      { d with link := { d.link with resp := some { status := .busy, payload := [] } } } := by
  unfold Dev.transact
  simp [h, hb, Dev.mapLink]

/-- A wrong CRC is counted and denied. -/
theorem transact_of_wrong_crc {d : Dev} (h : d.linkLive = true) (hb : d.linkBusy = false) {l : Link} {op a len : Nat} {p : List Byte}
    (hc : linkCrcOk l op a (wireLen l op len) p = false) (shape mapped : Bool) (body : Bool → Dev → Status × List Byte × Dev) :
    d.transact l op a len p shape mapped body =
      { d with link := { d.link with
          resp := some { status := .denied, payload := [] }, crcErr := satU 16 (d.link.crcErr + 1) } } := by
  unfold wireLen at hc
  unfold Dev.transact
  simp [h, hb, hc, Dev.mapLink]

/-- A response changes the link's own report alone. -/
@[simp] theorem respond_eq (d : Dev) (c : Nat) (st : Status) (p : List Byte) :
    d.respond c st p = { d with link := { d.link with
      resp := some { status := st, payload := p }, lastSt := st.code, lastCmd := c, lastTxn := d.clk.runTick } } := rfl

/-! ## What every command over the link is -/

/-- Every mailbox command but ABORT is one EXEC on the device. -/
theorem exec_of_mailbox {c : Instr} {l : Link} {op : Nat} {a : List Byte} {ok h n : Bool}
    (hc : mailbox c = some (l, op, a, ok, h, n)) (hop : op ≠ 0x03) :
    ∃ body : Bool → Dev → Status × List Byte × Dev, ∀ s : State, exec c s = .next (s.onDev (fun d => d.exec l op a ok h n body)) := by
  cases c <;> simp only [mailbox, Option.some.injEq, Prod.mk.injEq, reduceCtorEq] at hc
  all_goals (obtain ⟨rfl, rfl, rfl, rfl, rfl, rfl⟩ := hc)
  all_goals first
    | exact ⟨_, fun s => rfl⟩
    | exact absurd rfl hop

/-- ABORT is one EXEC, whose response is withheld when it was latched. -/
theorem exec_abort (l : Link) (a : List Byte) (s : State) :
    ∃ body : Bool → Dev → Status × List Byte × Dev, exec (.abort l a) s =
      .next (s.onDev (fun d =>
        let e := d.exec l 0x03 a (a.length == 2) false false body
        if d.link.aborts.length < e.link.aborts.length then e.mapLink (fun k => { k with resp := none }) else e)) := ⟨_, rfl⟩

/-- Every write to any address is one transaction. -/
theorem wr_transact (d : Dev) (l : Link) (a : Nat) (data : List Byte) :
    ∃ shape mapped body, d.wr l a data = d.transact l 1 a data.length data shape mapped body := by
  unfold Dev.wr
  split_ifs with h1 h2 h3
  · exact ⟨_, _, _, rfl⟩
  · refine ⟨?_, ?_, ?_, ?_⟩
    rotate_left 3
    · unfold Dev.wrSram; rw [show 0x01000000 + (a - 0x01000000) = a by omega]
  · refine ⟨?_, ?_, ?_, ?_⟩
    rotate_left 3
    · unfold Dev.wrMram; rw [show 0x10000000 + (a - 0x10000000) = a by omega]
  · exact ⟨_, _, _, rfl⟩
/-- A command on a unit the device has runs its meaning on the device. -/
theorem onUnit_next {ok : Bool} {u : String} {s : State} {f : Dev → Dev} (h : ok = true) :
    onUnit ok u s f = .next (s.onDev f) := by simp [onUnit, h]

/-- A WR of one word is one transaction. -/
theorem exec_of_wordWrite {c : Instr} {l : Link} {a : Nat} {v : Word} (hc : wordWrite c = some (l, a, v)) (s : State) :
    exec c s = .next (s.onDev (fun d => d.wr l a (leBytes 4 v.toNat))) := by
  cases c <;> simp only [wordWrite, Option.some.injEq, Prod.mk.injEq, reduceCtorEq, Option.ite_none_right_eq_some] at hc
  all_goals first
    | (obtain ⟨rfl, rfl, rfl⟩ := hc; rfl)
    | (obtain ⟨h, rfl, rfl, rfl⟩ := hc; exact onUnit_next (decide_eq_true h))

/-- ABORT withholds the response of a transaction that latched it; every other command gives it. -/
def withheld (c : Instr) (d e : Dev) : Dev :=
  match c with
  | .abort _ _ => if d.link.aborts.length < e.link.aborts.length then e.mapLink (fun k => { k with resp := none }) else e
  | _ => e

/-- Every request over the link is one transaction, whose response is withheld when it latched an abort. -/
theorem exec_of_request {c : Instr} {s : State} {l : Link} {op a len : Nat} {p : List Byte}
    (hc : request s.dev c = some (l, op, a, len, p)) :
    ∃ shape mapped body, exec c s = .next { s with dev := withheld c s.dev (s.dev.transact l op a len p shape mapped body) } := by
  by_cases hab : ∃ l' args, c = .abort l' args
  · obtain ⟨l', args, rfl⟩ := hab
    simp only [request, mailbox, Option.some.injEq, Prod.mk.injEq] at hc
    obtain ⟨rfl, rfl, rfl, rfl, rfl⟩ := hc
    obtain ⟨body, hb⟩ := exec_abort l' args s
    exact ⟨true, true, _, hb⟩
  have hw : ∀ e, withheld c s.dev e = e := by intro e; unfold withheld; split; exact absurd ⟨_, _, rfl⟩ hab; rfl
  simp only [hw]
  unfold request at hc
  split at hc
  · rename_i heq
    simp only [Option.some.injEq, Prod.mk.injEq] at hc
    obtain ⟨rfl, rfl, rfl, rfl, rfl⟩ := hc
    obtain ⟨body, hb⟩ := exec_of_mailbox heq (by
      rintro rfl
      cases c <;> simp [mailbox] at heq
      exact hab ⟨_, _, rfl⟩)
    rw [hb s]
    simp only [State.onDev, Dev.exec]
    exact ⟨true, true, _, rfl⟩
  · split at hc
    · rename_i l' a' v' heq
      simp only [Option.some.injEq, Prod.mk.injEq] at hc
      obtain ⟨rfl, rfl, rfl, rfl, rfl⟩ := hc
      obtain ⟨x, y, z, h⟩ := wr_transact s.dev l' a' (leBytes 4 v'.toNat)
      refine ⟨x, y, z, ?_⟩
      rw [exec_of_wordWrite heq s]
      exact congrArg (fun d => Host.Outcome.next { s with dev := d }) h
    · cases c <;> simp only [Option.some.injEq, Prod.mk.injEq, reduceCtorEq] at hc <;> obtain ⟨rfl, rfl, rfl, rfl, rfl⟩ := hc
      case rd => exact ⟨_, _, _, rfl⟩
      case stat => exact ⟨_, _, _, rfl⟩
      case mramWindowWrite l addr data => simp only [exec, execMramWindowWrite, State.onDev, Dev.wrMram]; exact ⟨_, _, _, rfl⟩
      case sramWindowWrite l addr data => simp only [exec, execSramWindowWrite, State.onDev, Dev.wrSram]; exact ⟨_, _, _, rfl⟩
      case displayRegionWrite l addr data => simp only [exec, execDisplayRegionWrite, State.onDev, Dev.wrSram]; exact ⟨_, _, _, rfl⟩
      all_goals
        rename_i l addr data _ _
        obtain ⟨x, y, z, h⟩ := wr_transact s.dev l addr.toNat data
        exact ⟨x, y, z, by rw [← h]; rfl⟩
/-- A command on a unit answers a next state only for a unit the device has. -/
theorem onUnit_eq_next {ok : Bool} {u : String} {s t : State} {f : Dev → Dev} (h : onUnit ok u s f = .next t) :
    ok = true ∧ t = s.onDev f := by
  unfold onUnit at h
  split_ifs at h with hk
  exact ⟨hk, (by injection h with h; exact h.symm)⟩

/-- What a latched abort withholds is a response and nothing else. -/
theorem withheld_of_aborts_eq {c : Instr} {d e : Dev} (h : e.link.aborts = d.link.aborts) : withheld c d e = e := by
  unfold withheld
  split
  · rw [h, if_neg (Nat.lt_irrefl _)]
  · rfl

/-! ## Requests that are admitted -/

/-- A request with the right CRC, no session and nothing reserved. -/
def framed (op addr len : Nat) (p : List Byte) : Link :=
  { quad := false, session := false, rsv := 0, trailer := [],
    crc := crc32c (linkFrame { quad := false, session := false, rsv := 0, trailer := [], crc := 0 } op addr len p) }

/-- A well-framed request is admitted while the link answers. -/
theorem admit_framed {d : Dev} {op addr len : Nat} {p : List Byte} (hl : d.linkLive = true) (hb : d.linkBusy = false)
    (hn : len ≤ 4096) : admitted d (framed op addr len p) op addr len p = some (false, d) := by
  have hw : wireLen (framed op addr len p) op len = len := by unfold wireLen framed; simp
  have hc : linkCrcOk (framed op addr len p) op addr len p = true := by
    unfold linkCrcOk
    simp only [framed, List.append_nil, decide_eq_true_eq]
    rfl
  unfold admitted
  simp only [hw, hc, hl, hb]
  simp [framed, hn]

/-- A well-framed EXEC. -/
def framedCmd (op : Nat) (args : List Byte) : Link := framed 2 0x30000000 (execPayload op args).length (execPayload op args)

/-- A well-framed mailbox command is admitted. -/
theorem admitCmd_framed {d : Dev} {op : Nat} {args : List Byte} {hostRow needLive : Bool} (hl : d.linkLive = true)
    (hb : d.linkBusy = false) (hn : (execPayload op args).length ≤ 4096) (hh : hostRow = true → d.hostDenied false = false)
    (hv : needLive = true → d.isLive = true) : admitCmd d (framedCmd op args) op args hostRow needLive = some (false, d) := by
  unfold admitCmd framedCmd
  rw [admit_framed hl hb hn]
  cases hostRow <;> cases needLive <;> simp_all

/-- The trailer of a session transaction: its counter and tag. -/
def sessionTrailer (l : Link) (s : Session) (op addr len : Nat) (p : List Byte) (ctr : Nat) : List Byte :=
  leBytes 4 ctr ++ (Config.cmac s.key (linkFrame l op addr len p ++ leBytes 4 ctr)).take 8

/-- A request in a session with the right CRC and trailer. -/
def framedIn (s : Session) (op addr len : Nat) (p : List Byte) (ctr : Nat) : Link :=
  let l : Link := { quad := false, session := true, rsv := 0, trailer := [], crc := 0 }
  let t := sessionTrailer l s op addr (len + 12) p ctr
  { l with trailer := t, crc := crc32c (linkFrame l op addr (len + 12) (p ++ t)) }

/-- A trailer is 12 bytes. -/
theorem sessionTrailer_length (l : Link) (s : Session) (op addr len : Nat) (p : List Byte) (ctr : Nat) :
    (sessionTrailer l s op addr len p ctr).length = 12 := by
  simp [sessionTrailer, Config.cmac, Config.bytesOf, leBytes]

/-- Four little-endian bytes read back. -/
theorem u32_leBytes (n : Nat) (t : List Byte) (h : n < 2 ^ 32) : u32 (leBytes 4 n ++ t) 0 = n := by
  simp [u32, sliceB, leBytes, leVal, byteOf]
  omega

/-- A well-framed WR or EXEC of the session is admitted and renews the session's counter and idle time. -/
theorem admit_framedIn {d : Dev} {s : Session} {op addr len ctr : Nat} {p : List Byte} (hl : d.linkLive = true)
    (hb : d.linkBusy = false) (hn : len + 12 ≤ 4096) (ho : op = 1 ∨ op = 2) (hs : d.vault.session = some s)
    (hc : s.ctr < ctr) (h32 : ctr < 2 ^ 32) :
    admitted d (framedIn s op addr len p ctr) op addr len p = some (true, { d with vault := { d.vault with
      session := some { s with ctr := ctr, lastT := d.clk.runTick } } }) := by
  have ht : (framedIn s op addr len p ctr).trailer.length = 12 := sessionTrailer_length ..
  have hw : wireLen (framedIn s op addr len p ctr) op len = len + 12 := by unfold wireLen; rw [if_pos ho, ht]
  have hcrc : linkCrcOk (framedIn s op addr len p ctr) op addr (len + 12) p = true := by
    exact decide_eq_true rfl
  have hctr : u32 (framedIn s op addr len p ctr).trailer 0 = ctr := u32_leBytes _ _ h32
  have htr : trailerOk (framedIn s op addr len p ctr) s op addr (len + 12) p = true := by
    unfold trailerOk
    simp only [hctr, ht, beq_self_eq_true, hc, decide_true, Bool.true_and, decide_eq_true_eq]
    show sliceB (sessionTrailer _ s op addr (len + 12) p ctr) 4 8 = _
    simp [sessionTrailer, sliceB, leBytes, Config.cmac, Config.bytesOf]
    rfl
  have h03 : ¬ (op = 0 ∨ op = 3) := by omega
  unfold admitted
  simp only [hw, hcrc, hl, hb, hs, htr, if_true, hctr]
  simp [framedIn, hn, h03, Dev.mapVault]

end Sys2Proof.Safety
end

