-- ==== Sys2Proof/Laws/Tab.lean ====
section
/-! SUPPORT. Sparse tables and memory: a read after a write, a write leaves every other key alone, and every
write keeps the canonical form. -/

namespace Sys2Proof.Machine

variable {α : Type} [DecidableEq α]

/-! ## Reading after writing -/

theorem tabFind_tabPut_of_ne_default (d : α) (k : Nat) (v : α) (hv : v ≠ d) (t : Tab α) :
    tabFind k (tabPut d k v t) = some v := by
  induction t with
  | nil => simp [tabPut, hv, tabFind]
  | cons e t ih =>
    obtain ⟨j, w⟩ := e
    unfold tabPut
    split_ifs with h1 h2
    · simp [tabFind]
    · simp [tabFind]
    · have : ¬ j = k := fun h => h2 h.symm
      simp [tabFind, this, ih]

theorem tabFind_tabPut_of_ne (d : α) {k k' : Nat} (h : k' ≠ k) (v : α) (t : Tab α) :
    tabFind k' (tabPut d k v t) = tabFind k' t := by
  have hk : ¬ k = k' := fun e => h e.symm
  induction t with
  | nil => unfold tabPut; split_ifs <;> simp [tabFind, hk]
  | cons e t ih =>
    obtain ⟨j, w⟩ := e
    unfold tabPut
    split_ifs with h1 h2 h3 h4
    · rfl
    · simp [tabFind, hk]
    · subst h3; simp [tabFind, hk]
    · subst h3; simp [tabFind, hk]
    · simp [tabFind, ih]

/-- What is not the default reads back, in any table. -/
theorem tabGet_tabPut_of_ne_default (d : α) (k : Nat) (v : α) (hv : v ≠ d) (t : Tab α) :
    tabGet d (tabPut d k v t) k = v := by simp [tabGet, tabFind_tabPut_of_ne_default d k v hv]

/-- A write leaves every other key alone, in any table. -/
theorem tabGet_tabPut_of_ne (d : α) {k k' : Nat} (h : k' ≠ k) (v : α) (t : Tab α) :
    tabGet d (tabPut d k v t) k' = tabGet d t k' := by simp [tabGet, tabFind_tabPut_of_ne d h]

/-! ## The canonical form -/

theorem tabWfFrom_mono {d : α} {a b : Nat} (h : a ≤ b) {t : Tab α} (ht : tabWfFrom d b t = true) : tabWfFrom d a t = true := by
  cases t with
  | nil => rfl
  | cons e t =>
    simp only [tabWfFrom, Bool.and_eq_true, decide_eq_true_eq] at ht ⊢
    exact ⟨⟨h.trans ht.1.1, ht.1.2⟩, ht.2⟩

theorem tabFind_eq_none_of_wfFrom {d : α} {a k : Nat} (h : k < a) {t : Tab α} (ht : tabWfFrom d a t = true) :
    tabFind k t = none := by
  induction t generalizing a with
  | nil => rfl
  | cons e t ih =>
    simp only [tabWfFrom, Bool.and_eq_true, decide_eq_true_eq] at ht
    have : ¬ e.1 = k := by omega
    simp only [tabFind, this, if_false]
    exact ih (by omega) ht.2

theorem tabWfFrom_tabPut {d : α} (k : Nat) (v : α) {lo : Nat} (hlo : lo ≤ k) {t : Tab α} (ht : tabWfFrom d lo t = true) :
    tabWfFrom d lo (tabPut d k v t) = true := by
  induction t generalizing lo with
  | nil => unfold tabPut; split_ifs with h <;> simp [tabWfFrom, hlo, h]
  | cons e t ih =>
    obtain ⟨j, w⟩ := e
    have ht' := ht
    simp only [tabWfFrom, Bool.and_eq_true, decide_eq_true_eq] at ht
    unfold tabPut
    split_ifs with h1 h2 h3 h4
    · exact ht'
    · simp only [tabWfFrom, Bool.and_eq_true, decide_eq_true_eq]
      exact ⟨⟨hlo, h2⟩, ⟨h1, ht.1.2⟩, ht.2⟩
    · exact tabWfFrom_mono (by omega) ht.2
    · simp only [tabWfFrom, Bool.and_eq_true, decide_eq_true_eq]
      exact ⟨⟨hlo, h4⟩, by rw [h3]; exact ht.2⟩
    · simp only [tabWfFrom, Bool.and_eq_true, decide_eq_true_eq]
      exact ⟨ht.1, ih (by omega) ht.2⟩

/-- Every write keeps the canonical form. -/
theorem tabWf_tabPut {d : α} (k : Nat) (v : α) {t : Tab α} (ht : tabWf d t = true) : tabWf d (tabPut d k v t) = true :=
  tabWfFrom_tabPut k v (Nat.zero_le k) ht

theorem tabFind_tabPut_default {d : α} (k : Nat) {lo : Nat} {t : Tab α} (ht : tabWfFrom d lo t = true) :
    tabFind k (tabPut d k d t) = none := by
  induction t generalizing lo with
  | nil => simp [tabPut, tabFind]
  | cons e t ih =>
    obtain ⟨j, w⟩ := e
    have ht' := ht
    simp only [tabWfFrom, Bool.and_eq_true, decide_eq_true_eq] at ht
    simp only [tabPut, if_true]
    split_ifs with h1 h2
    · exact tabFind_eq_none_of_wfFrom (d := d) (a := j) h1 (by simp [tabWfFrom, ht.1.2, ht.2])
    · exact tabFind_eq_none_of_wfFrom (a := j + 1) (by omega) ht.2
    · have : ¬ j = k := fun h => h2 h.symm
      simp [tabFind, this, ih ht.2]

/-- In a canonical table every write reads back. -/
theorem tabGet_tabPut_self {d : α} (k : Nat) (v : α) {t : Tab α} (ht : tabWf d t = true) : tabGet d (tabPut d k v t) k = v := by
  by_cases h : v = d
  · subst h; simp [tabGet, tabFind_tabPut_default k ht]
  · exact tabGet_tabPut_of_ne_default d k v h t

/-- Dropping entries keeps the canonical form. -/
theorem tabWfFrom_filter {d : α} (p : Nat × α → Bool) {lo : Nat} {t : Tab α} (ht : tabWfFrom d lo t = true) :
    tabWfFrom d lo (t.filter p) = true := by
  induction t generalizing lo with
  | nil => rfl
  | cons e t ih =>
    obtain ⟨j, w⟩ := e
    simp only [tabWfFrom, Bool.and_eq_true, decide_eq_true_eq] at ht
    have h := ih ht.2
    rw [List.filter_cons]
    split_ifs
    · simp [tabWfFrom, ht.1.1, ht.1.2, h]
    · exact tabWfFrom_mono (by omega) h

theorem tabWf_filter {d : α} (p : Nat × α → Bool) {t : Tab α} (ht : tabWf d t = true) : tabWf d (t.filter p) = true :=
  tabWfFrom_filter p ht

/-! ## Memory -/

theorem memGet_memPut_self {m : Tab Byte} (a : Nat) (v : Byte) (h : tabWf 0#8 m = true) : memGet (memPut m a v) a = v :=
  tabGet_tabPut_self a v h

theorem memGet_memPut_of_ne (m : Tab Byte) {a b : Nat} (h : b ≠ a) (v : Byte) : memGet (memPut m a v) b = memGet m b :=
  tabGet_tabPut_of_ne 0#8 h v m

theorem memPut_wf {m : Tab Byte} (a : Nat) (v : Byte) (h : tabWf 0#8 m = true) : tabWf 0#8 (memPut m a v) = true :=
  tabWf_tabPut a v h

/-- Writing a byte string keeps memory canonical. -/
theorem memWrite_wf (l : List Byte) (a : Nat) {m : Tab Byte} (h : tabWf 0#8 m = true) : tabWf 0#8 (memWrite m a l) = true := by
  induction l generalizing a m with
  | nil => exact h
  | cons b t ih => exact ih (a + 1) (memPut_wf a b h)

/-- Writing a byte string leaves every byte outside it. -/
theorem memGet_memWrite_of_not_mem (l : List Byte) (a b : Nat) (m : Tab Byte) (h : b < a ∨ a + l.length ≤ b) :
    memGet (memWrite m a l) b = memGet m b := by
  induction l generalizing a m with
  | nil => rfl
  | cons x t ih =>
    simp only [List.length_cons] at h
    rw [memWrite, ih (a + 1) (memPut m a x) (by omega), memGet_memPut_of_ne m (by omega)]

/-- A written byte reads back. -/
theorem memGet_memWrite (l : List Byte) (a i : Nat) {m : Tab Byte} (h : tabWf 0#8 m = true) (hi : i < l.length) :
    memGet (memWrite m a l) (a + i) = l.getD i 0#8 := by
  induction l generalizing a i m with
  | nil => simp at hi
  | cons x t ih =>
    cases i with
    | zero => simp [memWrite, memGet_memWrite_of_not_mem t (a + 1) a _ (by omega), memGet_memPut_self a x h]
    | succ i =>
      have := ih (a + 1) i (memPut_wf a x h) (by simpa using hi)
      simpa [memWrite, Nat.add_assoc, Nat.add_comm 1 i] using this

/-- Reading a span of a table whose entries all lie at or above its start. -/
theorem memTake_eq (n a : Nat) {m : Tab Byte} (h : tabWfFrom 0#8 a m = true) :
    memTake n a m = (List.range n).map (fun i => memGet m (a + i)) := by
  induction n generalizing a m with
  | zero => rfl
  | succ n ih =>
    rw [List.range_succ_eq_map, List.map_cons, List.map_map]
    cases m with
    | nil =>
      rw [memTake, ih (a + 1) (m := []) rfl]
      simp [memGet, tabGet, tabFind, Function.comp_def]
    | cons e t =>
      obtain ⟨k, v⟩ := e
      have hw := h
      simp only [tabWfFrom, Bool.and_eq_true, decide_eq_true_eq] at h
      rw [memTake]
      split_ifs with hk
      · subst hk
        rw [ih (k + 1) h.2]
        simp only [memGet, tabGet, tabFind, Nat.add_zero, if_true, Option.getD_some, List.cons.injEq, true_and]
        refine List.map_congr_left fun i _ => ?_
        have : ¬ k = k + (i + 1) := by omega
        simp [Function.comp, this, Nat.add_assoc, Nat.add_comm 1 i]
      · have hlt : tabWfFrom 0#8 (a + 1) ((k, v) :: t) = true := by
          simp only [tabWfFrom, Bool.and_eq_true, decide_eq_true_eq]
          exact ⟨⟨by omega, h.1.2⟩, h.2⟩
        rw [ih (a + 1) hlt]
        have h0 : memGet ((k, v) :: t) a = 0#8 := by
          simp [memGet, tabGet, tabFind_eq_none_of_wfFrom (d := 0#8) (a := a + 1) (Nat.lt_succ_self a) hlt]
        simp only [Nat.add_zero, h0, List.cons.injEq, true_and]
        refine List.map_congr_left fun i _ => ?_
        simp [Function.comp, Nat.add_assoc, Nat.add_comm 1 i]

theorem tabFind_dropWhile_lt {d : α} (a : Nat) {lo : Nat} {t : Tab α} (ht : tabWfFrom d lo t = true) :
    tabWfFrom d a (t.dropWhile (fun e => decide (e.1 < a))) = true ∧
    ∀ b, a ≤ b → tabFind b (t.dropWhile (fun e => decide (e.1 < a))) = tabFind b t := by
  induction t generalizing lo with
  | nil => exact ⟨rfl, fun _ _ => rfl⟩
  | cons e t ih =>
    obtain ⟨j, w⟩ := e
    simp only [tabWfFrom, Bool.and_eq_true, decide_eq_true_eq] at ht
    by_cases h : j < a
    · have := ih ht.2
      simp only [List.dropWhile_cons, h, decide_true, if_true]
      refine ⟨this.1, fun b hb => ?_⟩
      have hj : ¬ j = b := by omega
      simp [tabFind, hj, this.2 b hb]
    · simp only [List.dropWhile_cons, h, decide_false]
      refine ⟨?_, fun b _ => rfl⟩
      simp only [Bool.false_eq_true, if_false, tabWfFrom, Bool.and_eq_true, decide_eq_true_eq]
      exact ⟨⟨by omega, ht.1.2⟩, ht.2⟩

/-- In canonical memory a span reads byte by byte. -/
theorem memRead_eq (a n : Nat) {m : Tab Byte} (h : tabWf 0#8 m = true) :
    memRead m a n = (List.range n).map (fun i => memGet m (a + i)) := by
  have := tabFind_dropWhile_lt a (lo := 0) h
  rw [memRead, memTake_eq n a this.1]
  refine List.map_congr_left fun i _ => ?_
  simp [memGet, tabGet, this.2 (a + i) (by omega)]

/-- A span reads back what was written to it. -/
theorem memRead_memWrite (l : List Byte) (a : Nat) {m : Tab Byte} (h : tabWf 0#8 m = true) :
    memRead (memWrite m a l) a l.length = l := by
  rw [memRead_eq a l.length (memWrite_wf l a h)]
  apply List.ext_getElem
  · simp
  · intro i h1 h2
    simp only [List.length_map, List.length_range] at h1
    simp [memGet_memWrite l a i h h2, h2]

end Sys2Proof.Machine
end

