-- ==== Sys2Proof/Tests/Fixture.lean ====
section
/-! SUPPORT. Small devices for the tests: an awake device with the link up and a small image, most of it zero. -/

namespace Sys2Proof.Tests

open Sys2Proof.Machine Sys2Proof.Safety

/-- Where the bytes of a section begin, for sections laid one after another behind the directory; far beyond the end for a
section that is not there. -/
def tOff (code : Nat) : Nat → List (Nat × List Byte) → Nat
  | _, [] => 0x100000
  | o, (c, b) :: t => if c = code then o else tOff code (o + b.length) t

/-- An image of a zero header, the directory (08_structure_image R177) and the given sections; the last one reads as zero
past its bytes. -/
def tImage (secs : List (Nat × List Byte)) : List Byte :=
  List.replicate 0xA0 0#8 ++
  (List.range 12).flatMap (fun i => leBytes 4 (i + 1) ++ leBytes 4 (tOff (i + 1) 0x160 secs) ++ List.replicate 8 0#8) ++
  secs.flatMap (fun x => x.2)

/-- The awake device, its link up, with an image of the given sections. -/
def tDev (secs : List (Nat × List Byte)) : Dev :=
  { Dev.reset with
    pwr := { Power.reset with mode := .run, vdd5p := true, vres := 9000 },
    link := { HostLink.reset with up := true },
    img := { ImageSt.reset with live := some { slot := 0, bytes := tImage secs, base := [], legal := [], digest := [], splices := [] } } }

/-- The same device without an image. -/
def tBare : Dev := { tDev [] with img := ImageSt.reset }

/-- A state on a device. -/
def tSt (d : Dev) : State := { dev := d, seen := d, pending := [] }

/-- The device in a power state. -/
def tMode (m : PMode) : Dev := { tBare with pwr := { tBare.pwr with mode := m } }

/-- A device at a device tick-of-second and run tick. -/
def tAt (d : Dev) (tick run : Nat) : Dev := { d with clk := { d.clk with tick := tick, runTick := run } }

/-- A link framing whose CRC field holds a number. -/
def tLink (crc : Word) : Link := { quad := false, session := false, rsv := 0, trailer := [], crc := crc }

/-- A job of an opcode. -/
def tJob (n op : Nat) (args : List Byte) (ph : JobPhase) : Job :=
  { num := n, op := op, args := args, role := 3, phase := ph, stage := 0, needs := [], ready := 0, fin := none,
    status := if ph = .finished then .done else .busy, word := 0, result := [1#8, 2#8, 3#8, 4#8], cap := [] }

/-- The device with some jobs held. -/
def tJobs (d : Dev) (n : Nat) : Dev := { d with link := { d.link with jobs := (List.range n).map (fun i => tJob (i + 1) 0x22 [] .running) } }

/-- A session of a role, with a fixed key. -/
def tSess (role bad : Nat) : Session := { role := role, key := List.replicate 16 7#8, ctr := 5, lastT := 0, bad := bad }

/-- The device with a session open. -/
def tIn (d : Dev) (role bad : Nat) : Dev := { d with vault := { d.vault with session := some (tSess role bad) } }

/-- The device that a session transaction with counter 6 leaves to its access. -/
def tIn6 (d : Dev) (role : Nat) : Dev :=
  { tIn d role 0 with vault := { (tIn d role 0).vault with session := some { tSess role 0 with ctr := 6, lastT := d.clk.runTick } } }

/-- A well-framed EXEC in the session of a role is admitted. -/
theorem admitCmd_tIn {d : Dev} {role op : Nat} {args : List Byte} {h n : Bool} (hl : (tIn d role 0).linkLive = true)
    (hb : (tIn d role 0).linkBusy = false) (hn : (execPayload op args).length + 12 ≤ 4096) (hv : n = true → d.isLive = true) :
    admitCmd (tIn d role 0) (framedIn (tSess role 0) 2 0x30000000 (execPayload op args).length (execPayload op args) 6) op args h n =
      some (true, tIn6 d role) := by
  unfold admitCmd
  rw [admit_framedIn hl hb hn (Or.inr rfl) rfl (show 5 < 6 by decide) (by decide)]
  have : (tIn6 d role).isLive = d.isLive := rfl
  cases h <;> cases n <;> simp_all [Dev.hostDenied, tIn6, tIn, Dev.isLive]

/-- A well-framed EXEC is admitted, by one check that evaluates. -/
theorem cmdOk {d : Dev} {op : Nat} {args : List Byte} {h n : Bool}
    (hc : (d.linkLive && !d.linkBusy && decide ((execPayload op args).length ≤ 4096) && (!h || !d.hostDenied false) &&
      (!n || d.isLive)) = true) : admitCmd d (framedCmd op args) op args h n = some (false, d) := by
  simp only [Bool.and_eq_true, Bool.not_eq_true', decide_eq_true_eq, Bool.or_eq_true] at hc
  obtain ⟨⟨⟨⟨h1, h2⟩, h3⟩, h4⟩, h5⟩ := hc
  exact admitCmd_framed h1 h2 h3 (fun e => by simpa [e] using h4) (fun e => by simpa [e] using h5)

/-- A well-framed request is admitted, by one check that evaluates. -/
theorem reqOk {d : Dev} {op addr len : Nat} {p : List Byte} (hc : (d.linkLive && !d.linkBusy && decide (len ≤ 4096)) = true) :
    admitted d (framed op addr len p) op addr len p = some (false, d) := by
  simp only [Bool.and_eq_true, Bool.not_eq_true', decide_eq_true_eq] at hc
  exact admit_framed hc.1.1 hc.1.2 hc.2

end Sys2Proof.Tests
end

