-- ==== Sys2Proof/Tests/Slice0.lean ====
section
/-! SUPPORT. The model's own tests: an ill-formed term for each check of WellFormed, single steps whose expected values come
from the spec's sentences, and for each statement a state and operands that meet its hypotheses. -/

namespace Sys2Proof.Tests

open Sys2Proof.Machine Sys2Proof.Safety

-- the proofs below run one after another: their kernel evaluations need memory, not threads
set_option Elab.async false

/-! ## Witnesses: the block and the host link -/

theorem witness_StepRunsFrontCommand : { tSt tBare with pending := [.wake, .scrollN] }.pending = .wake :: [.scrollN] := rfl

theorem witness_WellFormedCommandNeverStops : (Instr.laneStuck 199).wf = true ∧ (Instr.scrub true 8191).wf = true := by decide

theorem witness_WellFormedQueueRunsOn :
    ({ tSt tBare with pending := [.wake, .laneStuck 199] }.pending.all Instr.wf) = true ∧ ((tSt tBare).pending.all Instr.wf) = true := by decide

theorem witness_StepKeepsDeviceInvariant :
    devInv tBare = true ∧ ∃ t, step { tSt tBare with pending := [.chargerThreshold 9000] } = .next t := ⟨by decide, _, rfl⟩

theorem witness_ReadsSeeTheTickStart : ∃ t, exec (.chargerThreshold 9000) (tSt tBare) = .next t := ⟨_, rfl⟩

theorem witness_TickBoundaryAdvancesTime :
    (tAt tBare 15998 0).clk.tick < 15999 ∧ (tAt tBare 15999 0).clk.tick = 15999 := by decide

/-- Asleep with a wake due at the next point at which the tick resumes, one tick before it. -/
def tWaking : Dev := { tAt (tMode .sleep) 124 0 with pwr := { (tMode .sleep).pwr with waking := true } }

theorem witness_TickOutsideRunChangesOnlyTime :
    (tMode .hold).pwr.mode = .hold ∧ (tMode .reset).pwr.mode = .reset ∧ (tMode .nap).pwr.mode = .nap ∧
    (tMode .nap).pwr.waking = false ∧ (tMode .nap).poModule 0 ≠ 3 ∧ (tMode .sleep).pwr.mode = .sleep ∧
    (tMode .sleep).pwr.waking = false ∧ (tAt tWaking 125 0).clk.advance.tick % 125 ≠ 0 ∧
    tWaking.pwr.mode = .sleep ∧ tWaking.pwr.waking = true ∧ tWaking.clk.advance.tick % 125 = 0 ∧
    tBare.pwr.mode ≠ .hold ∧ ([true, false, true, false, true] : List Bool).length = 5 := by decide

theorem witness_CommandByteLayout :
    (3 < 4) ∧ ({ tLink 0 with rsv := 8 } : Link).rsv ≠ 0 ∧ ({ tLink 0 with session := true } : Link).session = true ∧
    tBare.vault.session = none := by decide

theorem witness_LinkSilentWhileDown :
    (request Dev.reset (.rd (tLink 0) 0 4)).isSome = true ∧ Dev.reset.linkLive = false ∧ (tMode .hold).linkLive = false := by decide

theorem witness_LinkBusyAsleepOrFailing :
    (request (tMode .nap) (.commit (tLink 0) [])).isSome = true ∧ (tMode .nap).linkLive = true ∧ (tMode .sleep).linkLive = true ∧
    (tMode .failing).linkLive = true := by decide

theorem witness_WrongCrcIsDeniedAndCounted :
    request tBare (.rd (tLink 0) 0 4) = some (tLink 0, 0, 0, 4, []) ∧ tBare.linkLive = true ∧ tBare.linkBusy = false ∧
    linkCrcOk (tLink 0) 0 0 (wireLen (tLink 0) 0 4) [] = false := by decide +kernel

/-- A COMMIT in a session, its trailer missing, its CRC right. -/
def tNoTrailer : Link :=
  { quad := false, session := true, rsv := 0, trailer := [],
    crc := crc32c (linkFrame { tLink 0 with session := true } 2 0x30000000 4 (execPayload 1 [])) }

theorem witness_SessionTrailerIsChecked :
    mailbox (.commit tNoTrailer []) = some (tNoTrailer, 1, [], true, false, true) ∧ tBare.linkLive = true ∧ tBare.linkBusy = false ∧
    linkCrcOk tNoTrailer 2 0x30000000 (wireLen tNoTrailer 2 (execPayload 1 []).length) (execPayload 1 []) = true ∧
    tNoTrailer.rsv = 0 ∧ tNoTrailer.session = true ∧ wireLen tNoTrailer 2 (execPayload 1 []).length ≤ 4096 ∧
    tBare.vault.session = none ∧ (tIn tBare 0 1).vault.session = some (tSess 0 1) ∧ (tIn tBare 0 2).vault.session = some (tSess 0 2) ∧
    (∀ x, trailerOk tNoTrailer x 2 0x30000000 (wireLen tNoTrailer 2 (execPayload 1 []).length) (execPayload 1 []) = false) ∧
    (tSess 0 1).bad < 2 ∧ 2 ≤ (tSess 0 2).bad :=
  ⟨rfl, rfl, rfl, by decide +kernel, rfl, rfl, by decide, rfl, rfl, rfl, fun _ => rfl, by decide, by decide⟩

/-- The device with the HOST role's slot 5 LIVE. -/
def tHost : Dev := tBare.setSlot 5 { Slot.init with state := .live }

theorem witness_MailboxChecksInOrder :
    mailbox (.saveNow (framedCmd 4 [0#8]) [0#8]) = some (framedCmd 4 [0#8], 4, [0#8], false, false, true) ∧
    mailbox (.timeSet (framedCmd 0x10 (List.replicate 9 0#8)) (List.replicate 9 0#8)) =
      some (framedCmd 0x10 (List.replicate 9 0#8), 0x10, List.replicate 9 0#8, true, true, true) ∧
    mailbox (.commit (framedCmd 1 []) []) = some (framedCmd 1 [], 1, [], true, false, true) ∧
    admitted tBare (framedCmd 4 [0#8]) 2 0x30000000 (execPayload 4 [0#8]).length (execPayload 4 [0#8]) = some (false, tBare) ∧
    admitted tHost (framedCmd 0x10 (List.replicate 9 0#8)) 2 0x30000000 (execPayload 0x10 (List.replicate 9 0#8)).length
      (execPayload 0x10 (List.replicate 9 0#8)) = some (false, tHost) ∧ tHost.slLive 5 = true ∧
    admitted tBare (framedCmd 1 []) 2 0x30000000 (execPayload 1 []).length (execPayload 1 []) = some (false, tBare) ∧
    tBare.isLive = false :=
  ⟨rfl, rfl, rfl, reqOk (by decide), reqOk (by decide), by decide, reqOk (by decide), rfl⟩

theorem witness_JobIsAcceptedWithFreeNumber :
    mailbox (.eventRead (framedCmd 0x22 (List.replicate 6 0#8)) (List.replicate 6 0#8)) =
      some (framedCmd 0x22 (List.replicate 6 0#8), 0x22, List.replicate 6 0#8, true, false, false) ∧
    Instr.eventRead (framedCmd 0x22 (List.replicate 6 0#8)) (List.replicate 6 0#8) ∈
      jobCommands (framedCmd 0x22 (List.replicate 6 0#8)) (List.replicate 6 0#8) ∧
    admitCmd (tJobs tBare 32) (framedCmd 0x22 (List.replicate 6 0#8)) 0x22 (List.replicate 6 0#8) false false = some (false, tJobs tBare 32) ∧
    32 ≤ (tJobs tBare 32).link.jobs.length ∧
    admitCmd (tJobs tBare 31) (framedCmd 0x22 (List.replicate 6 0#8)) 0x22 (List.replicate 6 0#8) false false = some (false, tJobs tBare 31) ∧
    (tJobs tBare 31).link.jobs.length < 32 :=
  ⟨rfl, by simp [jobCommands], cmdOk (by decide), by decide, cmdOk (by decide), by decide⟩

theorem witness_ReadAnswersWordsOfTheTick :
    admitted tBare (framed 0 0x20000000 4 []) 0 (0x20000000#32).toNat 4 [] = some (false, tBare) ∧ spanInMap 0x20000000 4 = true ∧
    rdShape 0x20000000 4 = true ∧ wordSpace 0x20000000 = true ∧
    admitted tBare (framed 0 0x017FFFFF 1 []) 0 (0x017FFFFF#32).toNat 1 [] = some (false, tBare) ∧ spanInMap 0x017FFFFF 1 = true ∧
    rdShape 0x017FFFFF 1 = true ∧
    admitted tBare (framed 0 0x10000000 4096 []) 0 (0x10000000#32).toNat 4096 [] = some (false, tBare) ∧ spanInMap 0x10000000 4096 = true ∧
    rdShape 0x10000000 4096 = true :=
  ⟨reqOk (by decide), by decide, by decide, by decide, reqOk (by decide), by decide, by decide,
   reqOk (by decide), by decide, by decide⟩

/-- A store map (08_structure_image R183): REGION, FLAGS, BASE and SIZE in KiB of each region. -/
def tMap (l : List (Nat × Nat × Nat × Nat)) : List Byte :=
  leBytes 2 l.length ++ List.replicate 14 0#8 ++
  l.flatMap (fun (c, f, b, z) => leBytes 2 c ++ leBytes 2 f ++ leBytes 4 b ++ leBytes 4 z ++ leBytes 4 0)

/-- The device with an MRAM region 1 and a TN3003 region 18, an SRAM region 33 and the display's region 34, all open to the
host, and a closed MRAM region 2. -/
def tStore : Dev := tDev [(12, tMap [(1, 0x18, 0, 4), (18, 0x18, 0x1000, 4), (2, 0, 0x2000, 4), (33, 0x19, 0, 4), (34, 0x19, 0x1000, 8)])]

theorem witness_BadTileOutranksTorn :
    tStore.mramRefusal 0 4096 3 = none ∧ tStore.sramRefusal 0xFFF 2 3 = none := by decide +kernel

/-- The device with one job, running or finished, whose result has 4 bytes. -/
def tOne (ph : JobPhase) : Dev := { tBare with link := { tBare.link with jobs := [tJob 7 0x22 [] ph] } }

theorem witness_StatReportsTheJob :
    admitted tBare (framed 3 7 16 []) 3 (65536 * 0 + 7) 16 [] = some (false, tBare) ∧ tBare.findJob 7 = none ∧ 0 % 4 = 0 ∧ 16 ≤ 4080 ∧
    admitted (tOne .running) (framed 3 7 4080 []) 3 (65536 * 0 + 7) 4080 [] = some (false, tOne .running) ∧
    (tOne .running).findJob 7 = some (tJob 7 0x22 [] .running) ∧
    admitted (tOne .finished) (framed 3 7 3 []) 3 (65536 * 0 + 7) 3 [] = some (false, tOne .finished) ∧
    (tOne .finished).findJob 7 = some (tJob 7 0x22 [] .finished) ∧ 0 + 3 < (tJob 7 0x22 [] .finished).result.length ∧
    admitted (tOne .finished) (framed 3 7 4 []) 3 (65536 * 0 + 7) 4 [] = some (false, tOne .finished) ∧
    (tJob 7 0x22 [] .finished).result.length ≤ 0 + 4 :=
  ⟨reqOk (by decide), by decide, by decide, by decide, reqOk (by decide), by decide,
   reqOk (by decide), by decide, by decide, reqOk (by decide), by decide⟩

/-- The device with the calibration seal open. -/
def tOpen : Dev := { tBare with tam := { tBare.tam with sealPin := false } }

/-- The device with a port 0 of module 3, so PORT_BAUD is ignored there. -/
def tPulse : Dev := tDev [(6, [3#8])]

theorem witness_WordWriteIsLatchedOrShadowed :
    admitted tBare (framed 1 (stickyAddr 127) 4 (leBytes 4 1)) 1 (stickyAddr 127) 4 (leBytes 4 1) = some (false, tBare) ∧
    wordWrite (.saveMinWrite (framed 1 0x4000 4 (leBytes 4 1)) 1) = some (framed 1 0x4000 4 (leBytes 4 1), 0x4000, 1) ∧
    admitted tBare (framed 1 0x4000 4 (leBytes 4 1)) 1 0x4000 4 (leBytes 4 1) = some (false, tBare) ∧
    tBare.wordRefusal false 0x4000 1 = none ∧ (regAcc 0x4000).1 = .rw ∧ tBare.regIgnored 0x4000 = false ∧
    wordWrite (.portBaudWrite (framed 1 0x30004 4 (leBytes 4 1)) 0 1) = some (framed 1 0x30004 4 (leBytes 4 1), 0x30004, 1) ∧
    admitted tPulse (framed 1 0x30004 4 (leBytes 4 1)) 1 0x30004 4 (leBytes 4 1) = some (false, tPulse) ∧
    tPulse.wordRefusal false 0x30004 1 = none ∧ (regAcc 0x30004).1 = .rw ∧ tPulse.regIgnored 0x30004 = true ∧
    wordWrite (.hlCauseClear (framed 1 0x24 4 (leBytes 4 2)) 2) = some (framed 1 0x24 4 (leBytes 4 2), 0x24, 2) ∧
    admitted tBare (framed 1 0x24 4 (leBytes 4 2)) 1 0x24 4 (leBytes 4 2) = some (false, tBare) ∧
    tBare.wordRefusal false 0x24 2 = none ∧ (regAcc 0x24).1 = .w1c ∧
    wordWrite (.isleDemandWrite (framed 1 0x20010 4 (leBytes 4 8)) 0 8) = some (framed 1 0x20010 4 (leBytes 4 8), 0x20010, 8) ∧
    admitted tBare (framed 1 0x20010 4 (leBytes 4 8)) 1 0x20010 4 (leBytes 4 8) = some (false, tBare) ∧
    (regAcc 0x20010).1 = .sh ∧ tBare.wordRefusal false 0x20010 8 = none := by
  refine ⟨reqOk (by decide), rfl, reqOk (by decide), by decide +kernel, by decide, by decide, rfl,
    reqOk (by decide), by decide +kernel, by decide, by decide +kernel, rfl, reqOk (by decide),
    by decide, by decide, rfl, reqOk (by decide), by decide, by decide +kernel⟩

theorem witness_RefusedWordWriteChangesNothing :
    wordWrite (.saveMinWrite (framed 1 0x4000 4 (leBytes 4 0)) 0) = some (framed 1 0x4000 4 (leBytes 4 0), 0x4000, 0) ∧
    admitted tBare (framed 1 0x4000 4 (leBytes 4 0)) 1 0x4000 4 (leBytes 4 0) = some (false, tBare) ∧
    tBare.wordRefusal false 0x4000 0 = some .range ∧
    wordWrite (.elmPhaseWrite (framed 1 0x117E4 4 (leBytes 4 1)) 191 1) = some (framed 1 0x117E4 4 (leBytes 4 1), 0x117E4, 1) ∧
    admitted tBare (framed 1 0x117E4 4 (leBytes 4 1)) 1 0x117E4 4 (leBytes 4 1) = some (false, tBare) ∧
    (regAcc 0x117E4).1 = .lk ∧ tBare.sealOpen = false ∧
    admitted tOpen (framed 1 0x117E4 4 (leBytes 4 1)) 1 0x117E4 4 (leBytes 4 1) = some (false, tOpen) ∧
    tOpen.sealOpen = true ∧ tOpen.tam.freeze = false ∧ tOpen.roleOf false ≠ 1 :=
  ⟨rfl, reqOk (by decide), by decide +kernel, rfl, reqOk (by decide), by decide, by decide, reqOk (by decide), by decide, by decide,
   by decide⟩

theorem witness_DeadPctRangeIsEnforced :
    admitted tBare (framed 1 0x2004 4 (leBytes 4 (4#32).toNat)) 1 0x2004 4 (leBytes 4 (4#32).toNat) = some (false, tBare) ∧
    bitsOf (4#32).toNat 5 0 < 5 ∧
    admitted tBare (framed 1 0x2004 4 (leBytes 4 (51#32).toNat)) 1 0x2004 4 (leBytes 4 (51#32).toNat) = some (false, tBare) ∧
    50 < bitsOf (51#32).toNat 5 0 :=
  ⟨reqOk (by decide), by decide, reqOk (by decide), by decide⟩

/-- Two words: DRAW_BUDGET 8,000 and POWER_CTL with DEAD_PCT 50, or 51. -/
def tTwo (pct : Nat) : List Byte := leBytes 4 8000 ++ leBytes 4 pct

theorem witness_RegisterWriteIsAllOrNothing :
    (0x2000#32).toNat < 0x40000 ∧ (tTwo 50).length % 4 = 0 ∧ 0 < (tTwo 50).length ∧ spanInMap 0x2000 (tTwo 50).length = true ∧
    admitted tBare (framed 1 0x2000 8 (tTwo 50)) 1 (0x2000#32).toNat (tTwo 50).length (tTwo 50) = some (false, tBare) ∧
    tBare.wordRefusal false 0x2000 8000 = none ∧ tBare.wordRefusal false 0x2004 50 = none ∧
    admitted tBare (framed 1 0x2000 8 (tTwo 51)) 1 (0x2000#32).toNat (tTwo 51).length (tTwo 51) = some (false, tBare) ∧
    tBare.wordRefusal false 0x2004 51 = some .range :=
  ⟨by decide, by decide, by decide, by decide, reqOk (by decide), by decide +kernel, by decide +kernel, reqOk (by decide),
   by decide +kernel⟩

/-! ## Witnesses: mailbox commands that act at once -/

/-- An awake device with an image of zeros. -/
def tLive : Dev := tDev []

theorem witness_CommitAbandonAbort :
    admitCmd { tLive with link := { tLive.link with shadow := [(0x20010, 8)] } } (framedCmd 1 []) 1 [] false true =
      some (false, { tLive with link := { tLive.link with shadow := [(0x20010, 8)] } }) ∧
    admitCmd tLive (framedCmd 2 []) 2 [] false true = some (false, tLive) ∧
    admitCmd tLive (framedCmd 3 [255#8, 255#8]) 3 [255#8, 255#8] false false = some (false, tLive) :=
  ⟨cmdOk (by decide +kernel), cmdOk (by decide +kernel), cmdOk (by decide +kernel)⟩

/-- A device with some host wakes held. -/
def tWakes (n : Nat) : Dev := { tLive with pwr := { tLive.pwr with wakes := List.replicate n 9 } }

/-- OFFSET_SET arguments: an offset and changes, each a time and an offset. -/
def tOffsets (cur : Int) (ch : List (Nat × Int)) : List Byte :=
  leBytes 2 (twos 16 cur) ++ [byteOf ch.length] ++ ch.flatMap (fun x => leBytes 4 x.1 ++ leBytes 2 (twos 16 x.2))

theorem witness_TimeCommandsTakeEffect :
    admitCmd tLive (framedCmd 4 []) 4 [] false true = some (false, tLive) ∧
    admitCmd (tWakes 15) (framedCmd 0x12 (leBytes 4 9)) 0x12 (leBytes 4 9) false true = some (false, tWakes 15) ∧
    (tWakes 15).pwr.wakes.length < 16 ∧
    admitCmd (tWakes 16) (framedCmd 0x12 (leBytes 4 9)) 0x12 (leBytes 4 9) false true = some (false, tWakes 16) ∧
    16 ≤ (tWakes 16).pwr.wakes.length ∧
    admitCmd (tWakes 16) (framedCmd 0x13 []) 0x13 [] false true = some (false, tWakes 16) ∧
    admitCmd tLive (framedCmd 0x1B (List.replicate 16 255#8)) 0x1B (List.replicate 16 255#8) true true = some (false, tLive) ∧
    admitCmd tLive (framedCmd 0x11 (tOffsets 840 [(1, -720), (2, 0), (3, 15), (4, 60)])) 0x11
      (tOffsets 840 [(1, -720), (2, 0), (3, 15), (4, 60)]) true true = some (false, tLive) ∧
    (tOffsets 840 [(1, -720), (2, 0), (3, 15), (4, 60)]).length = 3 + 6 * u8 (tOffsets 840 [(1, -720), (2, 0), (3, 15), (4, 60)]) 2 ∧
    sext 16 (u16 (tOffsets 840 [(1, -720), (2, 0), (3, 15), (4, 60)]) 0) = 840 ∧
    ascending (0 :: [1, 2, 3, 4]) = true ∧
    admitCmd tLive (framedCmd 0x11 (tOffsets 855 [])) 0x11 (tOffsets 855 []) true true = some (false, tLive) ∧
    sext 16 (u16 (tOffsets 855 []) 0) = 855 :=
  ⟨cmdOk (by decide +kernel), cmdOk (by decide +kernel), by decide, cmdOk (by decide +kernel), by decide, cmdOk (by decide +kernel),
   cmdOk (by decide +kernel), cmdOk (by decide +kernel), by decide, by decide, by decide, cmdOk (by decide +kernel), by decide⟩

theorem witness_CalendarCommandsTakeEffect :
    admitCmd tLive (framedCmd 0x19 [3#8]) 0x19 [3#8] true true = some (false, tLive) ∧
    admitCmd tLive (framedCmd 0x19 [4#8]) 0x19 [4#8] true true = some (false, tLive) ∧
    admitCmd tLive (framedCmd 0x1A [3#8, 1#8]) 0x1A [3#8, 1#8] false true = some (false, tLive) ∧
    admitCmd tLive (framedCmd 0x1A [3#8, 2#8]) 0x1A [3#8, 2#8] false true = some (false, tLive) :=
  ⟨cmdOk (by decide +kernel), cmdOk (by decide +kernel), cmdOk (by decide +kernel), cmdOk (by decide +kernel)⟩

/-- A device whose strait 0 is configured for lane 0 at 50 Hz with power quality and capture on; straits past it read lane 0
too, without either. -/
def tStrait : Dev := tDev [(2, [0#8, 6#8])]

/-- Its capture slots all in a state, on a strait. -/
def tCaps (d : Dev) (st strait : Nat) : Dev :=
  [0, 1, 2, 3].foldl (fun d c => d.setCap c { CapSlot.free with state := st, strait := strait, want := 4, total := 4 }) d

theorem witness_CaptureSlotsAreTakenAndFreed :
    admitCmd tStrait (framedCmd 0x24 [0#8]) 0x24 [0#8] false true = some (false, tStrait) ∧ tStrait.strOn 0 = true ∧
    tStrait.stCapture 0 = true ∧ tStrait.slotLeft 0 = true ∧ tStrait.capReq = [] ∧ tStrait.capFilling 0 = none ∧
    (List.range 4).find? (fun c => (tStrait.cap c).state == 0) = some 0 ∧
    admitCmd (tCaps tStrait 1 1) (framedCmd 0x24 [0#8]) 0x24 [0#8] false true = some (false, tCaps tStrait 1 1) ∧
    (tCaps tStrait 1 1).slotLeft 0 = false ∧ (tCaps tStrait 1 1).stCapture 0 = true ∧
    (tCaps tStrait 1 1).capFilling 0 = none ∧ (∀ c, c < 4 → ((tCaps tStrait 1 1).cap c).state ≠ 0) ∧
    admitCmd tStrait (framedCmd 0x24 [16#8]) 0x24 [16#8] false true = some (false, tStrait) ∧
    (tCaps tStrait 1 0).capFilling 0 = some 0 ∧
    admitCmd (tCaps tStrait 2 0) (framedCmd 0x25 [3#8]) 0x25 [3#8] false true = some (false, tCaps tStrait 2 0) ∧
    ((tCaps tStrait 2 0).cap 3).state ≠ 1 ∧
    admitCmd (tCaps tStrait 1 0) (framedCmd 0x25 [3#8]) 0x25 [3#8] false true = some (false, tCaps tStrait 1 0) ∧
    ((tCaps tStrait 1 0).cap 3).state = 1 ∧ ((tCaps tStrait 1 0).cap 3).want ≤ ((tCaps tStrait 1 0).cap 3).total ∧
    admitCmd tLive (framedCmd 0x25 [4#8]) 0x25 [4#8] false true = some (false, tLive) := by
  refine ⟨cmdOk ?_, ?_, ?_, ?_, ?_, ?_, ?_, cmdOk ?_, ?_, ?_, ?_, ?_, cmdOk ?_, ?_, cmdOk ?_, ?_, cmdOk ?_, ?_, ?_, cmdOk ?_⟩
  all_goals decide +kernel

theorem witness_NotifyReadTakesTheOldest :
    admitCmd { tBare with evt := { tBare.evt with released := List.replicate 33 { kind := 0, knot := 0, seq := 1 } } } (framedCmd 0x23 [])
      0x23 [] false false =
      some (false, { tBare with evt := { tBare.evt with released := List.replicate 33 { kind := 0, knot := 0, seq := 1 } } }) :=
  cmdOk (by decide +kernel)

/-- A PORT entry (08_structure_image R183): MODULE and PARAM. -/
def tPort (m : Nat) (param : List Byte) : List Byte := byteOf m :: List.replicate 15 0#8 ++ sliceB param 0 48

/-- Ports 0 MBUS, 1 RS485 master, 2 RS485 slave, 3 OPTO up to Z = 5, 4 relay outputs with feedback, 5 pulse inputs with
MIN_ON_MS 1. -/
def tPortSec : List Byte :=
  tPort 1 [] ++ tPort 2 [] ++ tPort 2 [0#8, 0#8, 1#8] ++ tPort 5 [0#8, 0#8, 0#8, 5#8] ++ tPort 4 [0#8, 0x0C#8] ++
  tPort 3 ((List.replicate 4 [1#8, 1#8, 0#8, 0#8, 0#8, 0#8, 0#8, 0#8]).flatten)

/-- An ISLE entry of a type whose volume comes from a partner. -/
def tUtil (type : Nat) : List Byte := sliceB (byteOf type :: List.replicate 0x1B 0#8 ++ [2#8]) 0 64

/-- The device with those ports, isle 0 a utility isle fed by a partner. -/
def tPorts : Dev := tDev [(6, tPortSec), (4, tUtil 5)]

/-- Its partner table holds one entry. -/
def tPart (d : Dev) (i : Nat) (st : PtState) (port kind : Nat) : Dev :=
  d.setPartner i { Partner.free with state := st, port := port, kind := kind, primary := 9 }

/-- PARTNER_ADD arguments: port, primary address 9, kind, period. -/
def tAdd (port kind period : Nat) : List Byte :=
  [byteOf port, 0#8, 9#8] ++ List.replicate 7 0#8 ++ [byteOf kind] ++ leBytes 4 period

/-- PARTNER_SET arguments. -/
def tSet (i period kind : Nat) : List Byte := leBytes 2 i ++ leBytes 4 period ++ [byteOf kind]

theorem witness_PartnerCommandsTakeEffect :
    (admitCmd tPorts (framedCmd 0x41 (tAdd 1 4 86400)) 0x41 (tAdd 1 4 86400) true true = some (false, tPorts) ∧
      u8 (tAdd 1 4 86400) 0 < 32 ∧ tPorts.portBus 1 = true ∧ u8 (tAdd 1 4 86400) 10 = 4 ∧ tPorts.portMaster 1 = true ∧
      tPorts.addrOk 1 (sliceB (tAdd 1 4 86400) 1 9) = true ∧ u32 (tAdd 1 4 86400) 11 = 86400 ∧
      tPorts.atAddress 1 false 9 0 0 0 0 = none ∧ tPorts.freePartner 1 = some 0) ∧
    (admitCmd (tPart tPorts 4095 .candidate 0 0) (framedCmd 0x42 [255#8, 15#8]) 0x42 [255#8, 15#8] true true =
        some (false, tPart tPorts 4095 .candidate 0 0) ∧
      ((tPart tPorts 4095 .candidate 0 0).partner 4095).state = .candidate ∧
      admitCmd (tPart tPorts 4095 .retired 0 0) (framedCmd 0x42 [255#8, 15#8]) 0x42 [255#8, 15#8] true true =
        some (false, tPart tPorts 4095 .retired 0 0) ∧
      (tPart tPorts 4095 .retired 0 0).atAddress 0 false 9 0 0 0 0 = none) ∧
    (admitCmd (tPart tPorts 4095 .enrolled 0 0) (framedCmd 0x43 [255#8, 15#8]) 0x43 [255#8, 15#8] true true =
        some (false, tPart tPorts 4095 .enrolled 0 0) ∧
      ((tPart tPorts 4095 .enrolled 0 0).partner 4095).state ≠ .free) ∧
    (admitCmd (tPart tPorts 4095 .retired 0 0) (framedCmd 0x44 [255#8, 15#8]) 0x44 [255#8, 15#8] true true =
        some (false, tPart tPorts 4095 .retired 0 0) ∧
      (tPart tPorts 4095 .retired 0 0).partnerNamed 4095 = false) ∧
    (admitCmd (tPart tPorts 4095 .enrolled 0 0) (framedCmd 0x45 [255#8, 15#8, 0#8]) 0x45 [255#8, 15#8, 0#8] true true =
        some (false, tPart tPorts 4095 .enrolled 0 0) ∧
      ((tPart tPorts 4095 .enrolled 0 0).partner 4095).isle = 0xFF ∧ (tPart tPorts 4095 .enrolled 0 0).ilVolSrc 0 = 2 ∧
      (tPart tPorts 4095 .enrolled 0 0).ilType 0 = 5 ∧ ((tPart tPorts 4095 .enrolled 0 0).isle 0).util.bound ≠ some 4095 ∧
      admitCmd (tPart tPorts 4095 .enrolled 0 0) (framedCmd 0x45 [255#8, 15#8, 255#8]) 0x45 [255#8, 15#8, 255#8] true true =
        some (false, tPart tPorts 4095 .enrolled 0 0)) ∧
    (admitCmd (tPart tPorts 4095 .enrolled 1 0) (framedCmd 0x46 (tSet 4095 10 4)) 0x46 (tSet 4095 10 4) true true =
        some (false, tPart tPorts 4095 .enrolled 1 0) ∧
      u16 (tSet 4095 10 4) 0 = 4095 ∧ u32 (tSet 4095 10 4) 2 = 10 ∧ u8 (tSet 4095 10 4) 6 = 4 ∧
      (tPart tPorts 4095 .enrolled 1 0).portMaster 1 = true) := by
  refine ⟨⟨cmdOk ?_, ?_⟩, ⟨cmdOk ?_, ?_, cmdOk ?_, ?_⟩, ⟨cmdOk ?_, ?_⟩, ⟨cmdOk ?_, ?_⟩, ⟨cmdOk ?_, ?_, ?_, ?_, ?_, cmdOk ?_⟩, ⟨cmdOk ?_, ?_⟩⟩
  all_goals decide +kernel

/-- An element that a partner feeds names partner 3 (08_structure_image R181). -/
def tNamed : Dev := tPart (tDev [(3, sliceB ([4#8] ++ List.replicate 15 0#8 ++ [3#8]) 0 64)]) 3 .retired 0 0

theorem witness_PartnerDelete_named :
    admitCmd tNamed (framedCmd 0x44 [3#8, 0#8]) 0x44 [3#8, 0#8] true true = some (false, tNamed) ∧
    (tNamed.partner 3).state = .retired ∧ tNamed.partnerNamed 3 = true :=
  ⟨cmdOk (by decide +kernel), by decide +kernel, by decide +kernel⟩

/-- The device with a hold of each kind on relay output 8 (port 4). -/
def tHeld : Dev := { tPorts with bak := { tPorts.bak with
  holds := [{ target := 8, kind := 0, source := 128 }, { target := 8, kind := 1, source := 128 }, { target := 8, kind := 2, source := 3 }] } }

/-- The source of its tamper hold RAISED. -/
def tHeldRaised : Dev := tHeld.setLedger 3 { Ledger.init with raised := true }

theorem witness_RelayHoldsOpenAndRelease :
    (admitCmd tPorts (framedCmd 0x48 [8#8, 0#8, 1#8]) 0x48 [8#8, 0#8, 1#8] true true = some (false, tPorts) ∧
      tPorts.targetExists 8 = true) ∧
    (admitCmd tHeld (framedCmd 0x49 [8#8, 0#8, 1#8]) 0x49 [8#8, 0#8, 1#8] (decide ((1#8).toNat < 2)) true = some (false, tHeld) ∧
      tHeld.targetExists 8 = true) ∧
    (admitCmd (tIn tHeld 0 0) (framedIn (tSess 0 0) 2 0x30000000 (execPayload 0x49 [8#8, 0#8, 2#8]).length
        (execPayload 0x49 [8#8, 0#8, 2#8]) 6) 0x49 [8#8, 0#8, 2#8] (decide ((2#8).toNat < 2)) true = some (true, tIn6 tHeld 0) ∧
      (tIn6 tHeld 0).roleOf true = 0 ∧ (tIn6 tHeld 0).targetExists 8 = true ∧
      (tIn6 tHeld 0).bak.holds.any (fun h => h.target == 8 && h.kind == 2 && ((tIn6 tHeld 0).ledger h.source).raised) = false) ∧
    (admitCmd tHeld (framedCmd 0x49 [8#8, 0#8, 2#8]) 0x49 [8#8, 0#8, 2#8] (decide ((2#8).toNat < 2)) true = some (false, tHeld) ∧
      tHeld.roleOf false ≠ 0) ∧
    (admitCmd (tIn tHeldRaised 0 0) (framedIn (tSess 0 0) 2 0x30000000 (execPayload 0x49 [8#8, 0#8, 2#8]).length
        (execPayload 0x49 [8#8, 0#8, 2#8]) 6) 0x49 [8#8, 0#8, 2#8] (decide ((2#8).toNat < 2)) true = some (true, tIn6 tHeldRaised 0) ∧
      ∃ h ∈ (tIn6 tHeldRaised 0).bak.holds, h.target = 8 ∧ h.kind = 2 ∧ ((tIn6 tHeldRaised 0).ledger h.source).raised = true) := by
  refine ⟨⟨cmdOk ?_, ?_⟩, ⟨cmdOk ?_, ?_⟩, ⟨admitCmd_tIn rfl rfl ?_ (fun _ => rfl), ?_⟩, ⟨cmdOk ?_, ?_⟩, ⟨admitCmd_tIn rfl rfl ?_ (fun _ => rfl), ?_⟩⟩
  all_goals decide +kernel

/-- Source 0x0A RAISED, with an event policy that gives it FREEZE (bit 6). -/
def tFreeze : Dev :=
  (tDev [(8, sliceB [0#8, 0#8, 1#8, 0#8] 0 16 ++ sliceB [0x0A#8, 0xFF#8, 0x41#8] 0 16)]).setLedger 0x0A { Ledger.init with raised := true }

theorem witness_TamperReleasesAreLatched :
    (admitCmd tLive (framedCmd 0x51 [0x0A#8, 0#8]) 0x51 [0x0A#8, 0#8] false true = some (false, tLive) ∧
      argKey 0x0A 0 = some 0x0A ∧ (tLive.ledger 0x0A).raised = false) ∧
    (admitCmd tFreeze (framedCmd 0x51 [0x0A#8, 0#8]) 0x51 [0x0A#8, 0#8] false true = some (false, tFreeze) ∧
      (tFreeze.ledger 0x0A).raised = true) ∧
    (admitCmd (tIn tLive 1 0) (framedIn (tSess 1 0) 2 0x30000000 (execPayload 0x52 []).length (execPayload 0x52 []) 6) 0x52 [] false true =
        some (true, tIn6 tLive 1) ∧ (tIn6 tLive 1).roleOf true = 1 ∧ (tIn6 tLive 1).anyRaisedWith 6 = false) ∧
    (admitCmd tFreeze (framedCmd 0x52 []) 0x52 [] false true = some (false, tFreeze) ∧ tFreeze.roleOf false ≠ 1 ∧
      tFreeze.anyRaisedWith 6 = true) := by
  refine ⟨⟨cmdOk ?_, ?_⟩, ⟨cmdOk ?_, ?_⟩, ⟨admitCmd_tIn rfl rfl ?_ (fun _ => rfl), ?_⟩, ⟨cmdOk ?_, ?_⟩⟩
  all_goals decide +kernel

/-- The device with its root, a passed TRNG, slots 3 and 5 to 7 as given. -/
def tVault (d : Dev) : Dev :=
  ({ d with vault := { d.vault with rootOk := true, trngOk := true, shares := some ([], []), dbgEn := true } } : Dev).setSlot 3
    { Slot.init with state := .live, usage := 1, key := some (List.replicate 32 1#8) }

/-- A key policy whose slot 0 signs and exists. -/
def tKeys : Dev := tVault (tDev [(11, [1#8, 0x80#8, 0#8, 1#8, 0#8, 0#8, 0#8, 0#8, 1#8, 0x80#8, 0#8, 0#8, 0#8, 0#8, 0#8, 0#8,
  1#8, 0x80#8, 0#8, 0#8, 0#8, 0#8, 0#8, 0#8, 1#8, 0x80#8, 0#8, 0#8, 0#8, 0#8, 0#8, 0#8])])

/-- An opening of the OWNER role. -/
def tOpening (d : Dev) : Dev :=
  { d with vault := { d.vault with opening := some (0, List.replicate 16 2#8, List.replicate 16 3#8, 0) } }

/-- A session whose proof was right, to be opened at the boundary. -/
def tJoining : Dev := { tBare with vault := { tBare.vault with joining := some (tSess 0 0) } }

theorem witness_SessionsOpenByProof :
    (admitCmd tKeys (framedCmd 0x60 (List.replicate 17 0#8)) 0x60 (List.replicate 17 0#8) false false = some (false, tKeys) ∧
      u8 (List.replicate 17 0#8) 0 ≤ 2 ∧ tKeys.vault.session = none ∧ tKeys.vault.joining = none ∧ tKeys.slotExists (roleSlot 0) = true ∧
      tKeys.vault.lock.getD 0 0 ≤ tKeys.clk.runTick ∧ tKeys.slotBusy (roleSlot 0) = none ∧
      tKeys.vault.trngOk = true) ∧
    (let d := tOpening tKeys
     let k := (d.slotKey (roleSlot 0)).getD []
     let a := sessionProof k (List.replicate 16 2#8) (List.replicate 16 3#8) 0
     a.length = 16 ∧ admitCmd d (framedCmd 0x61 a) 0x61 a false false = some (false, d) ∧ d.clk.runTick < 0 + 160000 ∧
      d.slotExists (roleSlot 0) = true ∧ d.slotBusy (roleSlot 0) = none) ∧
    (let d := tOpening tKeys
     let k := (d.slotKey (roleSlot 0)).getD []
     ∃ b, b = sessionProof k (List.replicate 16 2#8) (List.replicate 16 3#8) 0 ∧ ∃ a : List Byte, a.length = 16 ∧ a ≠ b ∧
      admitCmd d (framedCmd 0x61 a) 0x61 a false false = some (false, d)) ∧
    (admitCmd (tIn tBare 0 0) (framedCmd 0x62 []) 0x62 [] false false = some (false, tIn tBare 0 0) ∧
      (tIn tBare 0 0).vault.session.isSome = true) ∧
    (admitCmd tBare (framedCmd 0x60 (List.replicate 17 0#8)) 0x60 (List.replicate 17 0#8) false false = some (false, tBare) ∧
      tBare.vault.session = none ∧ tBare.vault.joining = none ∧ tBare.vault.lock.getD 0 0 ≤ tBare.clk.runTick ∧
      tBare.slotExists (roleSlot 0) = false) ∧
    (∃ x d, d = tJoining ∧ d.vault.joining = some x ∧ d.vault.leaving = false) ∧
    ({ tJoining with vault := { tJoining.vault with leaving := true } } : Dev).vault.leaving = true ∧
    (tBare.vault.joining = none ∧ tBare.vault.leaving = false) := by
  refine ⟨⟨cmdOk (by decide +kernel), by decide +kernel⟩, ⟨rfl, cmdOk (by decide +kernel), by decide, by decide +kernel⟩, ⟨_, rfl, ?_⟩,
    ⟨cmdOk (by decide +kernel), by decide +kernel⟩, ⟨cmdOk (by decide +kernel), by decide +kernel⟩, ⟨_, _, rfl, rfl, rfl⟩, rfl, rfl, rfl⟩
  by_cases h : List.replicate 16 0#8 = sessionProof (((tOpening tKeys).slotKey (roleSlot 0)).getD [])
      (List.replicate 16 2#8) (List.replicate 16 3#8) 0
  · exact ⟨List.replicate 16 1#8, rfl, fun e => absurd (e.trans h.symm) (by decide), cmdOk (by decide +kernel)⟩
  · exact ⟨List.replicate 16 0#8, rfl, h, cmdOk (by decide +kernel)⟩

theorem witness_SessionsLapseInTime :
    (tIn tBare 0 0).vault.session = some (tSess 0 0) ∧ (tSess 0 0).lastT + 9600000 ≤ (tAt (tIn tBare 0 0) 0 9600000).clk.runTick ∧
    (tAt (tIn tBare 0 0) 0 9599999).clk.runTick < (tSess 0 0).lastT + 9600000 ∧
    (tOpening tBare).vault.opening = some (0, List.replicate 16 2#8, List.replicate 16 3#8, 0) ∧
    0 + 160000 ≤ (tAt (tOpening tBare) 0 160000).clk.runTick ∧ (tAt (tOpening tBare) 0 159999).clk.runTick < 0 + 160000 ∧
    tBare.vault.lock.getD 2 0 ≤ tBare.clk.runTick ∧
    ({ tBare with vault := { tBare.vault with lock := [0, 0, 7] } } : Dev).clk.runTick <
      ({ tBare with vault := { tBare.vault with lock := [0, 0, 7] } } : Dev).vault.lock.getD 2 0 := by decide +kernel

theorem witness_KeyCommandsTakeEffect :
    (admitCmd tKeys (framedCmd 0x63 [3#8]) 0x63 [3#8] false false = some (false, tKeys) ∧ tKeys.slotExists 3 = true ∧
      tKeys.slP256 3 = true ∧ tKeys.vault.rootOk = true ∧ tKeys.slLive 3 = true) ∧
    (admitCmd tKeys (framedCmd 0x63 [64#8]) 0x63 [64#8] false false = some (false, tKeys) ∧ tKeys.slotExists 64 = false) ∧
    (admitCmd (tIn tKeys 0 0) (framedIn (tSess 0 0) 2 0x30000000 (execPayload 0x66 [3#8]).length (execPayload 0x66 [3#8]) 6) 0x66 [3#8]
        false false = some (true, tIn6 tKeys 0) ∧ (tIn6 tKeys 0).slotChange 3 ((tIn6 tKeys 0).roleOf true) false = none) ∧
    (admitCmd tKeys (framedCmd 0x66 [3#8]) 0x66 [3#8] false false = some (false, tKeys) ∧
      tKeys.slotChange 3 (tKeys.roleOf false) false = some .denied) ∧
    (admitCmd tKeys (framedCmd 0x6B []) 0x6B [] false false = some (false, tKeys) ∧ tKeys.vault.dbgEn = true) ∧
    (admitCmd tBare (framedCmd 0x6B []) 0x6B [] false false = some (false, tBare) ∧ tBare.vault.dbgEn = false) := by
  refine ⟨⟨cmdOk ?_, ?_⟩, ⟨cmdOk ?_, ?_⟩, ⟨admitCmd_tIn rfl rfl ?_ (fun _ => rfl), ?_⟩, ⟨cmdOk ?_, ?_⟩, ⟨cmdOk ?_, ?_⟩, ⟨cmdOk ?_, ?_⟩⟩
  all_goals decide +kernel

/-! ## Witnesses: memory -/

/-- Eight bytes. -/
def t8 : List Byte := [1#8, 2#8, 3#8, 4#8, 5#8, 6#8, 7#8, 8#8]

theorem witness_WindowWritesReachTheStore :
    (admitted tStore (framed 1 (0x10000000 + 0) (List.replicate 256 1#8).length (List.replicate 256 1#8)) 1 (0x10000000 + 0) (List.replicate 256 1#8).length
        (List.replicate 256 1#8) = some (false, tStore) ∧ tStore.regionAt false 0 = some (1, 0x18) ∧ bitOf 0x18 4 = true ∧
      admitted tStore (framed 1 (0x10000000 + 0x1000) 8 t8) 1 (0x10000000 + 0x1000) t8.length t8 = some (false, tStore) ∧
      tStore.regionAt false 0x1000 = some (18, 0x18) ∧
      admitted tStore (framed 1 (0x10000000 + 0x2000) 8 t8) 1 (0x10000000 + 0x2000) t8.length t8 = some (false, tStore) ∧
      tStore.regionAt false 0x2000 = some (2, 0) ∧ bitOf 0 4 = false) ∧
    (admitted tStore (framed 1 (0x01000000 + 0xFFC) 4 (leBytes 4 9)) 1 (0x01000000 + 0xFFC) (leBytes 4 9).length (leBytes 4 9) =
        some (false, tStore) ∧ 0xFFC + (leBytes 4 9).length ≤ 0x800000 ∧ tStore.sramRefusal 0xFFC 4 4 = none ∧
      (tilesOf 0xFFC (leBytes 4 9).length).any (fun t => (tStore.regionAt true (1024 * t)).any (fun r => r.1 == 34)) = false) ∧
    (tStore.dspBase = 0x1000 ∧
      admitted tStore (framed 1 (0x01000000 + (tStore.dspBase + 0)) 4 (leBytes 4 9)) 1 (0x01000000 + (tStore.dspBase + 0)) (leBytes 4 9).length
        (leBytes 4 9) = some (false, tStore) ∧ tStore.sramRefusal (0x1000 + 0) 4 4 = none ∧
      (tilesOf (0x1000 + 0) (leBytes 4 9).length).any (fun t => (tStore.regionAt true (1024 * t)).any (fun r => r.1 == 34)) = true) := by
  refine ⟨⟨reqOk ?_, ?_, ?_, reqOk ?_, ?_, reqOk ?_, ?_⟩, ⟨reqOk ?_, ?_⟩, ?_, reqOk ?_, ?_⟩
  all_goals decide +kernel

/-- The device whose display region is whole: 1,504 KiB. -/
def tDisp : Dev := tDev [(12, tMap [(34, 0x19, 0x1000, 1504)])]

theorem witness_DisplayRegionWrite :
    tDisp.dspBase = 0x1000 ∧
    admitted tDisp (framed 1 (0x01000000 + (tDisp.dspBase + 0x4B00)) 4 (leBytes 4 9)) 1 (0x01000000 + (tDisp.dspBase + 0x4B00))
      (leBytes 4 9).length (leBytes 4 9) = some (false, tDisp) ∧ tDisp.sramRefusal (0x1000 + 0x4B00) 4 4 = none ∧
    admitted tDisp (framed 1 (0x01000000 + (tDisp.dspBase + 0x17700)) 4 (leBytes 4 9)) 1 (0x01000000 + (tDisp.dspBase + 0x17700))
      (leBytes 4 9).length (leBytes 4 9) = some (false, tDisp) ∧ tDisp.sramRefusal (0x1000 + 0x17700) 4 4 = none ∧
    (tilesOf (0x1000 + 0x17700) (leBytes 4 9).length).any (fun t => (tDisp.regionAt true (1024 * t)).any (fun r => r.1 == 34)) = true := by
  refine ⟨?_, reqOk ?_, ?_, reqOk ?_, ?_⟩
  all_goals decide +kernel

theorem witness_PageWriteStoresItsBytes :
    0xF8 % 8 = 0 ∧ t8.length % 8 = 0 ∧ tStore.inTn 0xF8 = false ∧ 0xF8 % 256 + t8.length ≤ 256 ∧ tStore.inTn 0x1018 = true ∧
    0x1018 % 32 + t8.length ≤ 32 ∧ tabWf 0#8 tStore.store.mram = true := by decide +kernel

/-! ## Witnesses: frames, straits and lanes -/

/-- The live device in an open frame at an offset. -/
def tFrame (d : Dev) (tick off : Nat) : Dev :=
  { tAt d tick 50000 with run := { d.run with open_ := true, off := off } }

/-- The bare device at the first tick of a frame, its boundary not evaluated. -/
def tBound : Dev := { tBare with clk := { tBare.clk with step2 := true } }

theorem witness_EachSliceRunsOncePerFrame :
    (tFrame tLive 207 207).sliceDue (80 + 127) = true ∧ (tFrame tLive 207 208).sliceDue (80 + 127) = false ∧
    (tFrame tLive 735 735).sliceDue (608 + 127) = true ∧ (tFrame tLive 335 335).sliceDue (208 + 127) = true ∧
    (tFrame tLive 463 463).sliceDue (336 + 127) = true ∧ (tFrame tLive 607 607).sliceDue (480 + 127) = true ∧
    (let d := tFrame { tPorts with run := { tPorts.run with endS := 1 } } 80 80
     d.sliceDue 80 = true ∧ d.ilType 0 ≠ 0 ∧ d.run.endS ≠ 0) ∧
    ({ tBound with pwr := { tBound.pwr with check := true } } : Dev).pwr.check = true ∧
    (tFrame tLive 464 464).pwr.mode = .run ∧ 464 ≤ (tFrame tLive 464 464).off ∧ (tFrame tLive 479 479).off < 480 ∧
    (tFrame tLive 479 479).run.off < 480 ∧
    (tBound.off = 0 ∧ tBound.pwr.mode = .run ∧ tBound.pwr.check = false ∧ tBound.clk.evald = false ∧ tBound.clk.step2 = true ∧
      tBound.isLive = false ∧ tBound.img.resume = false ∧ tBound.img.reloaded = false) ∧
    (tAt tBound 3199 0).off ≠ 0 ∧ ({ tBound with clk := { tBound.clk with evald := true } } : Dev).clk.evald = true := by
  decide +kernel

theorem witness_CarryConservesEnergy : (0 : Int) ≤ ({ f := 2 ^ 24 - 1, r := 65535 } : Fine).f ∧ (0 : Int) ≤ 2 ^ 41 := by decide

theorem witness_RegisterAdditionWraps :
    ({ r := 99, w := 65535 } : BReg).r < 100 ∧ 100 ≤ 100 ∧ ({ r := 99, w := 65535 } : BReg).w < 65536 := by decide

theorem witness_MaximumDemandNeverFalls :
    tabWf IsleSt.init tLive.run.isles = true ∧ tabWf IsleSt.init (tLive.setIsle 3 { IsleSt.init with pStep := true }).run.isles = true := by decide

/-- The live strait 0 with a crossing at the start of run tick 49,680, a period of 50 Hz before tick 50,000. -/
def tTrack (locked : Bool) (qual : Nat) : Dev :=
  (tFrame tStrait 100 80).upStrait 0 (fun x => { x with cross := some (49680 * 65536), locked := locked, qual := qual })

theorem witness_StraitTrackingLocksAndUnlocks :
    (tTrack false 4).strOn 0 = true ∧ ((tTrack false 4).strait 0).cross = some (49680 * 65536) ∧
    periodOk (50000 * 65536 - 49680 * 65536) (2 ^ 24) ((tTrack false 4).trackMin 0) = true ∧
    ((tTrack false 4).strait 0).qual = 4 ∧ ((tTrack false 3).strait 0).qual < 4 ∧ ((tTrack true 5).strait 0).locked = true ∧
    periodOk (49911 * 65536 - 49680 * 65536) (2 ^ 24) ((tTrack true 5).trackMin 0) = false ∧
    49680 * 65536 / 65536 + 400 ≤ (tAt (tTrack true 5) 0 50080).clk.runTick ∧
    (tAt (tTrack true 5) 0 50079).clk.runTick < 49680 * 65536 / 65536 + 400 := by decide +kernel

/-- A window of strait 0 that closed and is not analysed. -/
def tWin : WinClosed :=
  { frame := 1, locked := true, flagged := false, len := 3200, secs := 0, tick := 0, seq := 0, sumV := 0, sumI := [], n := 3200,
    done := false, elems := [], from_ := 46780 * 65536, upto := 49980 * 65536, closeT := 49980, gains := [] }

/-- Strait 0 at the crossing of run tick 50,000, ten cycles in its window. -/
def tClose : Dev := (tFrame tStrait 100 80).upStrait 0 (fun x =>
  { x with cross := some (50000 * 65536 + 7), locked := true, wCount := 10, closed := [tWin], hn0 := 160 })

/-- Strait 0 unlocked, 3,200 ticks into its window. -/
def tClose2 : Dev := (tFrame tStrait 100 80).upStrait 0 (fun x => { x with wStart := 46800 * 65536 })

/-- Metering strait 0 unlocked, 160 ticks after its last half-cycle boundary. -/
def tHalf : Dev :=
  { (tFrame tStrait 100 80).upStrait 0 (fun x => { x with halfAt := 49840, hn0 := 160, hn1 := 160 }) with
    img := { tStrait.img with meter := true } }

theorem witness_WindowsCloseAndRefresh :
    tClose.strOn 0 = true ∧ (tClose.strait 0).locked = true ∧ (tClose.strait 0).cross = some (50000 * 65536 + 7) ∧
    (50000 * 65536 + 7) / 65536 = tClose.clk.runTick ∧ tClose.winCycles 0 ≤ (tClose.strait 0).wCount ∧
    tClose2.strOn 0 = true ∧ (tClose2.strait 0).locked = false ∧ (tClose2.strait 0).wStart + 3200 * 65536 ≤ tClose2.clk.runTick * 65536 ∧
    ((tTrack true 5).strait 0).wCount < (tTrack true 5).winCycles 0 ∧ tBare.strOn 0 = false ∧
    (let d := (tFrame tStrait 100 80).upStrait 0 (fun x => { x with wStart := 46801 * 65536 })
     (d.strait 0).locked = false ∧ d.clk.runTick * 65536 < (d.strait 0).wStart + 3200 * 65536) ∧
    tClose.analysed 0 0 = some tWin ∧ 0 = 0 % 4 ∧ tClose.analysed 0 1 = none ∧
    (tHalf.strOn 0 = true ∧ tHalf.stPq 0 = true ∧ tHalf.img.meter = true ∧ tHalf.halfDue 0 = true ∧ 0 < (tHalf.strait 0).hn0 ∧
      0 < (tHalf.strait 0).hn1) ∧ (tAt tHalf 100 49999).halfDue 0 = false := by decide +kernel

/-- A lane or ferry whose modulator delivered 1,024 identical bits. -/
def tStuck (n : Nat) : Dev := (tFrame tLive 100 80).upLane n (fun x => { x with bitRun := 1024 })

/-- The first visit of ferry 0 at lane 3, an AUX lane, in its last tick; the lane's mean is full scale, the ferry's as given, the
ferry's own reference beyond its bounds or not. -/
def tVisit (mean : Rat) (bad : Bool) : Dev :=
  let d := tFrame (tDev [(1, List.replicate 12 0#8 ++ [5#8, 0#8, 0#8, 0#8])]) 3199 736
  { (d.upLane 3 (fun x => { x with mDc := 2 ^ 31, mN := 1 })).upLane 192 (fun x => { x with mDc := mean, mN := 1, refBad := bad }) with
    rot := { Rotation.reset with running := true, ferries := [0], lanes := [3] }, clk := { d.clk with frameNo := 11 } }

theorem witness_LaneEventsTakeEffect :
    1024 ≤ ((tStuck 191).lane 191).bitRun ∧ ((tStuck 191).lane 191).stuck = false ∧ ((tStuck 191).lane 191).failed = false ∧
    ((tStuck 191).lane 191).standin = none ∧ 1024 ≤ ((tStuck 199).lane 199).bitRun ∧ ((tStuck 199).lane 199).failed = false ∧
    (tLive.lane 191).estLeft = 0 ∧ ((tLive.upLane 191 (fun x => { x with estLeft := 1 })).lane 191).estLeft ≠ 0 ∧
    (tVisit 0 false).visitLast = some 0 ∧ (tVisit 0 false).pwr.mode = .run ∧ (tVisit 0 false).visitLast ≠ some 1 ∧
    ({ tVisit 0 false with rot := { (tVisit 0 false).rot with ending := some 0 } } : Dev).rot.ending = some 0 ∧
    ((tVisit 0 true).lane (192 + 0)).refBad = true ∧ ((tVisit 0 false).lane (192 + 0)).refBad = false ∧
    (tVisit 0 false).visiting 0 0 = some 3 := by decide +kernel

theorem witness_LaneEvents_verdicts :
    (let d := (tVisit 0 false).upLane 3 (fun x => { x with mN := 0 })
     (d.lane 3).stuck = false ∧ visitTrim (d.laneWord 3) (d.served 3) (d.lane (192 + 0)) = none) ∧
    (let d := tVisit (2 ^ 31) false
     (d.lane 3).stuck = false ∧ visitTrim (d.laneWord 3) (d.served 3) (d.lane (192 + 0)) = some (0, 0) ∧ trimBad (0, 0) = false) ∧
    (let d := tVisit (2 ^ 32) false
     visitTrim (d.laneWord 3) (d.served 3) (d.lane (192 + 0)) = some (2 ^ 24, 0) ∧ trimBad (2 ^ 24, 0) = true ∧
     (d.lane 3).standin = none ∧ d.standins.length < 6) ∧
    (let d := (List.range 6).foldl (fun d f => d.upLane (193 + f) (fun x => { x with standFor := some (100 + f) })) (tVisit (2 ^ 32) false)
     visitTrim (d.laneWord 3) (d.served 3) (d.lane (192 + 0)) = some (2 ^ 24, 0) ∧ 6 ≤ d.standins.length) ∧
    (let d := ((tVisit (2 ^ 32) false).upLane 3 (fun x => { x with standin := some 1 })).upLane 193 (fun x => { x with mDc := 2 ^ 31, mN := 1 })
     visitTrim (d.laneWord 3) (d.served 3) (d.lane (192 + 0)) = some (2 ^ 24, 0) ∧ (d.lane 3).standin = some 1) := by decide +kernel

/-- A device whose lane 0 is an RTD lane. -/
def tRtd : Dev := tDev [(1, [4#8, 0#8, 0#8, 0#8])]

/-- Its excitation has ended, and its held code dates from run tick 0. -/
def tRtdOn : Dev := { tRtd.upLane 0 (fun x => { x with heldAt := some 0 }) with rtdDone := true }

theorem witness_RtdLanesAreExcitedAndHeld :
    (tAt tRtd 15999 9).clk.tick = 15999 ∧ (tAt tRtd 15999 9).rtdLanes ≠ [] ∧ (tAt tRtd 15999 9).outstanding .rtd = false ∧
    (tAt tRtdOn 0 9).clk.tick = 0 ∧ (tAt tRtdOn 3200 9).clk.tick = 3200 ∧ tRtdOn.rtdDone = true ∧ laneMode (tRtdOn.laneWord 0) = 4 ∧ (tRtdOn.lane 0).heldAt = some 0 ∧
    48000 < (tAt tRtdOn 1 48001).clk.runTick - 0 ∧ (tAt tRtdOn 0 48000).clk.runTick - 0 ≤ 48000 := by decide +kernel

/-! ## Witnesses: power and the store -/

/-- Failing, the bulk drained at run tick 10, the last gasp still to write or done. -/
def tFail (done : Bool) : Dev :=
  { tAt tBare 5 15 with pwr := { tBare.pwr with mode := .failing, gaspOk := true, gaspDone := done, drainAt := some 10 } }

theorem witness_PowerFailLatchesAndHolds :
    powered (tMode .run) ∧ powered (tMode .doze) ∧ powered (tMode .nap) ∧ powered (tMode .sleep) ∧ ¬ powered (tMode .hold) ∧
    ¬ powered (tMode .reset) ∧ ¬ powered (tMode .failing) ∧
    (tFail false).pwr.mode = .failing ∧ (tFail false).pwr.gaspOk = true ∧ (tFail false).pwr.gaspDone = false ∧
    (tFail false).pwr.drainAt = some 10 ∧ 10 + 5 ≤ (tFail false).clk.runTick ∧ (tFail true).pwr.gaspDone = true := by
  simp [powered, awake, tMode, tFail, tAt, tBare, tDev]

theorem witness_HoldSamplesTheBackupSources :
    (tMode .hold).pwr.mode = .hold ∧ 1 ∉ (tMode .hold).bak.pins ∧ (tMode .sleep).pwr.mode ≠ .hold := by decide

theorem witness_PowerUpBringsTheLinkUp :
    (tMode .reset).pwr.mode = .reset ∧ (tMode .hold).pwr.mode = .hold ∧ (tFail true).pwr.gaspDone = true ∧ powered (tMode .nap) ∧
    (tFail false).pwr.gaspDone = false ∧
    (let d := { tLive with img := { tLive.img with reload := some 1 } }
     d.img.reload = some 1 ∧ d.off = 0 ∧ awake d ∧ d.isLive = true) ∧
    (let d := { tBare with img := { tBare.img with reload := some 1 } }
     d.img.reload = some 1 ∧ d.off = 0 ∧ awake d ∧ d.isLive = false) ∧
    tLive.img.reload = none ∧ (tAt tLive 1 0).off ≠ 0 ∧ ¬ awake (tMode .sleep) :=
  ⟨rfl, rfl, rfl, by simp [powered, tMode], rfl, ⟨rfl, rfl, Or.inl rfl, rfl⟩, ⟨rfl, rfl, Or.inl rfl, rfl⟩, rfl, by decide, by simp [awake, tMode]⟩

/-- Asleep, its dead voltage seen, 50 frames without a check. -/
def tNap (m : PMode) (idle tick : Nat) : Dev :=
  { tAt tLive tick 99999 with pwr := { tLive.pwr with mode := m, dead := true, idle := idle } }

/-- An awake device that may rest: dead, idle, past its slices, with an empty image whose entries lie far off. -/
def tRest : Dev :=
  { tAt tLive 736 99999 with pwr := { tLive.pwr with dead := true } }

theorem witness_SuppliesAndRestFollowTheRules :
    (tNap .nap 0 0).pwr.mode = .nap ∧ ((tNap .sleep 0 125).pwr.mode = .sleep ∧ (tNap .sleep 0 125).clk.tick % 125 = 0) ∧
    (({ tNap .nap 0 0 with dsp := { (tNap .nap 0 0).dsp with dirty := true } } : Dev).nextOther ≤ 64) ∧
    (64 < (tNap .nap 50 3199).nextOther ∧ (tNap .nap 50 3199).nextCheck ≤ 64) ∧ 64 < (tNap .nap 49 3100).nextCheck ∧
    (∃ t ∈ ({ tLive with pwr := { tLive.pwr with wakes := [0] } } : Dev).pwr.wakes,
      t ≤ ({ tLive with pwr := { tLive.pwr with wakes := [0] } } : Dev).clk.secs) ∧
    (let d : Dev := { tLive with pwr := { tLive.pwr with check := true } }
     d.pwr.check = true ∧ d.off = 0 ∧ d.clk.evald = false ∧ d.pwr.mode = .run) ∧
    tLive.mayRest = false ∧ tRest.mayRest = true ∧ tRest.napEn = true ∧ tRest.sleepEn = false ∧ 384 ≤ tRest.nextEntry := by
  decide +kernel

theorem witness_Supplies_sleep :
    (let d : Dev := { tRest with regs := [(0x2004, 0xCA#32)] }
     d.mayRest = true ∧ d.sleepEn = true ∧ d.sleepAllowed = true ∧ 8480 ≤ d.nextEntry ∧ 736 ≤ d.off ∧ d.store.rgq = [] ∧
       d.store.rgRun = none) ∧
    (let d : Dev := { tStrait.upStrait 0 (fun x => { x with recent := [0] }) with pwr := { tStrait.pwr with check := true } }
     d.busReturned = true ∧ d.pwr.check = true ∧ d.off = 0 ∧ d.clk.evald = false ∧ d.pwr.mode = .run) := by decide +kernel

/-- A granted request whose grant begins at this boundary. -/
def tGrant (d : Dev) (w : Requester) : Dev :=
  { d with pwr := { d.pwr with grants := [{ who := w, cls := 1, k := 1, d := 4, filed := 0, seen := 1, until_ := d.clk.runTick + 4 }] } }

/-- A save image in flight. -/
def tSave : SaveImg := { seq := 1, kind := 0, run := Running.init, latch := 0, live := [] }

/-- A journal transaction of one page. -/
def tTxn : JTxn := { job := none, pages := [(0, t8)] }

/-- A device with a VRES in mV, one reserve-guarded write at the front of its queue. -/
def tGuard (vres : Nat) : Dev :=
  tGrant { tLive with pwr := { tLive.pwr with vres := vres }, store := { tLive.store with rgq := [.sealRec] } } .reserveWrite

theorem witness_StoreEventsTakeEffect :
    (let d : Dev := { tAt tLive 736 9 with store := { tLive.store with saveDue := true } }
     d.store.saveDue = true ∧ d.store.saveCap = none ∧ d.off = 736 ∧ d.pwr.mode = .run ∧ d.store.sramBad = [] ∧
     d.outstanding .save = false) ∧
    (let d : Dev := { tAt tLive 3199 9 with store := { tLive.store with saveCap := some tSave } }
     d.store.saveCap = some tSave ∧ d.off = 3199 ∧ tLive.off ≠ 3199) ∧
    (let d : Dev := tGrant { tLive with store := { tLive.store with jqueue := [tTxn] } } .journal
     d.store.jqueue = tTxn :: [] ∧ d.grantedNow .journal = true ∧ d.store.ring = [] ∧ tLive.grantedNow .journal = false) ∧
    ((tGuard 5917).store.rgq = .sealRec :: [] ∧ (tGuard 5917).grantedNow .reserveWrite = true ∧ (tGuard 5917).store.rgRun = none ∧
      35000000 ≤ (tGuard 5917).pwr.vres * (tGuard 5917).pwr.vres ∧ (tGuard 5916).pwr.vres * (tGuard 5916).pwr.vres < 35000000) ∧
    (let d := tAt tStore 736 9
     736 ≤ d.off ∧ d.pwr.mode = .run ∧ tabGet 0#32 d.store.sramBad 8191 = 0 ∧
     (d.map.find? (fun (_, f, b, z) => !bitOf f 0 && decide (b ≤ 1024 * 4) && decide (1024 * 4 < b + z))) = some (18, 0x18, 0x1000, 4096) ∧
     (d.map.find? (fun (_, f, b, z) => !bitOf f 0 && decide (b ≤ 1024 * 3) && decide (1024 * 3 < b + z))) = some (1, 0x18, 0, 4096) ∧
     twinRegion 1 = false ∧ (tAt tStore 735 9).off < 736) ∧
    (let d := tAt (tDev [(12, tMap [(13, 0, 0x1000, 4)])]) 736 9
     (d.map.find? (fun (_, f, b, z) => !bitOf f 0 && decide (b ≤ 1024 * 4) && decide (1024 * 4 < b + z))) = some (13, 0, 0x1000, 4096) ∧
     twinRegion 13 = true) := by decide +kernel

/-! ## Witnesses: ports and partners -/

/-- The ports, a polled partner 4,095 on the MBUS port, due. -/
def tDue : Dev := (tPart tPorts 4095 .enrolled 0 0)

/-- The MBUS port in backoff, its last probe BACKOFF seconds ago. -/
def tBack : Dev := tDue.upPort 0 (fun s => { s with backoff := true, probeAt := 0 })

/-- A transaction that reads partner 4,095, at a step. -/
def tRead (st : TxStep) (sent : Bool) : Txn :=
  { kind := .poll, partner := some 4095, step := st, tries := 0, telegram := 0, sent := sent, vals := [], raw := [], missing := false,
    sat := [], bound := none }

/-- A port with a transaction in progress, with one retry. -/
def tBusy (p : Nat) (t : Txn) : Dev :=
  { (tPart tPorts 4095 .enrolled p 0).upPort p (fun s => { s with txn := some t }) with regs := [(0x3000C + 0x40 * p, 0x1000000#32)] }

theorem witness_PollsAreQueuedAndSent :
    ((tDue.partner 4095).state.polled = true ∧ tDue.isLive = true ∧ tDue.portBus 0 = true ∧ (tDue.partner 4095).port = 0 ∧
      (tDue.partner 4095).due ≤ tDue.clk.secs ∧ (tDue.port 0).backoff = false ∧ tDue.pollWaits 4095 = false ∧ tDue.emptyRead 4095 = false) ∧
    (let d := tDue.setPartner 4095 { tDue.partner 4095 with due := 1 }
     d.clk.secs < (d.partner 4095).due) ∧
    ((tBusy 0 (tRead .select true)).pollWaits 4095 = true ∧ (tPorts.port 31).backoff = false ∧
      ({ tPorts with img := tPorts.img } : Dev).clk.secs < (tPorts.port 0).probeAt + 1) ∧
    ((tBack.port 0).backoff = true ∧ (tBack.port 0).probeAt + tBack.ppBackoff 0 ≤ tBack.clk.secs ∧ (tBack.port 0).pollQ = [] ∧
      tBack.portPartners 0 = [4095] ∧ (tBack.partner 4095).state = .enrolled ∧ tBack.emptyRead 4095 = false) ∧
    (tPorts.grantedNow (.port 0) = false ∧ tPorts.grantedNow (.tamperPort 0) = false ∧
      (let d := tPorts.upPort 0 (fun s => { s with idleAt := 1 })
       d.clk.runTick < (d.port 0).idleAt)) ∧
    (let d := tGrant (tBusy 0 (tRead .reqUd2 false)) (.port 0)
     d.grantedNow (.port 0) = true ∧ (d.port 0).idleAt ≤ d.clk.runTick ∧ d.pick 0 = some (.cont (tRead .reqUd2 false))) := by decide +kernel

/-- The answer of partner 9 to a coil write, and one of another function code. -/
def tCoil : List Byte := withCrc16 [9#8, 5#8, 0#8, 1#8, 0xFF#8, 0#8]

theorem witness_PortAnswersMoveTheTransaction :
    (let d := tBusy 0 (tRead .select true)
     d.poModule 0 = 1 ∧ (d.port 0).txn = some (tRead .select true) ∧ (tRead .select true).sent = true ∧ (tRead .select true).step = .select ∧
      (tRead .select true).kind ≠ .discovery ∧ ([0xE4#8] : List Byte) ≠ [0xE5#8] ∧ (tRead .select true).tries < d.rRetries 0 ∧
      (d.port 0).dueAt ≤ d.clk.runTick ∧ d.hears = true ∧ (tMode .hold).hears = false) ∧
    (let d := (tBusy 0 (tRead .select true)).upPort 0 (fun s => { s with dueAt := 1 })
     d.clk.runTick < (d.port 0).dueAt) ∧
    (let d := tBusy 1 (tRead .coilWrite true)
     d.hears = true ∧ d.portMaster 1 = true ∧ d.pwr.vdd5p = true ∧ (d.port 1).txn = some (tRead .coilWrite true) ∧
      modbusParse (d.partner 4095).primary tCoil = some (5, [0#8, 1#8, 0xFF#8, 0#8]) ∧ modbusParse (d.partner 4095).primary [9#8] = none ∧
      (tRead .coilWrite true).tries < d.rRetries 1) := by decide +kernel

/-- The OPTO port in a state of its exchange, begun at run tick 0. -/
def tOpto (o : Opto) : Dev := tPorts.upPort 3 (fun s => { s with opto := o })

/-- Isle slices running: a Modbus request that spans two isles is split by the frame's progress. -/
def tSplit : Dev := { tPorts with run := { tPorts.run with open_ := true, off := 81 } }

theorem witness_PortRequestsAreAnswered :
    (tSplit.isLive = true ∧ tSplit.portSlave 2 = true ∧ tSplit.pwr.vdd5p = true ∧
      tSplit.modbusSplit [9#8, 3#8, 1#8, 0xAF#8, 0#8, 2#8] = true ∧ (tSplit.port 2).latch = false ∧ (tSplit.port 2).opto = .idle) ∧
    (tPorts.modbusSplit [9#8, 3#8, 0#8, 0#8, 0#8, 4#8] = false ∧ tabWf PortSt.init tPorts.ports = true ∧ tPorts.portSlave 1 = false) ∧
    (tSplit.hears = true ∧ tPorts.hears = true ∧ tPorts.poModule 3 = 5 ∧ (tPorts.port 3).answer = [] ∧ (tPorts.port 3).latch = false ∧ (tPorts.port 3).ask = [] ∧
      tPorts.optoAsks 3 [0x2F#8, 0x3F#8, 0x21#8, 0x0D#8, 0x0A#8] = true) ∧
    (((tOpto .identified).port 3).opto = .identified ∧ 5 ≤ (tOpto .identified).poParam 3 3 ∧ u8 [0x06#8, 0x31#8] 1 ≠ 0x30) ∧
    (((tOpto .identify).port 3).opto = .identify ∧ ((tOpto .identify).port 3).optoAt + 24000 ≤ (tAt (tOpto .identify) 0 24000).clk.runTick ∧
      (tAt (tOpto .identify) 0 23999).clk.runTick < ((tOpto .identify).port 3).optoAt + 24000) := by decide +kernel

/-- The relay port's output 1 due for feedback, with or without a mismatch already. -/
def tMism (again : Bool) : Dev :=
  (tAt tPorts 0 9).upPort 4 (fun s => { s with fbAt := [0, 9], again := [false, again], mism := [false, true] })

/-- A relay partner on the RS485 master, its last coil pair at run tick 1. -/
def tCoilPart : Dev :=
  tPorts.setPartner 4095 { Partner.free with state := .enrolled, port := 1, kind := 4, primary := 9, coilAt := 1 }

/-- Input 3 of the pulse port ON for 15 ticks after a long enough OFF period, or not. -/
def tOnRun (ok : Bool) : Dev := tPorts.upPort 5 (fun s => { s with onRun := [0, 0, 0, 15], onOk := [false, false, false, ok] })

theorem witness_PulsesAndRelayFeedbackAreSeen :
    ((tOnRun true).pulseOn 5 3 = true ∧ ((tOnRun true).port 5).onOk.getD 3 false = true ∧
      ((tOnRun true).port 5).onRun.getD 3 0 + 1 = ((tOnRun true).pulseMin 5 3).1 ∧ (tOnRun true).img.meter = false ∧
      ((tOnRun false).port 5).onOk.getD 3 false = false ∧ 0 < ((tOnRun true).port 5).onRun.getD 3 0 ∧
      ((tOnRun true).port 5).onRun.getD 3 0 < ((tOnRun true).pulseMin 5 3).1 ∧ (tPorts.port 5).onRun.getD 3 0 = 0 ∧
      tPorts.pulseOn 4 3 = false) ∧
    ((tMism true).feedbackDue 4 1 = true ∧ ((tMism true).port 4).mism.length = 2 ∧ ((tMism true).port 4).again.getD 1 false = true ∧
      ((tMism false).port 4).again.getD 1 false = false ∧ (tMism false).feedbackDue 4 1 = true ∧ (tMism false).feedbackDue 4 0 = false ∧
      (tMism false).poModule 4 = 4 ∧ bitOf ((tMism false).poParam 4 1) (2 + 1) = true ∧ ((tMism false).port 4).mism.getD 1 false = true) ∧
    (let d := tAt tCoilPart 0 160001
     (d.partner 4095).kind = 4 ∧ (d.partner 4095).state = .enrolled ∧ (d.partner 4095).coilAt ≠ 0 ∧
      (d.partner 4095).coilAt + 160000 ≤ d.clk.runTick ∧ (d.port (d.partner 4095).port).txn = none) ∧
    (tAt tCoilPart 0 160000).clk.runTick < (tCoilPart.partner 4095).coilAt + 160000 ∧
    tPorts.isLive = true ∧ tPorts.hears = true ∧ (tMism false).hears = true ∧ tPorts.poModule 1 = 2 ∧ tPorts.poModule 5 ≠ 2 ∧
    tPorts.poModule 5 ≠ 1 := by decide +kernel

/-! ## Witnesses: tamper, vault, jobs and display -/

theorem witness_RaiseCountsAndDatesTheSource :
    (tBare.ledger 5).raised = false ∧ (tBare.ledger 5).testing = false ∧ (tBare.ledger 5).count = 0 ∧
    ((tBare.setLedger 5 { Ledger.init with count := 7, first := 2 }).ledger 5).count ≠ 0 := by decide

/-- A monitor test of source 5 granted at run tick 9, under job 1. -/
def tTest : Dev := { tAt tLive 0 24 with tam := { tLive.tam with test := some (5, 1, 9) } }

/-- A device whose four tamper pins have been at the other level for 159 samples. -/
def tPins (d : Dev) (shut : Bool) : Dev := { d with tam := { d.tam with pinRun := [159, 159, 159, 159], sealPin := shut } }

theorem witness_TamperPinsAndTestsTakeEffect :
    (tPins tLive true).pwr.mode = .run ∧
    ((tPins tLive true).tam.cover ≠ false ∧ (tPins tLive true).tam.tcover ≠ false ∧ (tPins tLive true).tam.mag ≠ false ∧
      (∀ k, k < 4 → 159 ≤ (tPins tLive true).tam.pinRun.getD k 0) ∧ tLive.tam.cover = true ∧ tLive.tam.pinRun.getD 1 0 < 159 ∧
      (tPins tLive true).isLive = true ∧ (tPins tLive true).tam.sealPin = true) ∧
    ((tPins tLive false).tam.sealPin = false ∧ (tPins tBare true).isLive = false ∧ (tPins tBare true).tam.sealPin = true) ∧
    ((tLive.srcThresh (glitchSource 3) none 100 0).1 ≤ 100 ∧ 99 < (tLive.srcThresh (glitchSource 3) none 100 0).1) ∧
    (tTest.tam.test = some (5, 1, 9) ∧ 9 + 16 ≤ tTest.clk.runTick + 1 ∧ tTest.tam.testReal = none ∧
      (tAt tTest 0 23).clk.runTick + 1 < 9 + 16) := by decide +kernel

/-- A slew of one tick, run for some ticks at 1 in 1,001. -/
def tSlew (ran : Nat) : Dev := { tBare with clk := { tBare.clk with slew := some { advance := true, total := 1, ran := ran } } }

/-- A running PROFILE_READ. -/
def tProf : Job := tJob 7 0x21 (List.replicate 7 0#8) .running

theorem witness_VaultAndJobEventsTakeEffect :
    (({ advance := true, total := 1, ran := 1001 } : Slew).total ≤ ({ advance := true, total := 1, ran := 1001 } : Slew).made ∧
      (tSlew 1001).timeJob = none ∧
      ({ advance := true, total := 1, ran := 1000 } : Slew).made < ({ advance := true, total := 1, ran := 1000 } : Slew).total) ∧
    (let d : Dev := { tLive with link := { tLive.link with jobs := [tProf] } }
     d.findJob tProf.num = some tProf ∧ tProf.phase = .running ∧ tProf.fin = none ∧ tProf.stage = 0 ∧ tProf.op = 0x21 ∧
      tLive.findJob 7 = none) ∧
    (let j := { tProf with op := 0x67, stage := 3 }
     let d : Dev := { tLive with link := { tLive.link with jobs := [j] } }
     d.findJob j.num = some j ∧ j.phase = .running ∧ j.fin = none ∧ j.stage = 3 ∧ d.opsReady j = true ∧
       d.opsReady { j with needs := [(1, 64), (1, 64)] } = false ∧ tProf.phase ≠ .accepted) ∧
    (let j := { tProf with phase := .accepted }
     ({ tLive with link := { tLive.link with jobs := [j] } } : Dev).findJob j.num = some j ∧ j.phase ≠ .running) ∧
    (let d := tAt (tVault tBare) 0 (2 ^ 24)
     d.clk.runTick ≠ 0 ∧ d.clk.runTick % 2 ^ 24 = 0 ∧ d.vault.shares.isSome = true ∧ d.vault.debug = false ∧ d.vault.trngOk = true ∧
      d.clk.runTick % 2 ^ 20 = 0 ∧ (tAt d 0 1).clk.runTick % 2 ^ 24 ≠ 0) ∧
    (let d : Dev := { tAt tBare 0 960000 with vault := { tBare.vault with shares := some ([], []) } }
     d.vault.trngOk = false ∧ d.vault.retryAt + 960000 ≤ d.clk.runTick ∧ (tAt d 0 959999).clk.runTick < d.vault.retryAt + 960000) := by
  decide +kernel

/-- A display of 85 Hz with two lists: list 0 of 3 items shown for 10 s each, list 1 of 1 item. -/
def tPanel : Dev :=
  tDev [(9, sliceB [0#8, 4#8, 0x2C#8, 1#8, 85#8] 0 0x110 ++ sliceB [3#8, 10#8] 0 520 ++ sliceB [1#8, 20#8] 0 520)]

/-- The panel under a grant of the scanner, its next frame due. -/
def tScan : Dev :=
  { tPanel with
    pwr := { tPanel.pwr with grants := [{ who := .scanner, cls := 5, k := 1, d := 9, filed := 0, seen := 1, until_ := 188 }] },
    dsp := { tPanel.dsp with pmic := true } }

/-- SCROLL_N pressed since run tick 0, high for some samples, at a run tick. -/
def tPress (high run : Nat) : Dev := { tAt tPanel 0 run with dsp := { tPanel.dsp with scroll := some (0, false), scrollRun := high } }

theorem witness_DisplayEventsTakeEffect :
    (tScan.dspGrant = some { who := .scanner, cls := 5, k := 1, d := 9, filed := 0, seen := 1, until_ := 188 } ∧ tScan.isLive = true ∧
      tScan.dsp.scan = none ∧ tScan.dsp.pmic = true ∧ tScan.dsp.nextAt ≤ tScan.clk.runTick ∧
      tScan.clk.runTick + tScan.panelTicks ≤ 188 ∧ tPanel.dspGrant = none) ∧
    (let d : Dev := { tPanel with dsp := { tPanel.dsp with pmic := true } }
     d.dsp.pmic = true ∧ d.dspGrant = none ∧ d.dsp.retAt + 16 ≤ (tAt d 0 16).clk.runTick ∧ (tAt d 0 15).clk.runTick < d.dsp.retAt + 16) ∧
    ((tAt tPanel 736 9).off = 736 ∧ (tAt tPanel 736 9).frameInSec = 0 ∧
      ({ tAt tPanel 3936 9 with dsp := { tPanel.dsp with dirty := true } } : Dev).dsp.dirty = true ∧ (tAt tPanel 737 9).off ≠ 736) ∧
    ((tPress 159 9).released = true ∧ (tPress 0 32000).heldPress = true ∧ (tPress 0 9).released = false ∧
      (tPress 0 31999).heldPress = false ∧ tPanel.pressed = true ∧ tBare.pressed = false ∧ tPanel.clk.tick = 0 ∧ u8 (tPanel.listBytes 0) 1 ≠ 0 ∧
      tPanel.clk.secs < tPanel.dsp.advAt + u8 (tPanel.listBytes tPanel.dsp.list) 1) ∧
    (let d : Dev := { tPanel with clk := { tPanel.clk with secs := 120 }, dsp := { tPanel.dsp with list := 1 } }
     d.pressed = true ∧ d.dsp.list ≠ 0 ∧ d.dsp.advAt + u8 (d.listBytes d.dsp.list) 1 ≤ d.clk.secs ∧ d.dsp.pressAt + 120 ≤ d.clk.secs) ∧
    (let d : Dev := { tPanel with clk := { tPanel.clk with secs := 119 }, dsp := { tPanel.dsp with list := 1 } }
     d.clk.secs < d.dsp.pressAt + 120) := by decide +kernel

/-! ## Witnesses: single functions -/

theorem witness_SerialOrderOfSequenceNumbers : 0 < 2 ^ 32 ∧ 2 ^ 32 - 1 < 2 ^ 32 := by decide

theorem witness_NoImageIsValidWithoutBothAuthorities : tBare.vault.authM = none := rfl

theorem witness_KdfJoinsItsBlocks : 264 % 8 = 0 ∧ 2 < (264 + 127) / 128 := by decide

/-! ## Ill-formed terms, one for each check of WellFormed -/

/-- A framing whose trailer is there without SESSION. -/
def tBadLink : Link := { tLink 0 with trailer := [1#8] }

/-- A tick without samples. -/
def tQuiet : TickInput := { bits := [], stalls := [], vres := 0, low := [], tck := [] }

theorem test_illFormed_tick_inputs :
    (TickInput.wf { tQuiet with bits := [(200, 0)] }) = false ∧ (TickInput.wf { tQuiet with bits := [(1, 0), (1, 0)] }) = false ∧
    (TickInput.wf { tQuiet with stalls := [(9, 1)] }) = false ∧ (TickInput.wf { tQuiet with stalls := [(8, 1), (8, 2)] }) = false ∧
    (TickInput.wf { tQuiet with low := [5] }) = false ∧ (TickInput.wf { tQuiet with low := [144] }) = false ∧
    (TickInput.wf { tQuiet with low := [0, 4, 16, 143] }) = true := by decide

theorem test_illFormed_units :
    (Instr.isleClose 128).wf = false ∧ (Instr.demandSlice 128).wf = false ∧ (Instr.isleEventsSlice 128).wf = false ∧
    (Instr.profileSlice 128).wf = false ∧ (Instr.billingCloseSlice 128).wf = false ∧ (Instr.zeroCrossing 16 0 0).wf = false ∧
    (Instr.zeroCrossing 0 65536 0).wf = false ∧ (Instr.trackingTimeout 16).wf = false ∧ (Instr.windowClose 16).wf = false ∧
    (Instr.halfCycleRefresh 16).wf = false ∧ (Instr.windowAnalysis 16 0 0).wf = false ∧ (Instr.windowAnalysis 0 4 0).wf = false ∧
    (Instr.captureComplete 4).wf = false ∧ (Instr.laneStuck 200).wf = false ∧ (Instr.estimatedSpanEnd 192).wf = false ∧
    (Instr.rtdStale 192).wf = false := by decide

theorem test_illFormed_link :
    (Instr.rd tBadLink 0 4).wf = false ∧ (Instr.rd (tLink 0) 0 (2 ^ 24)).wf = false ∧ (Instr.stat (tLink 0) 65536 0 0).wf = false ∧
    (Instr.stat (tLink 0) 0 65536 0).wf = false ∧ (Instr.stat (tLink 0) 0 0 (2 ^ 24)).wf = false ∧ (Instr.elmPhaseWrite (tLink 0) 192 0).wf = false ∧
    (Instr.isleDemandWrite (tLink 0) 128 0).wf = false ∧ (Instr.isleAlarmWrite (tLink 0) 128 0).wf = false ∧
    (Instr.isleStickyClear (tLink 0) 128 0).wf = false ∧ (Instr.portBaudWrite (tLink 0) 32 0).wf = false ∧
    (Instr.portPollWrite (tLink 0) 32 0).wf = false ∧ (Instr.portEnableWrite (tLink 0) 32 0).wf = false ∧
    (Instr.mramWindowWrite (tLink 0) 0x4000000 [0#8]).wf = false ∧ (Instr.sramWindowWrite (tLink 0) 0x800000 [0#8]).wf = false ∧
    (Instr.displayRegionWrite (tLink 0) 0x800000 [0#8]).wf = false ∧ (Instr.commit tBadLink []).wf = false ∧
    (Instr.registerWrite { tLink 0 with session := true } 0 []).wf = false := by decide

theorem test_illFormed_ports :
    (Instr.pollDue 4096).wf = false ∧ (Instr.relayCoilRetry 4096).wf = false ∧ (Instr.busFrame 32).wf = false ∧
    (Instr.pulseAccepted 0 4).wf = false ∧ (Instr.pulseGlitch 32 0).wf = false ∧ (Instr.relayMismatch 0 2).wf = false ∧
    (Instr.relayFeedback 32 0).wf = false ∧ (Instr.scrub true 8192).wf = false ∧ (Instr.scrub false 65536).wf = false ∧
    (Instr.supplyGlitch 4 0).wf = false ∧ (Instr.trngFail 3).wf = false ∧ (Instr.sessionFailLockoutEnd 3).wf = false ∧
    (Instr.jobCompletion 65536).wf = false := by decide

/-- A power-up record that names isles. -/
def tUp (isles : List Nat) : PowerUpInput :=
  { calseal := true, cover := true, tcover := true, mag := true, dbgEn := false, trngPass := true, outage := 0, vdd5p := true, vres := 9000,
    badA := false, badB := false, badIsles := isles, badGasp := false, badShare := false }

theorem test_illFormed_power_up :
    (Instr.powerUp (tUp [128])).wf = false ∧ (Instr.imageReload (tUp [128])).wf = false ∧ (Instr.powerUp (tUp [127])).wf = true := by decide

/-- A command on a unit that the device does not have stops by name (log 9). -/
theorem test_absent_unit_stops : exec (.laneStuck 200) (tSt tBare) = .fault (.noSuchUnit "lane") := by rfl

/-! ## The spec's worked examples -/

/-- Whether the device after a command has a property. -/
def after (c : Instr) (d : Dev) (p : Dev → Bool) : Bool :=
  match exec c (tSt d) with
  | .next t => p t.dev
  | _ => false

/-- R204: the check value over the ASCII string 123456789. -/
theorem test_crc32c_check_value : crc32c (ascii "123456789") = 0xE3069283#32 := by decide +kernel

/-- 15_host_link, worked example: OP 2 with QUAD is 0x22; the payload of 23 bytes begins 20 00 00 00. -/
theorem test_exec_command_byte :
    linkCmd { tLink 0 with quad := true } 2 = 0x22 ∧ (execPayload 0x20 (List.replicate 19 0#8)).length = 23 ∧
    (execPayload 0x20 []).take 4 = [0x20#8, 0#8, 0#8, 0#8] := by decide

/-- 04_isles_windows, worked example: 0.25 quanta and 133,720,854 fine LSB carry 8 quanta and keep 3,697,430. -/
theorem test_carry_of_HX :
    ({ f := 4194304, r := 0 } : Fine).carry (133720854 * 65536) = ({ f := 3697430, r := 0 }, 8) := by decide

/-- 06_billing, worked example: (0, 999,654,321) and 1,580,246 quanta at M = 10^9 wrap to (1, 1,234,567). -/
theorem test_reading_across_a_wrap :
    BReg.add (10 ^ 9) 1580246 { r := 999654321, w := 0 } = ({ r := 1234567, w := 1 }, true) := by decide

/-- 02_lanes, worked example: with 8 ferries lane 45 is visited by ferry 5 in visit 5. -/
theorem test_ferry_5_visits_lane_45 :
    ({ Rotation.reset with running := true, ferries := List.range 8, lanes := List.range 192 } : Rotation).target 5 5 = some 45 := by decide

/-- 08_structure_image, worked example: 24 PHASE slots cost 9,216 cycles, element engine 7 costs 3,832. -/
theorem test_engine_costs :
    24 * kindCycles 1 = 9216 ∧ 6 * kindCycles 1 + 7 * kindCycles 2 + 8 * kindCycles 4 + 3 * kindCycles 0 = 2304 + 1120 + 8 * kindCycles 4 + 24 := by decide

/-- The Quaymere store map's HOST region, as far as the worked example of 09_store needs it. -/
def tHostRegion : Dev := tDev [(12, tMap [(1, 0x18, 0x1600000, 4)])]

/-- 09_store, worked example: 64 bytes at 0x0160_00F0 fill the end of page 0 and wrap to its start. -/
theorem test_page_write_wraps :
    let d := tHostRegion.pageWrite 0x16000F0 ((List.range 64).map (fun i => byteOf (i + 1)))
    memRead d.store.mram 0x16000F0 16 = (List.range 16).map (fun i => byteOf (i + 1)) ∧
    memRead d.store.mram 0x1600000 48 = (List.range 48).map (fun i => byteOf (i + 17)) ∧
    memGet d.store.mram 0x1600030 = 0#8 ∧ memGet d.store.mram 0x1600100 = 0#8 := by decide +kernel

/-- 06_billing, worked example: the total A+ register of isle 60 is at 0x2001_E000; its low word follows the register. -/
theorem test_billing_view_of_isle_60 :
    let d := tLive.upIsle 60 (fun i => { i with regs := [(0, { r := 1234567, w := 1 })] })
    d.viewWord 0x2001E000 = 0x0012D687 ∧ d.viewWord 0x2001E004 = 0x00010000 := by decide +kernel

/-- R383, R392: right after reset TIME_SECONDS reads 0 and DRAW_BUDGET 8,000. -/
theorem test_reset_words : Dev.reset.viewWord 0x2000 = 8000 ∧ Dev.reset.viewWord 0x10 = 0 := by decide +kernel

/-! ## Single steps -/

/-- R11: the tick-of-second counts to 15,999 and the second follows. -/
theorem test_tick_carries_into_the_second :
    after (.tickBoundary tQuiet) { tMode .sleep with clk := { Clock.reset with tick := 15999, secs := 7 } }
      (fun d => d.clk.tick == 0 && d.clk.secs == 8) = true := by decide +kernel

/-- R372: a wrong CRC answers ST_DENIED and is counted. -/
theorem test_wrong_crc :
    after (.commit (tLink 0) []) tLive (fun d => d.link.crcErr == 1 && (d.link.resp == some { status := .denied, payload := [] })) = true := by
  decide +kernel

/-- R384: DEAD_PCT 4 is out of range, DEAD_PCT 5 waits for the tick boundary. -/
theorem test_dead_pct :
    after (.powerCtlWrite (framed 1 0x2004 4 (leBytes 4 4)) 4) tLive (fun d => d.link.resp == some { status := .range, payload := [] }) = true ∧
    after (.powerCtlWrite (framed 1 0x2004 4 (leBytes 4 5)) 5) tLive (fun d => d.link.plain.length == 1) = true := by decide +kernel

/-- R29: the first job number is 1, and 65,535 wraps to 1. -/
theorem test_job_numbers :
    after (.eventRead (framedCmd 0x22 (List.replicate 6 0#8)) (List.replicate 6 0#8)) tBare
      (fun d => d.link.resp == some { status := .done, payload := [1#8, 0#8] }) = true ∧
    nextJob [] 33 65535 = 1 ∧ nextJob [8, 9] 33 7 = 10 := by decide +kernel

/-- R380: a finished job read to its end leaves the table. -/
theorem test_stat_frees_the_job :
    after (.stat (framed 3 7 4 []) 7 0 4) (tOne .finished) (fun d => d.link.jobs == [] && (d.link.resp.map (fun r => r.payload.length)) == some 20) = true := by
  decide +kernel

/-- R63: a strait locks at its fifth qualifying period. -/
theorem test_strait_locks :
    (((tTrack false 4).crossed 0 (50000 * 65536) (2 ^ 24)).strait 0).locked = true ∧
    (((tTrack false 3).crossed 0 (50000 * 65536) (2 ^ 24)).strait 0).locked = false := by decide +kernel

/-- R63: no crossing for 400 ticks unlocks. -/
theorem test_tracking_timeout :
    after (.trackingTimeout 0) (tAt (tTrack true 5) 0 50080) (fun d => !(d.strait 0).locked) = true := by decide +kernel

/-- R15: the window that closes starts the next at the crossing. -/
theorem test_window_close :
    after (.windowClose 0) tClose (fun d => (d.strait 0).wStart == 50000 * 65536 + 7 && (d.strait 0).closed.length == 2) = true := by
  decide +kernel

/-- R32, R56: 1,024 identical bits make a ferry faulty and a lane stuck. -/
theorem test_lane_stuck :
    after (.laneStuck 199) (tStuck 199) (fun d => (d.lane 199).faulty) = true ∧
    after (.laneStuck 191) (tStuck 191) (fun d => (d.lane 191).stuck && (d.lane 191).estLeft == 3100) = true := by decide +kernel

/-- R37: a held code more than 3 s old is stale. -/
theorem test_rtd_stale :
    after (.rtdStale 0) (tAt tRtdOn 1 48001) (fun d => (d.lane 0).rtdStale) = true ∧
    after (.rtdStale 0) (tAt tRtdOn 0 48000) (fun d => (d.lane 0).rtdStale) = false := by decide +kernel

/-- R36: the RTD request is one quantum for 16 lanes, class 6, 3,200 ticks. -/
theorem test_rtd_request :
    after .rtdRequest (tAt tRtd 15999 9) (fun d => d.pwr.reqs.map (fun r => (r.cls, r.k, r.d)) == [(6, 1, 3200)]) = true := by decide +kernel

/-- R254, R255: a power fail latches and the next cause is a power fail. -/
theorem test_power_fail :
    after .powerFail tBare (fun d => d.pwr.mode == .failing && d.bak.latched && d.pwr.next == 3) = true := by decide +kernel

/-- R390: a reset pin low for 10 µs latches, for less than 1 µs does nothing. -/
theorem test_reset_pin :
    after (.resetN 10000) tBare (fun d => d.pwr.mode == .failing && d.pwr.next == 5) = true ∧
    after (.resetN 999) tBare (fun d => d == tBare) = true := by decide +kernel

/-- R235: the charger runs below 11.0 V while VDD5P is valid. -/
theorem test_charger :
    after (.chargerThreshold 10999) tBare (fun d => d.pwr.charging) = true ∧
    after (.chargerThreshold 11000) tBare (fun d => d.pwr.charging) = false := by decide +kernel

/-- R250: a wake takes NAP to DOZE, and SLEEP only at an eighth of a millisecond tick. -/
theorem test_wake :
    after .wake (tNap .nap 0 1) (fun d => d.pwr.mode == .doze) = true ∧ after .wake (tNap .sleep 0 1) (fun d => d.pwr.mode == .sleep) = true := by
  decide +kernel

/-- R317: a cover open in HOLD is marked and counted. -/
theorem test_hold_sample :
    after (.holdSample true false true 3000 false) (tMode .hold)
      (fun d => d.bak.pins.contains 1 && (tabGet { count := 0, first := 0, last := 0 } d.bak.alarms 1).count == 1) = true := by decide +kernel

/-- R226: at offset 3,199 an unfinished save is abandoned and SAVE_LATE is set. -/
theorem test_save_abandon :
    after .saveAbandon { tAt tLive 3199 9 with store := { tLive.store with saveCap := some tSave } }
      (fun d => d.store.late && d.store.saveCap == none) = true := by decide +kernel

/-- R219: below 17.5 mJ the reserve-guarded write is refused and counted. -/
theorem test_reserve :
    after (.reserveGuardedWrite 0) (tGuard 5916) (fun d => d.store.nRef == 1 && d.store.rgq == []) = true ∧
    after (.reserveGuardedWrite 0) (tGuard 5917) (fun d => d.store.rgRun == some .sealRec) = true := by decide +kernel

/-- R288: a probe of a port in backoff. -/
theorem test_backoff_probe :
    after (.backoffProbe 0) tBack (fun d => (d.port 0).pollQ == [(0, 4095, TxKind.probe)]) = true := by decide +kernel

/-- R269: E5 to a selection leads to the data request. -/
theorem test_selection :
    after (.rspUd 0 [0xE5#8]) (tBusy 0 (tRead .select true)) (fun d => (d.port 0).txn.map (fun t => t.step) == some .reqUd2) = true := by
  decide +kernel

/-- R269: a timeout is counted and the frame is sent again. -/
theorem test_answer_timeout :
    after (.answerTimeout 0) (tBusy 0 (tRead .select true)) (fun d => (d.port 0).timeouts == 1 && (d.port 0).txn.map (fun t => t.tries) == some 1) = true := by
  decide +kernel

/-- R281: a readout at Z = 5 runs at 9,600 Bd. -/
theorem test_optical_rate :
    after (.optoAcknowledgement 3 [0x06#8, 0x30#8, 0x35#8, 0x30#8, 0x0D#8, 0x0A#8]) (tOpto .identified)
      (fun d => (d.port 3).optoBd == 9600 && (d.port 3).opto == .readout 5) = true := by decide +kernel

/-- R277: a pulse counts when its ON period has lasted MIN_ON_MS; one that ends before it is a glitch. -/
theorem test_pulse :
    after (.pulseAccepted 5 3) (tOnRun true) (fun d => (d.port 5).pulses == [0, 0, 0, 1]) = true ∧
    after (.pulseGlitch 5 3) (tOnRun true) (fun d => (d.port 5).glitch == [0, 0, 0, 1]) = true := by decide +kernel

/-- R161, R306: an opened cover raises source 0x01 in its 160th sample. -/
theorem test_cover :
    after (.coverN false) (tPins tLive true) (fun d => (d.ledger 1).raised && (d.ledger 1).count == 1) = true ∧
    after (.coverN false) tLive (fun d => (d.ledger 1).raised) = false := by decide +kernel

/-- R161: an opened seal is counted. -/
theorem test_seal :
    after (.calsealN false) (tPins tLive true) (fun d => d.sealOpen && d.tam.opens == 1) = true := by decide +kernel

/-- Cycles of TCK by their TMS levels, TDI low. -/
def tTms (l : List Bool) : TickInput := { tQuiet with tck := l.map (fun b => (b, false)) }

/-- R412: after the five cycles that reset the controller the data register captures IDCODE, its least significant bit 1, then 0,
shifted out first. -/
theorem test_idcode :
    after (.tickBoundary (tTms [true, true, true, true, true, false, true, false, false])) (tMode .reset)
      (fun d => d.tap.at_ == .shiftDr && d.tap.tdo == some true) = true ∧
    after (.tickBoundary (tTms [true, true, true, true, true, false, true, false, false, false])) (tMode .reset)
      (fun d => d.tap.tdo == some false) = true := by decide +kernel

/-- R341: 10 s lockout and 600 s idle. -/
theorem test_session_times :
    after .sessionIdle (tAt (tIn tBare 0 0) 0 9600000) (fun d => d.vault.session == none) = true ∧
    after .sessionIdle (tAt (tIn tBare 0 0) 0 9599999) (fun d => d.vault.session == none) = false := by decide +kernel

/-- R364: a press released within 2 s shows the next item, the last one followed by the first; a longer one shows the next list. -/
theorem test_scroll :
    after .scrollN (tPress 159 9) (fun d => d.dsp.item == 1) = true ∧
    after .scrollN { tPress 159 9 with dsp := { (tPress 159 9).dsp with item := 2 } } (fun d => d.dsp.item == 0) = true ∧
    after .scrollNHold (tPress 0 32000) (fun d => d.dsp.list == 1) = true := by decide +kernel

end Sys2Proof.Tests
end

section
/-! The block as a whole (00_scope). `Steady d₀ d` says that between `d₀` and `d` device time stands still, both memories stay
canonical and the job table stays within its bound. Work composes: each operation of the model has one lemma, which takes
`Steady d₀ d` to `Steady d₀` of the operation on `d` and follows the operation's own definition. The operations that move the clock
have the weaker `Kept`; a tick boundary is steady work, one advance of the clock, and steady work again (`OneTick`). -/

open Sys2Proof Sys2Proof.Machine Sys2Proof.Safety

namespace Sys2Proof.Machine

-- one after another: over six hundred proofs elaborated at once ask for more threads than the memory limit lets start
set_option Elab.async false

/-- From `d₀` to `d` no tick has started, and the clock's range, the canonical form of both memories and the bound of the job
table hold in `d` when they held in `d₀`. -/
structure Kept (d₀ d : Dev) : Prop where
  runTick : d.clk.runTick = d₀.clk.runTick
  range : d₀.clk.tick < 16000 → d.clk.tick < 16000
  mram : tabWf 0#8 d₀.store.mram = true → tabWf 0#8 d.store.mram = true
  sram : tabWf 0#8 d₀.store.sram = true → tabWf 0#8 d.store.sram = true
  jobs : d₀.link.jobs.length ≤ 32 → d.link.jobs.length ≤ 32

/-- `Kept`, and `d` stands at the device time of `d₀`. -/
structure Steady (d₀ d : Dev) : Prop extends Kept d₀ d where
  secs : d.clk.secs = d₀.clk.secs
  tick : d.clk.tick = d₀.clk.tick

variable {d₀ d e : Dev}

theorem Kept.refl (d : Dev) : Kept d d := ⟨rfl, id, id, id, id⟩

theorem Kept.trans (h : Kept d₀ d) (k : Kept d e) : Kept d₀ e where
  runTick := k.runTick.trans h.runTick
  range := k.range ∘ h.range
  mram := k.mram ∘ h.mram
  sram := k.sram ∘ h.sram
  jobs := k.jobs ∘ h.jobs

theorem Steady.refl (d : Dev) : Steady d d := ⟨.refl d, rfl, rfl⟩

theorem Steady.trans (h : Steady d₀ d) (k : Steady d e) : Steady d₀ e :=
  ⟨h.toKept.trans k.toKept, k.secs.trans h.secs, k.tick.trans h.tick⟩

/-- Clock, store and link as they were: nothing else of the device bears on `Steady`. -/
theorem Steady.frame (h : Steady d₀ d) (hc : e.clk = d.clk) (hs : e.store = d.store) (hl : e.link = d.link) : Steady d₀ e := by
  refine h.trans ⟨⟨?_, ?_, ?_, ?_, ?_⟩, ?_, ?_⟩ <;> simp only [hc, hs, hl, imp_self]

theorem Steady.ite {c : Prop} [Decidable c] {a b : Dev} (ha : Steady d₀ a) (hb : Steady d₀ b) :
    Steady d₀ (if c then a else b) := by
  split
  · exact ha
  · exact hb

/-- Work that is done, or left out, after work before it. -/
theorem Steady.when {c : Prop} [Decidable c] (h : Steady d₀ d) (k : Steady d₀ d → Steady d₀ e) :
    Steady d₀ (if c then e else d) := .ite (k h) h

theorem Steady.unless {c : Prop} [Decidable c] (h : Steady d₀ d) (k : Steady d₀ d → Steady d₀ e) :
    Steady d₀ (if c then d else e) := .ite h (k h)

theorem Steady.snd {α : Type} {a : α} (h : Steady d₀ d) : Steady d₀ (a, d).2 := h

theorem Steady.iteSnd {α : Type} {c : Prop} [Decidable c] {a b : α × Dev} (ha : Steady d₀ a.2) (hb : Steady d₀ b.2) :
    Steady d₀ (if c then a else b).2 := by
  split
  · exact ha
  · exact hb

theorem Steady.foldlOn {α β : Type} (p : β → Dev) {f : β → α → β} {b : β} {l : List α} (h : Steady d₀ (p b))
    (hf : ∀ b x, Steady d₀ (p b) → Steady d₀ (p (f b x))) : Steady d₀ (p (l.foldl f b)) := by
  induction l generalizing b with
  | nil => exact h
  | cons x l ih => exact ih (hf b x h)

theorem Steady.foldl {α : Type} {f : Dev → α → Dev} {l : List α} (h : Steady d₀ d)
    (hf : ∀ e x, Steady d₀ e → Steady d₀ (f e x)) : Steady d₀ (l.foldl f d) := .foldlOn id h hf

theorem Steady.forEach {l : List Nat} {f : Nat → Dev → Dev} (h : Steady d₀ d)
    (hf : ∀ n e, Steady d₀ e → Steady d₀ (f n e)) : Steady d₀ (d.forEach l f) := .foldl h fun e n => hf n e

theorem Steady.mapClk {f : Clock → Clock} (h : Steady d₀ d) (hr : ∀ c, (f c).runTick = c.runTick := by intro; rfl)
    (hs : ∀ c, (f c).secs = c.secs := by intro; rfl) (ht : ∀ c, (f c).tick = c.tick := by intro; rfl) :
    Steady d₀ (d.mapClk f) :=
  h.trans ⟨⟨hr _, fun k => (ht _).trans_lt k, id, id, id⟩, hs _, ht _⟩

/-- A change of memory that keeps the canonical form. -/
theorem Steady.write {f : Store → Store} (h : Steady d₀ d)
    (hm : tabWf 0#8 d.store.mram = true → tabWf 0#8 (f d.store).mram = true)
    (hs : tabWf 0#8 d.store.sram = true → tabWf 0#8 (f d.store).sram = true) : Steady d₀ (d.mapStore f) :=
  h.trans ⟨⟨rfl, id, hm, hs, id⟩, rfl, rfl⟩

theorem Steady.mapStore {f : Store → Store} (h : Steady d₀ d) (hm : ∀ s, (f s).mram = s.mram := by intro; rfl)
    (hs : ∀ s, (f s).sram = s.sram := by intro; rfl) : Steady d₀ (d.mapStore f) :=
  h.write (fun k => by rwa [hm]) fun k => by rwa [hs]

theorem Steady.mapLink {f : HostLink → HostLink} (h : Steady d₀ d)
    (hj : ∀ k, (f k).jobs.length ≤ k.jobs.length := by simp) : Steady d₀ (d.mapLink f) :=
  h.trans ⟨⟨rfl, id, id, id, (hj _).trans⟩, rfl, rfl⟩

/-- Writing byte strings one after another keeps memory canonical. -/
theorem foldl_memWrite_wf {a : Nat × List Byte → Nat} (l : List (Nat × List Byte)) {m : Tab Byte} (h : tabWf 0#8 m = true) :
    tabWf 0#8 (l.foldl (fun m x => memWrite m (a x) x.2) m) = true := by
  induction l generalizing m with
  | nil => exact h
  | cons x l ih => exact ih (memWrite_wf x.2 (a x) h)

theorem Steady.setLane {n x} (h : Steady d₀ d) : Steady d₀ (d.setLane n x) :=
  h.frame rfl rfl rfl

theorem Steady.upLane {n f} (h : Steady d₀ d) : Steady d₀ (d.upLane n f) :=
  h.setLane

theorem Steady.setStrait {n x} (h : Steady d₀ d) : Steady d₀ (d.setStrait n x) :=
  h.frame rfl rfl rfl

theorem Steady.upStrait {n f} (h : Steady d₀ d) : Steady d₀ (d.upStrait n f) :=
  h.setStrait

theorem Steady.setElem {n x} (h : Steady d₀ d) : Steady d₀ (d.setElem n x) :=
  h.frame rfl rfl rfl

theorem Steady.upElem {n f} (h : Steady d₀ d) : Steady d₀ (d.upElem n f) :=
  h.setElem

theorem Steady.setEngine {n x} (h : Steady d₀ d) : Steady d₀ (d.setEngine n x) :=
  h.frame rfl rfl rfl

theorem Steady.setIsle {n x} (h : Steady d₀ d) : Steady d₀ (d.setIsle n x) :=
  h.frame rfl rfl rfl

theorem Steady.upIsle {n f} (h : Steady d₀ d) : Steady d₀ (d.upIsle n f) :=
  h.setIsle

theorem Steady.setPort {n x} (h : Steady d₀ d) : Steady d₀ (d.setPort n x) :=
  h.frame rfl rfl rfl

theorem Steady.upPort {n f} (h : Steady d₀ d) : Steady d₀ (d.upPort n f) :=
  h.setPort

theorem Steady.setPartner {n x} (h : Steady d₀ d) : Steady d₀ (d.setPartner n x) :=
  h.frame rfl rfl rfl

theorem Steady.upPartner {n f} (h : Steady d₀ d) : Steady d₀ (d.upPartner n f) :=
  h.setPartner

theorem Steady.setCap {n x} (h : Steady d₀ d) : Steady d₀ (d.setCap n x) :=
  h.frame rfl rfl rfl

theorem Steady.setKnot {n x} (h : Steady d₀ d) : Steady d₀ (d.setKnot n x) :=
  h.frame rfl rfl rfl

theorem Steady.setLedger {n x} (h : Steady d₀ d) : Steady d₀ (d.setLedger n x) :=
  h.frame rfl rfl rfl

theorem Steady.upLedger {n f} (h : Steady d₀ d) : Steady d₀ (d.upLedger n f) :=
  h.setLedger

theorem Steady.setSlot {n x} (h : Steady d₀ d) : Steady d₀ (d.setSlot n x) :=
  h.frame rfl rfl rfl

theorem Steady.upSlot {n f} (h : Steady d₀ d) : Steady d₀ (d.upSlot n f) :=
  h.setSlot

theorem Steady.mapRun {f} (h : Steady d₀ d) : Steady d₀ (d.mapRun f) :=
  h.frame rfl rfl rfl

theorem Steady.mapPwr {f} (h : Steady d₀ d) : Steady d₀ (d.mapPwr f) :=
  h.frame rfl rfl rfl

theorem Steady.mapBak {f} (h : Steady d₀ d) : Steady d₀ (d.mapBak f) :=
  h.frame rfl rfl rfl

theorem Steady.mapEvt {f} (h : Steady d₀ d) : Steady d₀ (d.mapEvt f) :=
  h.frame rfl rfl rfl

theorem Steady.mapTam {f} (h : Steady d₀ d) : Steady d₀ (d.mapTam f) :=
  h.frame rfl rfl rfl

theorem Steady.mapVault {f} (h : Steady d₀ d) : Steady d₀ (d.mapVault f) :=
  h.frame rfl rfl rfl

theorem Steady.mapDsp {f} (h : Steady d₀ d) : Steady d₀ (d.mapDsp f) :=
  h.frame rfl rfl rfl

theorem Steady.mapImg {f} (h : Steady d₀ d) : Steady d₀ (d.mapImg f) :=
  h.frame rfl rfl rfl

theorem Steady.fresh (h : Steady d₀ d) : Steady d₀ d.fresh.2 :=
  h.frame rfl rfl rfl

theorem Steady.drbg {n} (h : Steady d₀ d) : Steady d₀ (d.drbg n).2 :=
  h.frame rfl rfl rfl

/-! ### Registers and attention causes -/

theorem Steady.setReg {a v} (h : Steady d₀ d) : Steady d₀ (d.setReg a v) :=
  h.frame rfl rfl rfl

theorem Steady.setRegs {l} (h : Steady d₀ d) : Steady d₀ (d.setRegs l) :=
  h.foldl fun _ _ he => he.setReg

theorem Steady.cause {i} (h : Steady d₀ d) : Steady d₀ (d.cause i) :=
  h.mapLink

/-! ### Events, knots and notifications -/

theorem Steady.notify {n} (h : Steady d₀ d) : Steady d₀ (d.notify n) :=
  h.mapEvt

theorem Steady.logRec {r} (h : Steady d₀ d) : Steady d₀ (d.logRec r) :=
  .ite h.mapEvt h.mapRun

theorem Steady.logAt {secs tick code origin detail flags} (h : Steady d₀ d) :
    Steady d₀ (d.logAt secs tick code origin detail flags) :=
  h.logRec.unless (·.notify)

theorem Steady.logNow {code origin detail} (h : Steady d₀ d) : Steady d₀ (d.logNow code origin detail) :=
  h.logAt

theorem Steady.closeKnot {i early} (h : Steady d₀ d) : Steady d₀ (d.closeKnot i early) :=
  h.logRec.setKnot.unless (·.notify)

theorem Steady.takeKnot (h : Steady d₀ d) : Steady d₀ d.takeKnot.2 := by
  unfold Dev.takeKnot
  split
  · exact h
  · split
    · split
      · exact h.closeKnot
      · exact h
    · exact h

theorem Steady.reportKnot {code origin qual reporter secs tick detail extra} (h : Steady d₀ d) :
    Steady d₀ (d.reportKnot code origin qual reporter secs tick detail extra) := by
  unfold Dev.reportKnot
  split
  · exact h.setKnot
  · exact h.takeKnot.setKnot.mapRun.unless (·.notify)

theorem Steady.report {code origin qual detail} (h : Steady d₀ d) : Steady d₀ (d.report code origin qual detail) :=
  .ite h.reportKnot h.logNow

theorem Steady.reportPartner {code port qual idx detail extra} (h : Steady d₀ d) :
    Steady d₀ (d.reportPartner code port qual idx detail extra) :=
  h.reportKnot

theorem Steady.expireKnots (h : Steady d₀ d) : Steady d₀ d.expireKnots :=
  h.forEach fun _ _ he => .ite he (.ite he.closeKnot (.ite he.closeKnot.mapRun he))

theorem Steady.releaseNotices (h : Steady d₀ d) : Steady d₀ d.releaseNotices := by
  unfold Dev.releaseNotices
  exact h.mapEvt

theorem Steady.takeNotices {n} (h : Steady d₀ d) : Steady d₀ (d.takeNotices n).2 := by
  unfold Dev.takeNotices
  simp only [apply_ite Prod.snd]
  exact .ite h.mapEvt.mapEvt.notify.logNow h.mapEvt

/-! ### The draw arbiter -/

theorem Steady.file {w cls k dur} (h : Steady d₀ d) : Steady d₀ (d.file w cls k dur) :=
  .ite h h.mapPwr

theorem Steady.withdraw {w} (h : Steady d₀ d) : Steady d₀ (d.withdraw w) :=
  h.mapPwr

theorem Steady.giveBack {w} (h : Steady d₀ d) : Steady d₀ (d.giveBack w) :=
  h.mapPwr

theorem Steady.arbitrate (h : Steady d₀ d) : Steady d₀ d.arbitrate := by
  unfold Dev.arbitrate
  exact h.mapPwr

theorem Steady.updSubscr (h : Steady d₀ d) : Steady d₀ d.updSubscr :=
  .ite h h.mapPwr.cause

theorem Steady.runOrDoze (h : Steady d₀ d) : Steady d₀ d.runOrDoze :=
  .ite h.mapPwr h

/-! ### Tamper sources -/

theorem Steady.reportTamper {key state ex su dur secs tick} (h : Steady d₀ d) :
    Steady d₀ (d.reportTamper key state ex su dur secs tick) :=
  h.reportKnot

theorem Steady.raiseAt {key secs tick} (h : Steady d₀ d) : Steady d₀ (d.raiseAt key secs tick) := by
  unfold Dev.raiseAt
  exact h.upLedger.reportTamper.mapTam

theorem Steady.raiseSrc {key} (h : Steady d₀ d) : Steady d₀ (d.raiseSrc key) :=
  .ite h (.ite h.mapTam h.raiseAt)

theorem Steady.clearSrc {key} (h : Steady d₀ d) : Steady d₀ (d.clearSrc key) :=
  .ite h.setLedger.reportTamper h

theorem Steady.setSrc {key cond} (h : Steady d₀ d) : Steady d₀ (d.setSrc key cond) :=
  .ite h.raiseSrc h.clearSrc

theorem Steady.quietSrc {key need cond} (h : Steady d₀ d) : Steady d₀ (d.quietSrc key need cond) :=
  .ite h.upLedger.raiseSrc (.ite (.ite h.clearSrc h.upLedger) h)

/-! ### Tiles, twin records and the journal's queue: the writes to memory -/

theorem Steady.setSide {t w} (h : Steady d₀ d) : Steady d₀ (d.setSide t w) :=
  h.mapStore

theorem Steady.tileFailed {addr region consumer flags torn origin} (h : Steady d₀ d) :
    Steady d₀ (d.tileFailed addr region consumer flags torn origin) :=
  h.mapStore.when (·.logNow)

theorem Steady.verifyTile {t consumer flags origin} (h : Steady d₀ d) : Steady d₀ (d.verifyTile t consumer flags origin).2 := by
  unfold Dev.verifyTile
  split <;> dsimp only
  · exact .mapStore (.ite h.setSide h)
  · exact h.tileFailed

theorem Steady.verifySram {t consumer flags origin} (h : Steady d₀ d) : Steady d₀ (d.verifySram t consumer flags origin).2 := by
  unfold Dev.verifySram
  simp only [apply_ite Prod.snd]
  exact .ite h.mapStore h.tileFailed

/-- A byte string written to the store keeps it canonical. -/
theorem Steady.putWord {tn a w} (h : Steady d₀ d) : Steady d₀ (d.putWord tn a w) :=
  h.write (fun k => memWrite_wf w a k) id

theorem Steady.pageWrite {a data} (h : Steady d₀ d) : Steady d₀ (d.pageWrite a data) :=
  .ite (h.foldl fun _ _ he => he.putWord).mapStore (h.foldl fun _ _ he => he.putWord).setSide.mapStore

theorem Steady.putTiles {l} (h : Steady d₀ d) : Steady d₀ (d.putTiles l) :=
  h.write (foldl_memWrite_wf l) id

theorem Steady.writeSpan {a data} (h : Steady d₀ d) : Steady d₀ (d.writeSpan a data) :=
  h.foldl fun _ _ he => he.pageWrite

theorem Steady.putCopy {code tile0 record dst payload} (h : Steady d₀ d) :
    Steady d₀ (d.putCopy code tile0 record dst payload) :=
  h.putTiles

theorem Steady.twWrite {code tile0 record payload} (h : Steady d₀ d) : Steady d₀ (d.twWrite code tile0 record payload) :=
  h.putCopy

theorem Steady.putRecord {α : Type} {code tile0 record payload} {r : Twin α} {x : α} {put : Twin α → Store → Store}
    (h : Steady d₀ d) (hm : ∀ t s, (put t s).mram = s.mram := by intros; rfl)
    (hs : ∀ t s, (put t s).sram = s.sram := by intros; rfl) :
    Steady d₀ (d.putRecord code tile0 record r x payload put) :=
  (h.mapStore (hm _) (hs _)).putCopy

theorem Steady.verifyCopies {α : Type} {code tile0 parts consumer} {r : Twin α} (h : Steady d₀ d) :
    Steady d₀ (d.verifyCopies code tile0 parts consumer r) := by
  unfold Dev.verifyCopies
  dsimp only
  refine .ite ?_ (.foldl ?_ fun _ _ he => he.verifyTile) <;> exact .ite h (.foldl h fun _ _ he => he.verifyTile)

theorem Steady.conflict {tileA seq} (h : Steady d₀ d) : Steady d₀ (d.conflict tileA seq) :=
  h.mapStore.logNow

theorem Steady.settleCopies {α : Type} [DecidableEq α] {code tile0 record parts payload} {r : Twin α}
    {put : Twin α → Store → Store} (h : Steady d₀ d) (hm : ∀ t s, (put t s).mram = s.mram := by intros; rfl)
    (hs : ∀ t s, (put t s).sram = s.sram := by intros; rfl) :
    Steady d₀ (d.settleCopies code tile0 record parts r payload put) := by
  unfold Dev.settleCopies
  refine .ite ?_ h
  split
  · exact (h.conflict.mapStore (hm _) (hs _)).putCopy
  · exact h

theorem Steady.mendCopies {α : Type} {code tile0 record parts payload} {r : Twin α} {put : Twin α → Store → Store}
    (h : Steady d₀ d) (hm : ∀ t s, (put t s).mram = s.mram := by intros; rfl)
    (hs : ∀ t s, (put t s).sram = s.sram := by intros; rfl) :
    Steady d₀ (d.mendCopies code tile0 record parts r payload put) := by
  unfold Dev.mendCopies
  dsimp only
  split
  · exact .ite h (h.putRecord hm hs)
  · exact h

theorem Steady.journal {pages job} (h : Steady d₀ d) : Steady d₀ (d.journal pages job) :=
  h.mapStore

theorem Steady.journalSpan {a data job} (h : Steady d₀ d) : Steady d₀ (d.journalSpan a data job) :=
  h.journal

theorem Steady.guarded {w} (h : Steady d₀ d) : Steady d₀ (d.guarded w) :=
  h.mapStore.file

/-! ### The records kept in memory -/

theorem Steady.putLiveRecord {x} (h : Steady d₀ d) : Steady d₀ (d.putLiveRecord x) :=
  h.putRecord

theorem Steady.putStandRecord {l} (h : Steady d₀ d) : Steady d₀ (d.putStandRecord l) :=
  h.putRecord

theorem Steady.putCalRecord {l} (h : Steady d₀ d) : Steady d₀ (d.putCalRecord l) :=
  h.putRecord

theorem Steady.putTimeRecord {x} (h : Steady d₀ d) : Steady d₀ (d.putTimeRecord x) :=
  h.putRecord

theorem Steady.putCalibRecord {x} (h : Steady d₀ d) : Steady d₀ (d.putCalibRecord x) :=
  h.putRecord

theorem Steady.readParams (h : Steady d₀ d) : Steady d₀ d.readParams := by
  unfold Dev.readParams
  extract_lets s d₁ d₂ d₃ d₄ d₅
  have h₁ : Steady d₀ d₁ := h.verifyCopies.verifyCopies.verifyCopies.verifyCopies.verifyCopies
  have h₅ : Steady d₀ d₅ := h₁.settleCopies.settleCopies.settleCopies.settleCopies
  exact h₅.settleCopies

theorem Steady.putSave {x} (h : Steady d₀ d) : Steady d₀ (d.putSave x) :=
  h.putRecord.mapStore

theorem Steady.cutSave {x} (h : Steady d₀ d) : Steady d₀ (d.cutSave x) :=
  h.mapStore

theorem Steady.putGasp {x} (h : Steady d₀ d) : Steady d₀ (d.putGasp x) := by
  unfold Dev.putGasp
  exact h.putTiles.mapStore

theorem Steady.verifyWork (h : Steady d₀ d) : Steady d₀ d.verifyWork :=
  h.forEach fun _ _ he => he.verifySram

theorem Steady.putSeal {shut} (h : Steady d₀ d) : Steady d₀ (d.putSeal shut) :=
  h.mapTam.putTiles

theorem Steady.loadSeal (h : Steady d₀ d) : Steady d₀ d.loadSeal := by
  unfold Dev.loadSeal
  exact (h.forEach fun _ _ he => he.verifyTile).mapTam

theorem Steady.flushTamper (h : Steady d₀ d) : Steady d₀ d.flushTamper :=
  .ite (h.forEach fun _ _ he => he.twWrite).mapTam h

theorem Steady.verifyRecord {code tile0 record parts origin} (h : Steady d₀ d) :
    Steady d₀ (d.verifyRecord code tile0 record parts origin) :=
  (h.foldl fun _ _ he => he.verifyTile).foldl fun _ _ he => he.verifyTile

theorem Steady.settleRecord {code tile0 record parts} (h : Steady d₀ d) :
    Steady d₀ (d.settleRecord code tile0 record parts) := by
  unfold Dev.settleRecord
  dsimp only
  split
  · exact .ite h.conflict.putCopy h
  · exact h

theorem Steady.readRecord {code tile0 record parts origin} (h : Steady d₀ d) :
    Steady d₀ (d.readRecord code tile0 record parts origin) :=
  h.verifyRecord.settleRecord

theorem Steady.mendRecord {code tile0 record parts} (h : Steady d₀ d) : Steady d₀ (d.mendRecord code tile0 record parts) :=
  .ite h.putCopy (.ite h.putCopy h)

theorem Steady.loadTamper (h : Steady d₀ d) : Steady d₀ d.loadTamper := by
  unfold Dev.loadTamper
  exact (h.forEach fun _ _ he => he.readRecord).mapTam

theorem Steady.putJournal {e} (h : Steady d₀ d) : Steady d₀ (d.putJournal e) :=
  h.putTiles

theorem Steady.putState {e state} (h : Steady d₀ d) : Steady d₀ (d.putState e state) :=
  h.write (fun k => memWrite_wf _ _ k) id

/-! ### The vault -/

theorem Steady.setSlotState {k st cause origin} (h : Steady d₀ d) : Steady d₀ (d.setSlotState k st cause origin) :=
  h.upSlot

theorem Steady.useSlot {k} (h : Steady d₀ d) : Steady d₀ (d.useSlot k) :=
  h.upSlot

theorem Steady.spendSlot {k} (h : Steady d₀ d) : Steady d₀ (d.spendSlot k) :=
  .ite h.setSlotState h

theorem Steady.makeLive {k gen key cause} (h : Steady d₀ d) : Steady d₀ (d.makeLive k gen key cause) :=
  h.drbg.upSlot.setSlotState

theorem Steady.queueChildren {p} (h : Steady d₀ d) : Steady d₀ (d.queueChildren p) :=
  h.mapVault

theorem Steady.deriveSlot {k gen cause} (h : Steady d₀ d) : Steady d₀ (d.deriveSlot k gen cause) := by
  unfold Dev.deriveSlot
  dsimp only
  split
  · exact .ite h.makeLive.useSlot.spendSlot.queueChildren h
  · exact h

theorem Steady.runDerivations (h : Steady d₀ d) : Steady d₀ d.runDerivations :=
  h.mapVault.forEach fun _ _ he => .ite he.deriveSlot he

theorem Steady.endSession {reason} (h : Steady d₀ d) : Steady d₀ (d.endSession reason) := by
  unfold Dev.endSession
  split
  · exact h
  · exact (h.mapVault.when (·.mapLink)).logNow

theorem Steady.endOps {ks} (h : Steady d₀ d) : Steady d₀ (d.endOps ks).2 := by
  unfold Dev.endOps
  dsimp only
  exact h.mapLink.mapPwr

theorem Steady.invalidate {s cause} (h : Steady d₀ d) : Steady d₀ (d.invalidate s cause) := by
  unfold Dev.invalidate
  extract_lets old ds new d₁ d₂
  have h₂ : Steady d₀ d₂ := h.setSlotState.forEach fun _ _ he => he.setSlotState
  split
  next n d₃ heq =>
  extract_lets d₄ d₅
  have h₄ : Steady d₀ d₄ := (heq ▸ h₂.endOps : Steady d₀ (n, d₃).2).logNow
  have h₅ : Steady d₀ d₅ := by
    unfold d₅
    split
    · exact h₄.when (·.endSession)
    · exact h₄
  exact h₅.unless (·.mapBak.guarded)

theorem Steady.runInvalidations (h : Steady d₀ d) : Steady d₀ d.runInvalidations :=
  h.mapVault.forEach fun _ _ he => he.invalidate

theorem Steady.dropCopies (h : Steady d₀ d) : Steady d₀ d.dropCopies :=
  h.forEach fun _ _ he => he.upSlot

theorem Steady.putVault {ts} (h : Steady d₀ d) : Steady d₀ (d.putVault ts) :=
  h.mapVault.putTiles

theorem Steady.loadVault (h : Steady d₀ d) : Steady d₀ d.loadVault :=
  ((h.forEach fun _ _ he => .ite he he.verifyTile).when (·.mapVault)).forEach fun _ _ he => he.setSlot

theorem Steady.splitRoot {root} (h : Steady d₀ d) : Steady d₀ (d.splitRoot root) := by
  unfold Dev.splitRoot
  exact h.drbg.mapVault

theorem Steady.makeRoot (h : Steady d₀ d) : Steady d₀ d.makeRoot :=
  h.drbg.splitRoot.mapVault.setSlotState.deriveSlot.deriveSlot.logNow

/-! ### Requests over the host link -/

theorem Steady.sessionRefused (h : Steady d₀ d) : Steady d₀ d.sessionRefused := by
  unfold Dev.sessionRefused
  split
  · exact h
  · exact h.mapVault.when (·.endSession)

theorem Steady.respond {cmd st payload} (h : Steady d₀ d) : Steady d₀ (d.respond cmd st payload) :=
  h.mapLink

/-- A transaction keeps what steady work and the request's body keep. -/
theorem transact_induction {P : Dev → Prop} (hP : ∀ {a b}, P a → Steady a b → P b) {l op addr len payload shape mapped}
    {body : Bool → Dev → Status × List Byte × Dev} (h : P d) (hb : ∀ x e, P e → P (body x e).2.2) :
    P (d.transact l op addr len payload shape mapped body) := by
  have ite {c : Prop} [Decidable c] {a b : Dev} (ha : P a) (hb : P b) : P (if c then a else b) := by
    split
    · exact ha
    · exact hb
  have refused {cmd st} : P (d.respond cmd st []) := hP h (Steady.refl d).respond
  have answered {cmd x e} (he : P e) : P ((body x e).2.2.respond cmd (body x e).1 (body x e).2.1) :=
    hP (hb x e he) (Steady.refl _).respond
  unfold Dev.transact
  extract_lets n cmd
  refine ite (hP h (Steady.refl d).mapLink) (ite (hP h (Steady.refl d).mapLink) (ite (hP h (Steady.refl d).mapLink)
    (ite refused (ite ?_ (ite refused (answered h))))))
  split
  · exact refused
  · exact ite (ite (hP h (Steady.refl d).mapVault.respond) (answered (hP h (Steady.refl d).mapVault)))
      (hP h (Steady.refl d).sessionRefused.respond)

theorem exec_induction {P : Dev → Prop} (hP : ∀ {a b}, P a → Steady a b → P b) {l op args lenOk hostRow needLive}
    {body : Bool → Dev → Status × List Byte × Dev} (h : P d) (hb : ∀ x e, P e → P (body x e).2.2) :
    P (d.exec l op args lenOk hostRow needLive body) := by
  unfold Dev.exec
  refine transact_induction hP h fun x e he => ?_
  split_ifs
  · exact he
  · exact he
  · exact he
  · exact hb x e he

theorem Steady.transact {l op addr len payload shape mapped} {body : Bool → Dev → Status × List Byte × Dev} (h : Steady d₀ d)
    (hb : ∀ x e, Steady d₀ e → Steady d₀ (body x e).2.2) : Steady d₀ (d.transact l op addr len payload shape mapped body) :=
  transact_induction .trans h hb

theorem Steady.acceptWord {a v} (h : Steady d₀ d) : Steady d₀ (d.acceptWord a v) := by
  unfold Dev.acceptWord
  split
  · exact h
  · exact h.mapLink
  · exact .ite h h.mapLink
  · exact h.mapLink
  · exact h.mapLink

theorem Steady.writeRegs {sess a ws} (h : Steady d₀ d) : Steady d₀ (d.writeRegs sess a ws).2.2 := by
  unfold Dev.writeRegs
  dsimp only
  split
  · exact h
  · exact h.foldl fun _ _ he => he.acceptWord

theorem Steady.wrRegs {l a data} (h : Steady d₀ d) : Steady d₀ (d.wrRegs l a data) :=
  h.transact fun _ _ he => he.writeRegs

theorem Steady.upJob {n f} (h : Steady d₀ d) : Steady d₀ (d.upJob n f) :=
  h.mapLink

theorem Steady.finish {n st word result} (h : Steady d₀ d) : Steady d₀ (d.finish n st word result) :=
  h.upJob

theorem Steady.acceptJob {op args role} (h : Steady d₀ d) : Steady d₀ (d.acceptJob op args role).2.2 := by
  unfold Dev.acceptJob
  dsimp only
  split
  next => exact h
  next room => exact h.trans ⟨⟨rfl, id, id, id, fun _ => by simpa using Nat.lt_of_not_ge room⟩, rfl, rfl⟩

theorem Steady.exec {l op args lenOk hostRow needLive} {body : Bool → Dev → Status × List Byte × Dev} (h : Steady d₀ d)
    (hb : ∀ x e, Steady d₀ e → Steady d₀ (body x e).2.2) : Steady d₀ (d.exec l op args lenOk hostRow needLive body) :=
  exec_induction .trans h hb

theorem Steady.execJob {l op args lenOk hostRow needLive} (h : Steady d₀ d) :
    Steady d₀ (d.execJob l op args lenOk hostRow needLive) :=
  h.exec fun _ _ he => he.acceptJob

/-! ### Lanes -/

theorem Steady.abandonVisits (h : Steady d₀ d) : Steady d₀ d.abandonVisits :=
  .ite (.forEach h fun _ _ he => by
    split
    · exact he.upLane
    · exact he) h

theorem Steady.startCycle (h : Steady d₀ d) : Steady d₀ d.startCycle :=
  h.abandonVisits.frame rfl rfl rfl

theorem Steady.measure {n code} (h : Steady d₀ d) : Steady d₀ (d.measure n code) := by
  unfold Dev.measure
  split
  · exact h
  · exact h.upLane

theorem Steady.deliver {n code} (h : Steady d₀ d) : Steady d₀ (d.deliver n code) :=
  h.upLane

theorem Steady.chainLane {n bits} (h : Steady d₀ d) : Steady d₀ (d.chainLane n bits) := by
  unfold Dev.chainLane
  refine .ite ?_ h
  extract_lets w old
  split
  extract_lets
  split
  exact .ite h.setLane.measure h.setLane.measure.deliver

theorem Steady.deliverHeld {n} (h : Steady d₀ d) : Steady d₀ (d.deliverHeld n) :=
  h.upLane

theorem Steady.deliverLanes {bits} (h : Steady d₀ d) : Steady d₀ (d.deliverLanes bits) := by
  unfold Dev.deliverLanes
  exact ((h.foldl fun _ _ he => he.chainLane).forEach fun _ _ he => he.deliver).forEach fun _ _ he => he.deliverHeld

theorem Steady.startEst {n k zero} (h : Steady d₀ d) : Steady d₀ (d.startEst n k zero) :=
  h.upLane.forEach fun _ _ he => he.upElem

theorem Steady.laneChange {n old new} (h : Steady d₀ d) : Steady d₀ (d.laneChange n old new) :=
  .ite h ((h.upLane.forEach fun _ _ he => he.upLane).unless (·.startEst)).logNow

theorem Steady.saveStandins (h : Steady d₀ d) : Steady d₀ d.saveStandins :=
  h.putStandRecord

theorem Steady.placeStandIn {n f} (h : Steady d₀ d) : Steady d₀ (d.placeStandIn n f) :=
  h.upLane.upLane.logNow.saveStandins

theorem Steady.standIn {n f} (h : Steady d₀ d) : Steady d₀ (d.standIn n f) :=
  h.placeStandIn.startCycle

theorem Steady.failLane {n} (h : Steady d₀ d) : Steady d₀ (d.failLane n) :=
  h.upLane.logNow.saveStandins

theorem Steady.serveStuck {n integ avg} (h : Steady d₀ d) : Steady d₀ (d.serveStuck n integ avg) := by
  unfold Dev.serveStuck
  split
  · exact h.failLane
  · exact .ite h.failLane h.upLane.startEst.standIn

theorem Steady.replaceFerry {f} (h : Steady d₀ d) : Steady d₀ (d.replaceFerry f) := by
  unfold Dev.replaceFerry
  dsimp only
  split
  · exact h
  · exact h.upLane.upLane.serveStuck

theorem Steady.serveLanes (h : Steady d₀ d) : Steady d₀ d.serveLanes :=
  (h.forEach fun _ _ he => he.serveStuck).forEach fun _ _ he => he.replaceFerry

theorem Steady.adopt {f} (h : Steady d₀ d) : Steady d₀ (d.adopt f) := by
  unfold Dev.adopt
  split <;> exact h.upLane

theorem Steady.ferryTrim {f} (h : Steady d₀ d) : Steady d₀ (d.ferryTrim f) :=
  .ite h (.ite h.upLane h.upLane)

theorem Steady.connect {f} (h : Steady d₀ d) : Steady d₀ (d.connect f) := by
  unfold Dev.connect
  split
  · exact h.upLane
  · exact h

theorem Steady.visitFrame (h : Steady d₀ d) : Steady d₀ d.visitFrame := by
  unfold Dev.visitFrame
  dsimp only
  refine .ite h ?_
  split
  · exact .forEach (.ite h.startCycle h) fun _ _ he => he.adopt
  · exact .forEach (.ite h.startCycle h) fun _ _ he => he.upLane
  · exact .forEach (.forEach (.ite h.startCycle h) fun _ _ he => he.ferryTrim) fun _ _ he => he.connect
  · exact .forEach (.ite h.startCycle h) fun _ _ he => he.upLane
  · exact .ite h.startCycle h

theorem Steady.testFrame (h : Steady d₀ d) : Steady d₀ d.testFrame := by
  unfold Dev.testFrame
  split
  · exact h
  · extract_lets k ok d₁ rot d₂ d₃
    refine .ite (h.forEach fun _ _ he => he.upLane) (.ite h ?_)
    have h₁ : Steady d₀ d₁ := h.forEach fun _ _ he => by
      extract_lets x e
      refine .upLane ?_
      unfold e
      split
      · exact he.upLane
      · exact he
    have h₂ : Steady d₀ d₂ := h₁.frame rfl rfl rfl
    have h₃ : Steady d₀ d₃ := .ite h₂ h₂.saveStandins
    exact .ite h₃ h₃.startCycle

theorem Steady.failFerry {f} (h : Steady d₀ d) : Steady d₀ (d.failFerry f) :=
  h.upLane.logNow

theorem Steady.takeTrim {n t} (h : Steady d₀ d) : Steady d₀ (d.takeTrim n t) := by
  unfold Dev.takeTrim
  exact h.upLane.upLane

theorem Steady.visitEnd {v f} (h : Steady d₀ d) : Steady d₀ (d.visitEnd v f) := by
  refine .ite h.failFerry ?_
  split
  · exact h
  · split
    · exact h.upLane
    · exact .ite (.ite (.ite h.failLane h.placeStandIn) h.failFerry) h.takeTrim

theorem Steady.verdicts {v} (h : Steady d₀ d) : Steady d₀ (d.verdicts v) :=
  (h.forEach fun _ _ he => .ite he.visitEnd he).unless (·.startCycle)

theorem Steady.endVisit (h : Steady d₀ d) : Steady d₀ d.endVisit := by
  unfold Dev.endVisit
  split
  · exact h
  · exact .verdicts (h.frame rfl rfl rfl)

theorem Steady.rtdResult {n} (h : Steady d₀ d) : Steady d₀ (d.rtdResult n) := by
  unfold Dev.rtdResult
  exact h.upLane

theorem Steady.pairCodes {e} (h : Steady d₀ d) : Steady d₀ (d.pairCodes e) := by
  unfold Dev.pairCodes
  exact h.upElem

theorem Steady.excite {granted} (h : Steady d₀ d) : Steady d₀ (d.excite granted) := by
  unfold Dev.excite
  extract_lets d₁ d₂
  have h₁ : Steady d₀ d₁ := .ite (h.frame rfl rfl rfl) (.ite (h.frame rfl rfl rfl) h)
  have h₂ : Steady d₀ d₂ := h₁.withdraw
  exact .ite h₁ (.ite (h₁.frame rfl rfl rfl) (h₂.frame rfl rfl rfl))

/-! ### Products and the engines -/

theorem Steady.windowAdd {s sV sI} (h : Steady d₀ d) : Steady d₀ (d.windowAdd s sV sI) :=
  h.upStrait

theorem Steady.trackTick {s} (h : Steady d₀ d) : Steady d₀ (d.trackTick s) := by
  unfold Dev.trackTick
  exact h.upStrait

theorem Steady.formTick (h : Steady d₀ d) : Steady d₀ d.formTick := by
  unfold Dev.formTick
  extract_lets els sts r d₁ d₂ sIof d₃ d₄ d₅ odd d₆
  have h₁ : Steady d₀ d₁ := h.frame rfl rfl rfl
  have h₃ : Steady d₀ d₃ := (h₁.foldl fun _ _ he => he.upElem).foldl fun _ _ he => he.windowAdd.upStrait
  have h₅ : Steady d₀ d₅ := (h₃.forEach fun _ _ he => he.trackTick).forEach fun _ _ he => he.upElem
  exact h₅.forEach fun _ _ he => he.upIsle

theorem Steady.rollMeans (h : Steady d₀ d) : Steady d₀ d.rollMeans := by
  unfold Dev.rollMeans
  extract_lets d₁ d₂ d₃
  have h₂ : Steady d₀ d₂ := (h.forEach fun _ _ he => he.upElem).forEach fun _ _ he => he.upElem
  have h₃ : Steady d₀ d₃ := h₂.forEach fun _ _ he => he.upStrait
  clear_value d₃
  exact h₃.frame rfl rfl rfl

theorem Steady.upBank {n odd f} (h : Steady d₀ d) : Steady d₀ (d.upBank n odd f) :=
  h.upIsle

theorem Steady.addProduct {t key p sub} (h : Steady d₀ d) : Steady d₀ (d.addProduct t key p sub) :=
  .ite h.upStrait h.upBank

theorem Steady.addIsleTick {r n} (h : Steady d₀ d) : Steady d₀ (d.addIsleTick r n) :=
  .ite h.upBank h

theorem Steady.settleKey {t key p sub} (h : Steady d₀ d) : Steady d₀ (d.settleKey t key p sub) := by
  unfold Dev.settleKey
  split
  · exact h
  · exact .unless (.addProduct (h.frame rfl rfl rfl)) fun hk => hk.unless (·.addIsleTick)

theorem Steady.resolveKey {key} (h : Steady d₀ d) : Steady d₀ (d.resolveKey key) :=
  h.upElem.foldl fun _ _ he => he.settleKey

theorem Steady.resolveTicks (h : Steady d₀ d) : Steady d₀ d.resolveTicks :=
  (h.forEach fun _ _ he => he.resolveKey).frame rfl rfl rfl

theorem Steady.reportSlip {k t secs tick n} (h : Steady d₀ d) : Steady d₀ (d.reportSlip k t secs tick n) :=
  (h.forEach fun _ _ he => he.upBank.upBank).mapClk.reportKnot

theorem Steady.markTick {t k done} (h : Steady d₀ d) : Steady d₀ (d.markTick t k done) :=
  h.frame rfl rfl rfl

theorem Steady.engineTick {k stall deliver} (h : Steady d₀ d) : Steady d₀ (d.engineTick k stall deliver) := by
  unfold Dev.engineTick
  extract_lets e₁ known
  split
  extract_lets d₁ e₂
  have h₁ : Steady d₀ d₁ := .foldl h fun _ _ he => he.markTick
  clear_value d₁
  split
  next d₂ e₃ heq =>
  have h₂ : Steady d₀ d₂ := by
    split at heq
    · split at heq <;> cases heq
      · exact h₁
      · exact h₁.reportSlip
    · cases heq
      exact h₁
  refine .ite ?_ h₂.setEngine
  split
  · exact h₂.markTick.setEngine
  · exact h₂.setEngine

theorem Steady.spendEst (h : Steady d₀ d) : Steady d₀ d.spendEst :=
  h.frame rfl rfl rfl

theorem Steady.meterTick {inp lanes on} (h : Steady d₀ d) : Steady d₀ (d.meterTick inp lanes on) :=
  ((((h.when (·.deliverLanes)).when (·.formTick)).when (·.spendEst)).foldl fun _ _ he => he.engineTick).resolveTicks

theorem Steady.checkTick (h : Steady d₀ d) : Steady d₀ d.checkTick :=
  h.forEach fun _ _ he => he.upStrait

theorem Steady.settleBelow {b key} (h : Steady d₀ d) : Steady d₀ (d.settleBelow b key) :=
  .ite h (h.upElem.foldl fun _ _ he => he.settleKey)

theorem Steady.settleEngine {b k} (h : Steady d₀ d) : Steady d₀ (d.settleEngine b k) := by
  unfold Dev.settleEngine
  dsimp only
  split
  · exact .ite h.reportSlip.setEngine h
  · split
    · exact h.reportSlip
    · exact h

theorem Steady.settleTicks {b} (h : Steady d₀ d) : Steady d₀ (d.settleTicks b) := by
  unfold Dev.settleTicks
  extract_lets d₁ d₂
  have h₂ : Steady d₀ d₂ := .forEach (.foldl h fun _ _ he => he.settleEngine) fun _ _ he => he.settleBelow
  clear_value d₂
  exact .ite (h₂.frame rfl rfl rfl) h

/-! ### Tracking, windows and captures -/

theorem Steady.unlock {s} (h : Steady d₀ d) : Steady d₀ (d.unlock s) := by
  unfold Dev.unlock
  exact h.upStrait

theorem Steady.crossed {s pos peak} (h : Steady d₀ d) : Steady d₀ (d.crossed s pos peak) := by
  unfold Dev.crossed
  dsimp only
  split
  · exact h.upStrait
  · exact .ite (.ite h.upStrait.upStrait.upStrait (.ite h.upStrait.upStrait.upStrait h.upStrait.upStrait.upStrait))
      h.upStrait.upStrait.unlock

theorem Steady.thdWord {cyc lim c} (h : Steady d₀ d) : Steady d₀ (d.thdWord cyc lim c).2 := by
  unfold Dev.thdWord
  split
  · exact h.fresh
  · exact h

theorem Steady.analyseElem {s w v e c} (h : Steady d₀ d) : Steady d₀ (d.analyseElem s w v e c).2 := by
  unfold Dev.analyseElem
  dsimp only
  exact h.thdWord.upElem

theorem Steady.windowResults {s w} (h : Steady d₀ d) : Steady d₀ (d.windowResults s w) := by
  unfold Dev.windowResults
  exact .upStrait (.foldlOn Prod.snd (Steady.snd h.thdWord.upStrait) fun _ _ he => he.analyseElem)

theorem Steady.startCapture {c s trig time} (h : Steady d₀ d) : Steady d₀ (d.startCapture c s trig time) :=
  h.frame rfl rfl rfl

theorem Steady.tellConds {s slot lost} (h : Steady d₀ d) : Steady d₀ (d.tellConds s slot lost) := by
  unfold Dev.tellConds
  exact h.upStrait

theorem Steady.serveTrigger {r} (h : Steady d₀ d) : Steady d₀ (d.serveTrigger r) := by
  refine .ite h ?_
  split
  · exact h.setCap
  · split
    · exact h.tellConds
    · exact h.startCapture.tellConds

theorem Steady.serveTriggers (h : Steady d₀ d) : Steady d₀ d.serveTriggers :=
  .foldl (h.frame rfl rfl rfl) fun _ _ he => he.foldl fun _ _ he => he.serveTrigger

theorem Steady.trigger {s trig time} (h : Steady d₀ d) : Steady d₀ (d.trigger s trig time) :=
  h.frame rfl rfl rfl

theorem Steady.fillCaps (h : Steady d₀ d) : Steady d₀ d.fillCaps :=
  (h.forEach fun _ _ he => .ite he.setCap he).serveTriggers

theorem Steady.endCond {s k c cut} (h : Steady d₀ d) : Steady d₀ (d.endCond s k c cut) :=
  h.upStrait.reportKnot

theorem Steady.refreshCond {s u2 k} (h : Steady d₀ d) : Steady d₀ (d.refreshCond s u2 k) := by
  unfold Dev.refreshCond
  split
  · exact .ite h.endCond h.upStrait
  · exact .ite h.upStrait h

/-! ### Water and heat isles -/

theorem Steady.latchTemps (h : Steady d₀ d) : Steady d₀ d.latchTemps :=
  h.forEach fun _ _ he => he.upIsle

theorem Steady.latchNow (h : Steady d₀ d) : Steady d₀ d.latchNow :=
  h.forEach fun _ _ he => he.upIsle

theorem Steady.temperaturesKept (h : Steady d₀ d) : Steady d₀ d.temperaturesKept :=
  h.forEach fun _ _ he => he.upIsle

theorem Steady.latchViews (h : Steady d₀ d) : Steady d₀ d.latchViews :=
  h.forEach fun _ _ he => he.upIsle

theorem Steady.syncLeak {n from_} (h : Steady d₀ d) : Steady d₀ (d.syncLeak n from_) := by
  unfold Dev.syncLeak
  exact h.upIsle

theorem Steady.judgeHour {n hour} (h : Steady d₀ d) : Steady d₀ (d.judgeHour n hour) := by
  unfold Dev.judgeHour
  dsimp only
  exact .ite (.ite h.upIsle.upIsle.logNow h.upIsle.upIsle) (.ite h.upIsle.upIsle.logNow h.upIsle.upIsle)

theorem Steady.spreadHours {n rate bad} {f a b : Nat} (h : Steady d₀ d) : Steady d₀ (d.spreadHours n rate bad f a b) := by
  induction f generalizing d a with
  | zero => exact h
  | succ f ih => exact .ite h.upIsle (ih h.upIsle.judgeHour)

theorem Steady.upNow {n f} (h : Steady d₀ d) : Steady d₀ (d.upNow n f) :=
  .ite h.upIsle h.upBank

theorem Steady.joinAsleep {n frame} (h : Steady d₀ d) : Steady d₀ (d.joinAsleep n frame) := by
  unfold Dev.joinAsleep
  split
  · exact h.upBank.upIsle
  · exact h

theorem Steady.heatDelta {n v} (h : Steady d₀ d) : Steady d₀ (d.heatDelta n v) :=
  .ite h (.ite h.upNow (.ite h h.upNow))

theorem Steady.volumeRead {n new} (h : Steady d₀ d) : Steady d₀ (d.volumeRead n new) := by
  unfold Dev.volumeRead
  dsimp only
  exact .ite h.upIsle.upIsle.spreadHours.logNow
    (.ite h.upIsle.spreadHours.logNow
      (.ite h.upIsle.spreadHours.logNow (.ite h.upIsle.upNow.heatDelta.upIsle h.upIsle.upNow.heatDelta.spreadHours)))

theorem Steady.reverseRead {n new} (h : Steady d₀ d) : Steady d₀ (d.reverseRead n new) := by
  unfold Dev.reverseRead
  dsimp only
  split
  · exact h.upIsle
  · exact h.upNow.upIsle

theorem Steady.rebase {n} (h : Steady d₀ d) : Steady d₀ (d.rebase n) := by
  unfold Dev.rebase
  exact .upIsle (.ite h.upNow h)

theorem Steady.utilityRead {n vals} (h : Steady d₀ d) : Steady d₀ (d.utilityRead n vals) := by
  unfold Dev.utilityRead
  extract_lets get d₁
  refine .ite ?_ h
  have h₁ : Steady d₀ d₁ := by
    unfold d₁
    split
    · exact h.volumeRead
    · exact h
  clear_value d₁
  split
  · exact h₁.reverseRead
  · exact h₁

theorem Steady.utilityFrame {n b hourEnds} (h : Steady d₀ d) : Steady d₀ (d.utilityFrame n b hourEnds).2 := by
  unfold Dev.utilityFrame
  extract_lets u unm scale lpq jpq heat bad endT hour m quanta d₁
  have h₁ : Steady d₀ d₁ := .ite h.logNow h
  clear_value d₁
  split
  extract_lets
  split
  exact .snd (.upIsle (.ite h₁.upIsle.judgeHour h₁.upIsle))

/-! ### The isle close and the events slices -/

theorem Steady.sliceDone {o} (h : Steady d₀ d) : Steady d₀ (d.sliceDone o) :=
  h.mapRun

theorem Steady.addReg {n t q c} (h : Steady d₀ d) : Steady d₀ (d.addReg n t q c) :=
  h.upIsle.when (·.logNow)

theorem Steady.carryQty {n q b} (h : Steady d₀ d) : Steady d₀ (d.carryQty n q b) :=
  h.upIsle.unless fun hk => (hk.when (·.addReg)).addReg

theorem Steady.closeElems {n b odd} (h : Steady d₀ d) : Steady d₀ (d.closeElems n b odd) :=
  h.forEach fun _ _ he => he.upElem

theorem Steady.isleFlags {n status} (h : Steady d₀ d) : Steady d₀ (d.isleFlags n status) :=
  h.upIsle

theorem Steady.closeElec {n} (h : Steady d₀ d) : Steady d₀ (d.closeElec n) :=
  (h.upIsle.foldl fun _ _ he => he.carryQty).upIsle.isleFlags

theorem Steady.closeUtil {n} (h : Steady d₀ d) : Steady d₀ (d.closeUtil n) :=
  (h.utilityFrame.upIsle.foldl fun _ _ he => he.carryQty).upIsle.isleFlags

theorem Steady.closeStraits (h : Steady d₀ d) : Steady d₀ d.closeStraits :=
  ((h.forEach fun _ _ he => he.upStrait).forEach fun _ _ he => he.closeElems).forEach fun _ _ he => he.upElem

theorem Steady.judgeDead (h : Steady d₀ d) : Steady d₀ d.judgeDead := by
  unfold Dev.judgeDead
  exact h.mapPwr

theorem Steady.restoreTile {n} (h : Steady d₀ d) : Steady d₀ (d.restoreTile n) :=
  .ite h (h.foldl fun _ _ he => he.verifySram).setIsle.mapStore

theorem Steady.saveHours {n} (h : Steady d₀ d) : Steady d₀ (d.saveHours n) :=
  h.twWrite

theorem Steady.putHour {n hour next} (h : Steady d₀ d) : Steady d₀ (d.putHour n hour next) :=
  h.upIsle.saveHours

theorem Steady.rollHour {n} (h : Steady d₀ d) : Steady d₀ (d.rollHour n) :=
  h.putHour

theorem Steady.closeIsle {n} (h : Steady d₀ d) : Steady d₀ (d.closeIsle n) :=
  .unless (.ite (h.restoreTile.closeElec.when (·.rollHour)) (h.restoreTile.when (·.closeUtil))) (·.upIsle)

theorem Steady.isleSrc {n src defA defB cond} (h : Steady d₀ d) : Steady d₀ (d.isleSrc n src defA defB cond) :=
  h.setSrc

theorem Steady.isleEvents {n} (h : Steady d₀ d) : Steady d₀ (d.isleEvents n) := by
  unfold Dev.isleEvents
  extract_lets es t i d₁ big d₂ d₃ odd d₄ d₅ d₆ d₇
  have h₁ : Steady d₀ d₁ := h.isleSrc
  have h₃ : Steady d₀ d₃ := (h₁.when (·.isleSrc)).when (·.isleSrc)
  have h₆ : Steady d₀ d₆ := (h₃.isleSrc.when (·.isleSrc)).when (·.isleSrc)
  have h₇ : Steady d₀ d₇ := h.when (·.setSrc)
  exact .ite h₆.isleSrc (.ite (h₇.when (·.setSrc)) h)

theorem Steady.slowSrc {src v defA defB} (h : Steady d₀ d) : Steady d₀ (d.slowSrc src v defA defB) :=
  .ite h.raiseSrc (.ite h.clearSrc h)

theorem Steady.monitors {m} (h : Steady d₀ d) : Steady d₀ (d.monitors m) := by
  unfold Dev.monitors
  extract_lets d₁ d₂ d₃ d₄ d₅
  have h₁ : Steady d₀ d₁ := h.foldl fun _ _ he => .ite he he.clearSrc
  have h₅ : Steady d₀ d₅ := h₁.slowSrc.slowSrc.slowSrc.slowSrc
  split
  extract_lets lo hi d₆
  have h₆ : Steady d₀ d₆ := .ite h₅.raiseSrc (h₅.when (·.clearSrc))
  exact h₆.when (·.quietSrc)

/-! ### Relays -/

theorem Steady.relayUpdate {t cls} (h : Steady d₀ d) : Steady d₀ (d.relayUpdate t cls) :=
  .ite (h.upPort.when (·.withdraw.withdraw)) h.upPort

theorem Steady.placeHold {hold cls} (h : Steady d₀ d) : Steady d₀ (d.placeHold hold cls) :=
  .ite h h.mapBak.relayUpdate

theorem Steady.releaseHolds {t f} (h : Steady d₀ d) : Steady d₀ (d.releaseHolds t f) :=
  h.mapBak.relayUpdate

theorem Steady.releaseDemand {t} (h : Steady d₀ d) : Steady d₀ (d.releaseDemand t) :=
  h.releaseHolds.foldl fun _ _ he => .ite he.upIsle.logNow he.logNow

theorem Steady.relayLater {t kind release} (h : Steady d₀ d) : Steady d₀ (d.relayLater t kind release) :=
  h.mapLink

theorem Steady.relayNow {x} (h : Steady d₀ d) : Steady d₀ (d.relayNow x) :=
  .ite h.placeHold (.ite h.releaseDemand h.releaseHolds)

/-! ### Calendars, time, demand and profile -/

theorem Steady.setCalRoles {p r} (h : Steady d₀ d) : Steady d₀ (d.setCalRoles p r) :=
  h.putCalRecord

theorem Steady.checkCals (h : Steady d₀ d) : Steady d₀ d.checkCals :=
  h.forEach fun _ _ he => .ite he.verifyTile he

theorem Steady.holdPassive {p has} (h : Steady d₀ d) : Steady d₀ (d.holdPassive p has) :=
  h.setCalRoles

theorem Steady.activateCal {p} (h : Steady d₀ d) : Steady d₀ (d.activateCal p) :=
  h.setCalRoles.logNow

theorem Steady.activateLoading {p j} (h : Steady d₀ d) : Steady d₀ (d.activateLoading p j) :=
  h.upJob.setCalRoles.logNow

theorem Steady.loadAborted {j} (h : Steady d₀ d) : Steady d₀ (d.loadAborted j) :=
  .ite h h.setCalRoles

theorem Steady.activations {loc} (h : Steady d₀ d) : Steady d₀ (d.activations loc) :=
  .ite h (.forEach h fun _ _ he => by
    split
    · exact .ite he.activateLoading he
    · split
      · exact .ite he.activateCal he
      · exact he)

theorem Steady.recordFrame {loc} (h : Steady d₀ d) : Steady d₀ (d.recordFrame loc) :=
  h.forEach fun _ _ he => he.upIsle

theorem Steady.saveTimeRec (h : Steady d₀ d) : Steady d₀ d.saveTimeRec :=
  h.putTimeRecord

theorem Steady.recordClose {n secs tick loc manual late} (h : Steady d₀ d) :
    Steady d₀ (d.recordClose n secs tick loc manual late) :=
  .ite h h.upIsle.saveTimeRec

theorem Steady.calendarCloses {secs loc late} (h : Steady d₀ d) : Steady d₀ (d.calendarCloses secs loc late) :=
  .ite h (.ite h (h.forEach fun _ _ he => he.recordClose))

theorem Steady.skippedMinute {secs loc late} (h : Steady d₀ d) : Steady d₀ (d.skippedMinute secs loc late) :=
  h.activations.calendarCloses.activations

theorem Steady.walkLocal {secs late} {f t b : Nat} (h : Steady d₀ d) : Steady d₀ (d.walkLocal secs late f t b) := by
  induction f generalizing d t with
  | zero => exact h
  | succ f ih => exact .ite h (ih h.skippedMinute)

theorem Steady.applyOffset {secs o late} (h : Steady d₀ d) : Steady d₀ (d.applyOffset secs o late).2 := by
  unfold Dev.applyOffset
  dsimp only
  split
  · exact h
  · exact .ite h.mapClk.saveTimeRec.walkLocal h.mapClk.saveTimeRec

theorem Steady.dueOffset {secs late} (h : Steady d₀ d) : Steady d₀ (d.dueOffset secs late) := by
  unfold Dev.dueOffset
  split
  · exact .ite h.mapClk.applyOffset h
  · exact h

theorem Steady.gapMinute {secs loc} (h : Steady d₀ d) : Steady d₀ (d.gapMinute secs loc) :=
  (h.forEach fun _ _ he => he.upIsle).forEach fun _ _ he => he.upIsle

theorem Steady.walkDevice {late gaps} {f t b : Nat} (h : Steady d₀ d) : Steady d₀ (d.walkDevice late gaps f t b) := by
  induction f generalizing d t with
  | zero => exact h
  | succ f ih =>
    refine .ite h (ih (.skippedMinute ?_))
    split
    · exact h.dueOffset.dueOffset.dueOffset.dueOffset.activations.gapMinute
    · exact h.dueOffset.dueOffset.dueOffset.dueOffset.activations

theorem Steady.walkSpan {a b late gaps} (h : Steady d₀ d) : Steady d₀ (d.walkSpan a b late gaps) :=
  .ite h h.walkDevice.activations

theorem Steady.boundaryOffsets {late} (h : Steady d₀ d) : Steady d₀ (d.boundaryOffsets late).2 := by
  unfold Dev.boundaryOffsets
  refine .foldlOn Prod.snd ?_ fun x _ he => ?_
  · split
    · exact h.mapClk.applyOffset
    · exact h
  · dsimp only
    split
    · rw [apply_ite Prod.snd]
      exact .ite he.mapClk.applyOffset he
    · exact he

theorem Steady.endTimeJob {n st} (h : Steady d₀ d) : Steady d₀ (d.endTimeJob n st) :=
  h.upJob.mapLink

theorem Steady.timeDone {st} (h : Steady d₀ d) : Steady d₀ (d.timeDone st) := by
  unfold Dev.timeDone
  split
  · exact h.finish
  · exact h

theorem Steady.markDemand {n short interrupted endS} (h : Steady d₀ d) : Steady d₀ (d.markDemand n short interrupted endS) :=
  .ite h.upIsle (.ite h.upIsle h)

theorem Steady.markProfile {n short interrupted stepped endS skipFrom} (h : Steady d₀ d) :
    Steady d₀ (d.markProfile n short interrupted stepped endS skipFrom) :=
  .ite h h.upIsle

theorem Steady.idleEnds {back endS} (h : Steady d₀ d) : Steady d₀ (d.idleEnds back endS) :=
  (h.when (·.gapMinute)).when (·.forEach fun _ _ he => he.upIsle)

theorem Steady.closeDemand {n due} (h : Steady d₀ d) : Steady d₀ (d.closeDemand n due) := by
  unfold Dev.closeDemand
  exact h.upIsle

theorem Steady.demandLimits {n mins subint warn trip} (h : Steady d₀ d) :
    Steady d₀ (d.demandLimits n mins subint warn trip) := by
  unfold Dev.demandLimits
  extract_lets m e run e0 reached det d₁ d₂ hits d₃ t supp d₄ d₅
  have h₁ : Steady d₀ d₁ := h.upIsle
  have h₂ : Steady d₀ d₂ := .ite h₁.upIsle.cause.logNow (.ite h₁.upIsle.logNow h₁)
  have h₃ : Steady d₀ d₃ := h₂.upIsle
  have h₅ : Steady d₀ d₅ := h₃.upIsle.logNow
  exact .ite h₁ (.ite (.ite (.ite h₅ h₅.placeHold) h₃) h₂.upIsle)

theorem Steady.showDemand {n} (h : Steady d₀ d) : Steady d₀ (d.showDemand n) :=
  h.upIsle

theorem Steady.demandSlice {n warn trip} (h : Steady d₀ d) : Steady d₀ (d.demandSlice n warn trip) := by
  unfold Dev.demandSlice
  refine .ite h ?_
  extract_lets d₁
  have h₁ : Steady d₀ d₁ := h.upIsle
  dsimp only
  refine .showDemand (.demandLimits ?_)
  split
  · exact h₁.closeDemand
  · exact h₁

theorem Steady.reclose (h : Steady d₀ d) : Steady d₀ d.reclose :=
  h.forEach fun _ _ he => .ite he.upIsle.releaseHolds.logNow he

theorem Steady.putProfile {n r} (h : Steady d₀ d) : Steady d₀ (d.putProfile n r).2 := by
  unfold Dev.putProfile
  simp only [apply_ite Prod.snd]
  exact .ite h.upIsle h.upIsle

theorem Steady.journalRecords {l} (h : Steady d₀ d) : Steady d₀ (d.journalRecords l) :=
  h.foldl fun _ _ he => he.journal

theorem Steady.profileSlice {n} (h : Steady d₀ d) : Steady d₀ (d.profileSlice n) := by
  unfold Dev.profileSlice
  exact .ite h (.journalRecords (.foldlOn Prod.snd (Steady.snd h.upIsle) fun _ _ he => he.upIsle.putProfile))

theorem Steady.snapshot {n c late} (h : Steady d₀ d) : Steady d₀ (d.snapshot n c late) :=
  h.upIsle.twWrite

theorem Steady.billingSlice {n late} (h : Steady d₀ d) : Steady d₀ (d.billingSlice n late) :=
  .foldl (.ite h h.upIsle) fun _ _ he => he.snapshot

theorem Steady.startTimeSet {j} (h : Steady d₀ d) : Steady d₀ (d.startTimeSet j) := by
  unfold Dev.startTimeSet
  extract_lets mode delta top tgt d₁
  refine .ite h.finish ?_
  have h₁ : Steady d₀ d₁ := by
    unfold d₁
    split
    · exact h.endTimeJob
    · exact h
  exact .ite h₁.mapClk (.ite h₁.mapClk.finish h₁.mapClk)

theorem Steady.startCalLoad {j} (h : Steady d₀ d) : Steady d₀ (d.startCalLoad j) :=
  .ite h.finish h.upJob.journalSpan

theorem Steady.profileResult {args} (h : Steady d₀ d) : Steady d₀ (d.profileResult args).2.2.2 := by
  unfold Dev.profileResult
  extract_lets n first count held start want tile good d₁
  have h₁ : Steady d₀ d₁ := h.forEach fun _ _ he => he.verifyTile
  clear_value d₁
  split
  · exact h
  · split
    · exact h₁
    · exact h₁.verifyTile

theorem Steady.freeSplice {r} (h : Steady d₀ d) : Steady d₀ (d.freeSplice r) := by
  unfold Dev.freeSplice
  split
  · exact h
  · split
    · exact h.writeSpan
    · exact h

/-! ### Ports and partners -/

theorem Steady.formAnswer {p} (h : Steady d₀ d) : Steady d₀ (d.formAnswer p) :=
  ((h.when (·.upPort)).when (·.upPort)).when (·.upPort)

theorem Steady.relayWaits {p} (h : Steady d₀ d) : Steady d₀ (d.relayWaits p) :=
  h.forEach fun _ _ he => .ite he he.upPartner.logNow

theorem Steady.portFile {p} (h : Steady d₀ d) : Steady d₀ (d.portFile p) := by
  unfold Dev.portFile
  dsimp only
  split
  · exact h.formAnswer.relayWaits.withdraw.withdraw
  · exact .ite h.formAnswer.relayWaits.withdraw.mapPwr h.formAnswer.relayWaits.withdraw.file

theorem Steady.portsFile (h : Steady d₀ d) : Steady d₀ d.portsFile :=
  h.forEach fun _ _ he => he.portFile

theorem Steady.ptWrite {i} (h : Steady d₀ d) : Steady d₀ (d.ptWrite i) :=
  h.mapStore

theorem Steady.ptLater {i} (h : Steady d₀ d) : Steady d₀ (d.ptLater i) :=
  h.mapStore

theorem Steady.ptState {i st} (h : Steady d₀ d) : Steady d₀ (d.ptState i st) :=
  .ite h h.upPartner.ptWrite.reportPartner

theorem Steady.ptEnrol {i} (h : Steady d₀ d) : Steady d₀ (d.ptEnrol i) :=
  h.ptState.upPartner

theorem Steady.nextDue {i} (h : Steady d₀ d) : Steady d₀ (d.nextDue i) :=
  .ite (h.upPartner.unless (·.upPort)) h.upPartner

theorem Steady.ptReply {i} (h : Steady d₀ d) : Steady d₀ (d.ptReply i) :=
  h.upPartner.ptLater.when (·.ptState)

theorem Steady.reportMissed {p qual i} (h : Steady d₀ d) : Steady d₀ (d.reportMissed p qual i) := by
  unfold Dev.reportMissed
  split
  · exact h.setKnot
  · exact h.reportPartner

theorem Steady.makeSuspect {p qual} (h : Steady d₀ d) : Steady d₀ (d.makeSuspect p qual) := by
  unfold Dev.makeSuspect
  dsimp only
  split
  · exact h.upPort
  · split
    · exact h.upPort.setKnot.setKnot
    · exact h.upPort.setKnot.notify

theorem Steady.pollMissed {i qual} (h : Steady d₀ d) : Steady d₀ (d.pollMissed i qual) := by
  unfold Dev.pollMissed
  extract_lets p now d₁ d₂ d₃ d₄ x
  have h₂ : Steady d₀ d₂ := h.reportMissed.upPort
  have h₃ : Steady d₀ d₃ := by
    unfold d₃
    split
    · exact h₂.when (·.makeSuspect)
    · exact h₂
  have h₄ : Steady d₀ d₄ := h₃.upPartner.ptLater
  exact .ite h₃ (.ite h₄.ptState (h₄.when (·.ptState)))

theorem Steady.endBackoff {p} (h : Steady d₀ d) : Steady d₀ (d.endBackoff p) :=
  .ite h.upPort h

theorem Steady.closeSuspects (h : Steady d₀ d) : Steady d₀ d.closeSuspects :=
  h.forEach fun _ _ he => .ite he he.closeKnot

theorem Steady.flushPartners (h : Steady d₀ d) : Steady d₀ d.flushPartners :=
  .ite (h.mapStore.forEach fun _ _ he => he.twWrite) h

theorem Steady.loadPartners (h : Steady d₀ d) : Steady d₀ d.loadPartners :=
  .foldl (.foldl (h.frame rfl rfl rfl) fun _ _ he => .ite he.readRecord he) fun _ _ he => by
    split
    · exact he
    · exact he.foldl fun _ _ he => he.setPartner

theorem Steady.spreadDues (h : Steady d₀ d) : Steady d₀ d.spreadDues :=
  h.foldl fun _ _ he => he.foldl fun _ _ he => he.upPartner

theorem Steady.restartPulses (h : Steady d₀ d) : Steady d₀ d.restartPulses :=
  h.frame rfl rfl rfl

theorem Steady.setTxn {p t} (h : Steady d₀ d) : Steady d₀ (d.setTxn p t) :=
  h.upPort

theorem Steady.endTxn {p} (h : Steady d₀ d) : Steady d₀ (d.endTxn p) :=
  h.upPort

theorem Steady.freeStatus (h : Steady d₀ d) : Steady d₀ d.freeStatus.2 :=
  h.fresh

theorem Steady.sendFrame {p bytes t} (h : Steady d₀ d) : Steady d₀ (d.sendFrame p bytes t) := by
  unfold Dev.sendFrame
  exact h.upPort

theorem Steady.sendOutput {p t dur} (h : Steady d₀ d) : Steady d₀ (d.sendOutput p t dur) := by
  unfold Dev.sendOutput
  exact h.upPort

theorem Steady.busFrame {p} (h : Steady d₀ d) : Steady d₀ (d.busFrame p) := by
  refine .ite h ?_
  split
  · exact h
  · exact h.sendOutput
  · exact h.upPort.sendFrame
  · exact h.sendFrame
  · exact h.upPort.sendFrame
  · exact h.sendFrame
  · exact h.sendFrame.upPort

theorem Steady.upDisc {p f} (h : Steady d₀ d) : Steady d₀ (d.upDisc p f) :=
  h.upPort

theorem Steady.discFound {p second primary ident man ver medium read} (h : Steady d₀ d) :
    Steady d₀ (d.discFound p second primary ident man ver medium read) := by
  unfold Dev.discFound
  extract_lets enrol d₁
  have henrol {e i} (he : Steady d₀ e) : Steady d₀ (enrol e i) := he.when (·.ptEnrol)
  have h₁ : Steady d₀ d₁ := h.upPort.upDisc
  clear_value enrol d₁
  split
  · exact henrol h₁.ptReply
  · split
    · exact henrol h₁.setPartner.ptState.upPartner.upDisc
    · exact h₁.unless (·.upDisc.logNow)

theorem Steady.discNext {p collide} (h : Steady d₀ d) : Steady d₀ (d.discNext p collide) := by
  unfold Dev.discNext
  extract_lets d₁
  have h₁ : Steady d₀ d₁ := h.endTxn.upPort
  clear_value d₁
  split
  · exact h₁
  · dsimp only
    refine .ite (.finish (.upPort ?_)) (.upPort ?_)
    all_goals
      refine .iteSnd ?_ h₁
      split
      · exact h₁
      · exact .iteSnd h₁ (.iteSnd (.snd h₁.logNow) h₁)

theorem Steady.startDiscover {j} (h : Steady d₀ d) : Steady d₀ (d.startDiscover j) :=
  .ite h.finish (.ite h.finish (.ite h.finish (.ite h.finish h.upPort.upJob)))

theorem Steady.txnFailed {p t qual} (h : Steady d₀ d) : Steady d₀ (d.txnFailed p t qual) := by
  unfold Dev.txnFailed
  split
  · exact (h.endTxn.when (·.pollMissed)).nextDue
  · exact h.endTxn.when (·.pollMissed)
  · exact (h.endTxn.when (·.pollMissed)).nextDue.freeStatus.finish
  · exact h.endTxn.upPartner
  · exact h.endTxn.discNext

theorem Steady.frameFailed {p t qual} (h : Steady d₀ d) : Steady d₀ (d.frameFailed p t qual) := by
  unfold Dev.frameFailed
  dsimp only
  split
  · split
    · exact .ite h.upPort.discNext h.upPort.discNext
    · split
      · exact .ite h.upPort.discFound.discNext h.upPort.discNext
      · exact h.upPort.endTxn
    · exact h.upPort.discNext
  · exact .ite h.upPort.setTxn h.upPort.txnFailed

theorem Steady.storeVals {i t} (h : Steady d₀ d) : Steady d₀ (d.storeVals i t) :=
  h.upPartner

theorem Steady.readDone {p t} (h : Steady d₀ d) : Steady d₀ (d.readDone p t) := by
  unfold Dev.readDone
  extract_lets i d₁ d₂ x d₃ d₄
  have h₂ : Steady d₀ d₂ := h.endTxn.ptReply.storeVals
  have h₃ : Steady d₀ d₃ := by
    unfold d₃
    split
    · exact h₂.when (·.utilityRead)
    · exact h₂
  have h₄ : Steady d₀ d₄ := h₃.when (·.relayUpdate)
  clear_value d₄
  split
  · exact h₄.nextDue
  · exact h₄.nextDue.finish
  · exact h₄

theorem Steady.replaced {p i ident man ver medium} (h : Steady d₀ d) : Steady d₀ (d.replaced p i ident man ver medium) :=
  .ite h ((h.upPartner.ptWrite.reportPartner.when (·.rebase)).when (·.ptState))

theorem Steady.answered {p t} (h : Steady d₀ d) : Steady d₀ (d.answered p t) := by
  unfold Dev.answered
  split
  · exact h.upPort
  · exact h.upPort.endBackoff

theorem Steady.telegram {p t ci body raw} (h : Steady d₀ d) : Steady d₀ (d.telegram p t ci body raw) := by
  unfold Dev.telegram
  extract_lets i
  split
  extract_lets d₁ d₂ medium
  have h₁ : Steady d₀ d₁ := h.upPartner
  have h₂ : Steady d₀ d₂ := by
    unfold d₂
    split
    · exact h₁.when (·.replaced)
    · exact h₁
  exact .ite h₁.txnFailed (.ite h₂.setTxn h₂.readDone)

theorem Steady.mbusAnswer {p t raw} (h : Steady d₀ d) : Steady d₀ (d.mbusAnswer p t raw) := by
  unfold Dev.mbusAnswer
  split
  · exact .ite h.answered.upPartner.setTxn h.frameFailed
  · exact .ite h.answered.setTxn h.frameFailed
  · exact .ite h.answered.setTxn h.frameFailed
  · exact .ite h.answered.setTxn h.frameFailed
  · split
    · exact .ite h.answered.telegram h.frameFailed
    · exact h.frameFailed
  · split
    · exact .ite h.frameFailed (.discNext (.ite h.answered.discFound (h.answered.when (·.discFound))))
    · exact h.frameFailed
  · exact h

theorem Steady.coilDone {p t target} (h : Steady d₀ d) : Steady d₀ (d.coilDone p t target) :=
  h.endTxn.ptReply.upPartner.when (·.relayUpdate)

theorem Steady.modbusIn {p t raw} (h : Steady d₀ d) : Steady d₀ (d.modbusIn p t raw) := by
  unfold Dev.modbusIn
  dsimp only
  split
  · exact h.frameFailed
  · refine .ite h.frameFailed ?_
    split
    · split
      · exact h.answered.setTxn
      · exact h.answered.readDone
    · exact h.answered.setTxn
    · split
      · exact h.answered.coilDone
      · exact h.answered.readDone
    · exact h.answered.discFound.discNext
    · exact h.answered

theorem Steady.dropPolls {i} (h : Steady d₀ d) : Steady d₀ (d.dropPolls i) :=
  h.upPort.foldl fun _ _ he => he.finish

theorem Steady.forgetBound {i} (h : Steady d₀ d) : Steady d₀ (d.forgetBound i) :=
  h.forEach fun _ _ he => he.upIsle

theorem Steady.startPartnerRead {j} (h : Steady d₀ d) : Steady d₀ (d.startPartnerRead j) :=
  .ite h.finish (.ite h.nextDue.finish h.upPort.upJob)

theorem Steady.portModuleChange {p old new} (h : Steady d₀ d) : Steady d₀ (d.portModuleChange p old new) :=
  (h.forEach fun _ _ he => he.dropPolls.upPartner.ptWrite).logNow

/-! ### The store's commands -/

theorem Steady.wrMram {l a data} (h : Steady d₀ d) : Steady d₀ (d.wrMram l a data) := by
  unfold Dev.wrMram
  refine h.transact fun _ _ he => ?_
  split
  · exact he
  · split_ifs
    · exact he
    · exact he
    · exact he.pageWrite

theorem Steady.sramWrite {a l} (h : Steady d₀ d) : Steady d₀ (d.sramWrite a l) :=
  h.write id fun k => memWrite_wf l a k

theorem Steady.startStoreWrite {j} (h : Steady d₀ d) : Steady d₀ (d.startStoreWrite j) := by
  unfold Dev.startStoreWrite
  dsimp only
  split
  · exact h.finish
  · exact .ite h.journalSpan.upJob h

theorem Steady.abortStoreWrite {j} (h : Steady d₀ d) : Steady d₀ (d.abortStoreWrite j) :=
  h.fresh.foldl fun _ _ he => he.pageWrite

theorem Steady.doneStoreWrite {j} (h : Steady d₀ d) : Steady d₀ (d.doneStoreWrite j) :=
  h.foldl fun _ _ he => he.pageWrite

theorem Steady.storeFile (h : Steady d₀ d) : Steady d₀ d.storeFile :=
  .ite h.file (.ite h.file h)

theorem Steady.saveDone (h : Steady d₀ d) : Steady d₀ d.saveDone := by
  unfold Dev.saveDone
  split
  · exact h
  · exact h.putSave.mapStore

theorem Steady.journalApplied (h : Steady d₀ d) : Steady d₀ d.journalApplied.2 := by
  unfold Dev.journalApplied
  split <;> dsimp only
  · exact (h.putState.foldl fun _ _ he => he.pageWrite).putState.mapStore
  · exact h

theorem Steady.abortJournal {job} (h : Steady d₀ d) : Steady d₀ (d.abortJournal job).2 := by
  unfold Dev.abortJournal
  split
  · exact h
  · simp only [apply_ite Prod.snd]
    exact .ite (.ite h.fresh (h.fresh.foldl fun _ _ he => he.putState).mapStore) (.mapStore (.ite h.withdraw h))

theorem Steady.rollEntry {e} (h : Steady d₀ d) : Steady d₀ (d.rollEntry e).2 := by
  unfold Dev.rollEntry
  split
  · exact ((h.foldl fun _ _ he => .ite he he.verifyTile).foldl fun _ _ he => he.pageWrite).putState
  · exact ((h.foldl fun _ _ he => .ite he he.verifyTile).foldl fun _ _ he => he.pageWrite).putState

theorem Steady.replayJournal (h : Steady d₀ d) : Steady d₀ d.replayJournal := by
  unfold Dev.replayJournal
  extract_lets l d₁ f b
  have h₁ : Steady d₀ d₁ := .foldl h fun _ _ he => he.verifyTile
  have h₂ : Steady d₀ (l.foldl (fun (x : Nat × Dev) e => let (n, d) := x.2.rollEntry e; (x.1 + n, d)) (0, d₁)).2 :=
    .foldlOn Prod.snd h₁ fun _ _ he => he.rollEntry
  exact .ite h₂.mapStore h₂.mapStore.logNow

theorem Steady.rgRefused {w} (h : Steady d₀ d) : Steady d₀ (d.rgRefused w) := by
  unfold Dev.rgRefused
  split
  · exact h.mapTam
  · exact h.mapVault.report
  · exact h.mapPwr
  · exact h.finish
  · exact h.finish
  · exact h.finish
  · exact h

theorem Steady.rgFile (h : Steady d₀ d) : Steady d₀ d.rgFile := by
  unfold Dev.rgFile
  split
  · exact .ite h.file h
  · exact h

theorem Steady.flushEvents (h : Steady d₀ d) : Steady d₀ d.flushEvents :=
  .ite (h.mapRun.mapStore.forEach fun _ _ he => he.twWrite) h

theorem Steady.scrubTwin {code off} (h : Steady d₀ d) : Steady d₀ (d.scrubTwin code off) := by
  unfold Dev.scrubTwin
  refine .ite ?_ (.ite (.ite h.mendCopies h) (.ite h.mendCopies h.settleRecord.mendRecord))
  split
  · exact h.mendCopies
  · exact h.mendCopies
  · exact h.mendCopies
  · exact h.mendCopies
  · exact h

/-! ### Shadow sets, image jobs and splices -/

theorem Steady.writeCalib (h : Steady d₀ d) : Steady d₀ d.writeCalib :=
  h.mapImg.putCalibRecord

theorem Steady.applyFrozen (h : Steady d₀ d) : Steady d₀ d.applyFrozen := by
  unfold Dev.applyFrozen
  split
  · exact h
  · extract_lets d₁ lk d₂ old d₃ d₄
    have h₂ : Steady d₀ d₂ := h.mapLink.foldl fun _ _ he => he.setReg
    have h₃ : Steady d₀ d₃ := h₂.foldl fun _ _ he => he.setReg
    exact .ite h₂ (.ite (.ite h₂ h₃.mapTam.writeCalib.logNow) h₂.logNow)

theorem Steady.endPortJobs {p} (h : Steady d₀ d) : Steady d₀ (d.endPortJobs p) :=
  h.foldl fun _ _ he => he.finish

theorem Steady.portEntry {p old new} (h : Steady d₀ d) : Steady d₀ (d.portEntry p old new) :=
  h.setRegs.unless (·.endPortJobs.portModuleChange.upPort)

theorem Steady.applySplice {r job} (h : Steady d₀ d) : Steady d₀ (d.applySplice r job) := by
  unfold Dev.applySplice
  split
  · exact h
  · exact .finish (.logNow (.ite h.mapImg.laneChange (.ite h.mapImg.syncLeak.setRegs.upIsle (.ite h.mapImg.portEntry
      h.mapImg.mapDsp))))

theorem Steady.applySplices (h : Steady d₀ d) : Steady d₀ d.applySplices :=
  h.mapImg.foldl fun _ _ he => he.applySplice

theorem Steady.startImageWrite {j} (h : Steady d₀ d) : Steady d₀ (d.startImageWrite j) :=
  .ite h.finish (.ite h.finish (.ite h.finish (.ite h.finish h.journalSpan.upJob)))

theorem Steady.startImageLoad {j} (h : Steady d₀ d) : Steady d₀ (d.startImageLoad j) :=
  .ite h.finish (.ite h.finish h.upJob)

theorem Steady.setReason {s r} (h : Steady d₀ d) : Steady d₀ (d.setReason s r) :=
  h.mapImg

theorem Steady.doneImageLoad {j} (h : Steady d₀ d) : Steady d₀ (d.doneImageLoad j) := by
  unfold Dev.doneImageLoad
  dsimp only
  split <;> exact h.setReason.finish

theorem Steady.startSplice {j} (h : Steady d₀ d) : Steady d₀ (d.startSplice j) :=
  h.upJob

theorem Steady.checkedSplice {j} (h : Steady d₀ d) : Steady d₀ (d.checkedSplice j) := by
  unfold Dev.checkedSplice
  split
  · exact h.finish
  · exact h.journalSpan.upJob
  · exact h.finish

theorem Steady.pendSplice {j} (h : Steady d₀ d) : Steady d₀ (d.pendSplice j) := by
  unfold Dev.pendSplice
  exact (h.foldl fun _ _ he => he.freeSplice.finish).mapImg

theorem Steady.abortSplice {j} (h : Steady d₀ d) : Steady d₀ (d.abortSplice j) :=
  (h.foldl fun _ _ he => he.freeSplice).mapImg

/-! ### The frame boundary -/

theorem Steady.stepTwo (h : Steady d₀ d) : Steady d₀ d.stepTwo := by
  unfold Dev.stepTwo
  exact (h.endVisit.applyFrozen.unless (·.applySplices)).mapClk

theorem Steady.runSlices {start events late} (h : Steady d₀ d) : Steady d₀ (d.runSlices start events late) := by
  unfold Dev.runSlices
  extract_lets isles from_ d₁ d₂ d₃ d₄ d₅ d₆ d₇
  have h₂ : Steady d₀ d₂ := (h.when (·.closeStraits)).forEach fun _ _ he => he.closeIsle
  have h₃ : Steady d₀ d₃ := h₂.forEach fun _ _ he => he.demandSlice
  have h₄ : Steady d₀ d₄ := h₃.when (·.forEach fun _ _ he => he.isleEvents)
  have h₅ : Steady d₀ d₅ := h₄.when (·.expireKnots.releaseNotices)
  have h₆ : Steady d₀ d₆ := h₅.forEach fun _ _ he => he.profileSlice
  exact (h₆.forEach fun _ _ he => he.billingSlice).mapRun

theorem Kept.ite {c : Prop} [Decidable c] {a b : Dev} (ha : Kept d₀ a) (hb : Kept d₀ b) : Kept d₀ (if c then a else b) := by
  split
  · exact ha
  · exact hb

theorem Kept.andSteady (h : Kept d₀ d) (k : Steady d e) : Kept d₀ e := h.trans k.toKept

theorem Kept.setClock {f : Clock → Clock} (h : Kept d₀ d) (ht : (f d.clk).tick < 16000)
    (hr : ∀ c, (f c).runTick = c.runTick := by intro; rfl) : Kept d₀ (d.mapClk f) :=
  h.trans ⟨hr _, fun _ => ht, id, id, id⟩

/-- What is done at another device time, from which the clock comes back. -/
theorem Steady.detour {f : Clock → Clock} (h : Steady d₀ d) (k : Kept (d.mapClk f) e)
    (hf : ∀ c, (f c).runTick = c.runTick := by intro; rfl) :
    Steady d₀ (e.mapClk fun c => { c with secs := d.clk.secs, tick := d.clk.tick }) :=
  h.trans ⟨⟨k.runTick.trans (hf _), id, k.mram, k.sram, k.jobs⟩, rfl, rfl⟩

theorem ofTicks_tick_lt (t : Nat) : (ofTicks t).2 < 16000 := Nat.mod_lt _ (by decide)

theorem Kept.applyStep {gaps} (h : Kept d₀ d) : Kept d₀ (d.applyStep gaps).2 := by
  unfold Dev.applyStep
  split
  · exact h
  · extract_lets q rest first t0 old
    split
    next secs₁ tick₁ heq =>
    extract_lets d₁ d₂ d₃
    have hrange : (secs₁, tick₁).2 < 16000 := heq ▸ ofTicks_tick_lt _
    have h₁ : Kept d₀ d₁ := h.setClock hrange
    have h₂ : Steady d₁ d₂ := by
      refine .ite ?_ (.refl d₁)
      split
      · exact (Steady.refl d₁).endTimeJob
      · exact .refl d₁
    have h₃ : Steady d₁ d₃ := .ite h₂.logNow (.ite h₂ h₂.walkSpan)
    exact h₁.andSteady (.iteSnd (.snd h₂) (.snd (h₃.forEach fun _ _ he => he.upIsle)))

theorem Kept.evalBoundary {interrupted} (h : Kept d₀ d) : Kept d₀ (d.evalBoundary interrupted) := by
  have hk : Kept d₀ (if interrupted = true then (false, d) else d.applyStep (d.resuming && !interrupted)).2 := by
    split
    · exact h
    · exact h.applyStep
  unfold Dev.evalBoundary
  extract_lets endS idle
  split
  next stepped d₁ heq =>
  rw [heq] at hk
  have hb : Steady d₁ (d₁.checkCals.boundaryOffsets interrupted).2 := (Steady.refl d₁).checkCals.boundaryOffsets
  split
  next offs d₂ heq₂ =>
  rw [heq₂] at hb
  extract_lets isles offShort d₃ loc d₄ manual secs tick d₅ d₆ d₇ d₈
  have h₃ : Steady d₁ d₃ := .ite (Steady.idleEnds hb) (.forEach hb fun _ _ he => he.markDemand.markProfile)
  have h₄ : Steady d₁ d₄ := .ite h₃.calendarCloses h₃
  have h₅ : Steady d₁ d₅ := .forEach h₄ fun _ _ he => he.recordClose
  have h₇ : Steady d₁ d₇ := h₅.mapLink.activations
  have h₈ : Steady d₁ d₈ := .ite (.forEach h₇ fun _ _ he => he.upIsle) h₇
  exact Kept.andSteady hk h₈.recordFrame

theorem Steady.closeAt {frame t interrupted events} (h : Steady d₀ d) : Steady d₀ (d.closeAt frame t interrupted events) := by
  unfold Dev.closeAt
  split
  next secs tick heq =>
  extract_lets now d₁ d₂ d₃ d₄
  have h₁ : Kept _ d₁ := (Kept.refl _).evalBoundary
  have h₄ : Steady d₁ d₄ := (Steady.refl d₁).latchViews.mapRun.runSlices
  exact (h.detour (h₁.andSteady h₄)).mapRun

theorem Steady.sleptBanks {frame metered} (h : Steady d₀ d) : Steady d₀ (d.sleptBanks frame metered) :=
  h.forEach fun _ _ he => he.joinAsleep.upBank

theorem Steady.sleptViews (h : Steady d₀ d) : Steady d₀ d.sleptViews :=
  h.frame rfl rfl rfl

theorem Steady.resumed (h : Steady d₀ d) : Steady d₀ d.resumed :=
  (h.forEach fun _ _ he => he.upStrait).mapImg.startCycle

theorem Steady.resumeWork (h : Steady d₀ d) : Steady d₀ d.resumeWork :=
  h.forEach fun _ _ he => he.upIsle

theorem Steady.resumeAsleep {frame t} (h : Steady d₀ d) : Steady d₀ (d.resumeAsleep frame t) := by
  unfold Dev.resumeAsleep
  split
  next secs tick heq =>
  extract_lets now d₁ d₂
  have h₁ : Kept _ ((d.mapClk fun c => { c with secs := secs, tick := tick }).evalBoundary false) := (Kept.refl _).evalBoundary
  have h₂ : Steady _ d₂ := (Steady.refl _).resumeWork.resumed.mapRun.runSlices
  exact h.detour (h₁.andSteady h₂)

theorem Steady.closeSlept {metered} (h : Steady d₀ d) : Steady d₀ (d.closeSlept metered) := by
  unfold Dev.closeSlept
  extract_lets d₁ first n start d₂
  have h₁ : Steady d₀ d₁ := .ite h.runSlices h
  have h₂ : Steady d₀ d₂ := .ite h₁ h₁.stepTwo
  refine .ite h₁.mapRun (.foldl h₂ fun e i he => .ite he.resumeAsleep (.closeAt (.ite ?_ ?_)))
  · exact he.sleptBanks.sleptViews.latchTemps.resumed
  · exact he.sleptBanks.sleptViews.latchTemps

theorem Steady.restartLanes (h : Steady d₀ d) : Steady d₀ d.restartLanes :=
  h.forEach fun _ _ he => he.laneChange

theorem Steady.dueSaves (h : Steady d₀ d) : Steady d₀ d.dueSaves := by
  unfold Dev.dueSaves
  exact h.mapStore

theorem Steady.retryGuarded (h : Steady d₀ d) : Steady d₀ d.retryGuarded :=
  ((h.when (·.mapTam.guarded)).when (·.guarded)).when (·.guarded)

theorem Steady.newParity (h : Steady d₀ d) : Steady d₀ d.newParity :=
  (h.forEach fun _ _ he => he.upLane).forEach fun _ _ he => he.upStrait

/-! ### The vault's jobs -/

theorem Steady.jobNeeds {j l} (h : Steady d₀ d) : Steady d₀ (d.jobNeeds j l) :=
  h.upJob

theorem Steady.jobGuarded {j w} (h : Steady d₀ d) : Steady d₀ (d.jobGuarded j w) :=
  h.upJob.guarded

theorem Steady.runSessions (h : Steady d₀ d) : Steady d₀ d.runSessions := by
  unfold Dev.runSessions
  extract_lets d₁
  have h₁ : Steady d₀ d₁ := by
    unfold d₁
    split
    · exact h.mapVault.logNow
    · exact h
  exact h₁.when (·.endSession.mapVault)

theorem Steady.startKeyInstall {j} (h : Steady d₀ d) : Steady d₀ (d.startKeyInstall j) := by
  unfold Dev.startKeyInstall
  dsimp only
  split
  · exact h.finish
  · exact .ite h.finish (.ite h.finish (.ite h.finish h.jobNeeds))

theorem Steady.checkedInstall {j} (h : Steady d₀ d) : Steady d₀ (d.checkedInstall j) := by
  unfold Dev.checkedInstall
  split
  · exact h.finish
  · exact h.jobGuarded

theorem Steady.startKeyRenew {j} (h : Steady d₀ d) : Steady d₀ (d.startKeyRenew j) := by
  unfold Dev.startKeyRenew
  dsimp only
  split
  · exact h.finish
  · exact .ite h.finish (.ite h.finish h.jobNeeds)

theorem Steady.keyWritten {j} (h : Steady d₀ d) : Steady d₀ (d.keyWritten j) := by
  refine .ite ?_ ?_
  · split
    · exact h.makeLive.queueChildren.logNow.finish
    · exact h.finish
  · split
    · exact h.makeLive.queueChildren.finish
    · exact h.finish

theorem Steady.startCrypto {j} (h : Steady d₀ d) : Steady d₀ (d.startCrypto j) := by
  refine .ite h.finish (.ite h.finish ?_)
  split
  · exact h.finish
  · exact .ite h.finish (.ite h.finish h.jobNeeds)

theorem Steady.doneCrypto {j} (h : Steady d₀ d) : Steady d₀ (d.doneCrypto j) := by
  unfold Dev.doneCrypto
  dsimp only
  refine .ite h.finish ?_
  split
  · exact h.drbg.finish
  · split <;> exact h.finish
  · exact h.finish
  · exact .ite h.finish h.finish
  · exact h.drbg.finish

theorem Steady.startAuthInstall {j} (h : Steady d₀ d) : Steady d₀ (d.startAuthInstall j) :=
  .ite h.finish (.ite (.ite h.finish (.ite h.finish h.jobGuarded)) (.ite h.finish (.ite h.finish (.ite h.finish (.ite h.finish
    h.jobNeeds)))))

theorem Steady.withAuthority {args} (h : Steady d₀ d) : Steady d₀ (d.withAuthority args) :=
  h.mapVault

theorem Steady.checkedAuth {j} (h : Steady d₀ d) : Steady d₀ (d.checkedAuth j) := by
  unfold Dev.checkedAuth
  split
  · exact h.finish
  · exact h.upJob.jobGuarded

theorem Steady.authWritten {j} (h : Steady d₀ d) : Steady d₀ (d.authWritten j) :=
  (h.withAuthority.logNow.when (·.mapImg)).finish

theorem Steady.startSigned {j ok} (h : Steady d₀ d) : Steady d₀ (d.startSigned j ok) := by
  refine .ite h.finish ?_
  split
  · exact h.finish
  · exact .ite h.finish h.jobGuarded

theorem Steady.startAttest {j} (h : Steady d₀ d) : Steady d₀ (d.startAttest j) :=
  h.startSigned

theorem Steady.startSignReading {j} (h : Steady d₀ d) : Steady d₀ (d.startSignReading j) :=
  h.startSigned

theorem Steady.counterWritten {j} (h : Steady d₀ d) : Steady d₀ (d.counterWritten j) :=
  h.mapVault.upJob

theorem Steady.captureStatements (h : Steady d₀ d) : Steady d₀ d.captureStatements :=
  .ite h (h.foldl fun _ _ he => he.upJob)

theorem Steady.doneSigned {j} (h : Steady d₀ d) : Steady d₀ (d.doneSigned j) :=
  .ite h.finish h.drbg.finish

theorem Steady.startRootRegenerate {j} (h : Steady d₀ d) : Steady d₀ (d.startRootRegenerate j) :=
  .ite h.finish (.ite h.finish h.jobNeeds)

theorem Steady.orphanSlots {ks} (h : Steady d₀ d) : Steady d₀ (d.orphanSlots ks) := by
  unfold Dev.orphanSlots
  dsimp only
  split
  · exact (h.forEach fun _ _ he => he.setSlotState).endOps.when (·.endSession)
  · exact (h.forEach fun _ _ he => he.setSlotState).endOps

theorem Steady.rootWritten {j} (h : Steady d₀ d) : Steady d₀ (d.rootWritten j) :=
  h.orphanSlots.makeRoot.finish

theorem Steady.resplitWritten (h : Steady d₀ d) : Steady d₀ d.resplitWritten := by
  unfold Dev.resplitWritten
  split
  · exact h.drbg.mapVault
  · exact h

/-! ### Tamper responses and monitor tests -/

theorem Steady.tamperScan (h : Steady d₀ d) : Steady d₀ d.tamperScan :=
  .ite h h.withdraw.file

theorem Steady.tamWipe {key} (h : Steady d₀ d) : Steady d₀ (d.tamWipe key) :=
  h.mapVault.logNow

theorem Steady.tamFreeze (h : Steady d₀ d) : Steady d₀ d.tamFreeze :=
  h.mapTam.logNow

theorem Steady.tamRelay {key} (h : Steady d₀ d) : Steady d₀ (d.tamRelay key) :=
  h.foldl fun _ _ he => he.placeHold

theorem Steady.tamDisplay {key} (h : Steady d₀ d) : Steady d₀ (d.tamDisplay key) :=
  h.upLedger.mapDsp.tamperScan

theorem Steady.tamPin {key} (h : Steady d₀ d) : Steady d₀ (d.tamPin key) :=
  h.upLedger

theorem Steady.tamHost {key} (h : Steady d₀ d) : Steady d₀ (d.tamHost key) :=
  h.notify.cause

theorem Steady.tamRespond {keys mask} (h : Steady d₀ d) : Steady d₀ (d.tamRespond keys mask) := by
  unfold Dev.tamRespond
  extract_lets with_ d₁ d₂ d₃ d₄ d₅ d₆
  have h₁ : Steady d₀ d₁ := h.foldl fun _ _ he => he.upLedger
  have h₂ : Steady d₀ d₂ := h₁.foldl fun _ _ he => he.tamWipe
  have h₃ : Steady d₀ d₃ := h₂.foldl fun _ _ he => he.tamFreeze
  have h₄ : Steady d₀ d₄ := h₃.foldl fun _ _ he => he.tamRelay
  have h₅ : Steady d₀ d₅ := h₄.foldl fun _ _ he => he.tamDisplay
  have h₆ : Steady d₀ d₆ := h₅.foldl fun _ _ he => he.tamPin
  exact h₆.foldl fun _ _ he => he.tamHost

theorem Steady.tamRelease (h : Steady d₀ d) : Steady d₀ d.tamRelease :=
  ((h.mapLink.foldl fun _ _ he => .upLedger (.ite he.mapDsp he)).when (·.mapTam.logNow)).foldl fun _ _ he => he.relayNow

theorem Steady.runTampers (h : Steady d₀ d) : Steady d₀ d.runTampers :=
  h.tamRelease.mapTam.tamRespond.tamRespond.tamRespond

theorem Steady.startEventRead {j} (h : Steady d₀ d) : Steady d₀ (d.startEventRead j) :=
  .ite h.finish h

theorem Steady.doneEventRead {j} (h : Steady d₀ d) : Steady d₀ (d.doneEventRead j) :=
  h.finish

theorem Steady.startMonitorTest {j} (h : Steady d₀ d) : Steady d₀ (d.startMonitorTest j) := by
  unfold Dev.startMonitorTest
  split
  · exact h.finish
  · exact .ite h.finish (.ite h.finish h.mapTam.upJob.file)

theorem Steady.beginTest (h : Steady d₀ d) : Steady d₀ d.beginTest := by
  unfold Dev.beginTest
  split
  · exact .ite h.mapTam.upLedger h
  · exact h

theorem Steady.endTest {k} (h : Steady d₀ d) : Steady d₀ (d.endTest k) := by
  unfold Dev.endTest
  dsimp only
  split
  · exact h.mapTam.upLedger.raiseAt.when (·.clearSrc)
  · exact h.mapTam.upLedger

theorem Steady.testFile (h : Steady d₀ d) : Steady d₀ d.testFile := by
  unfold Dev.testFile
  split
  · exact h.file
  · exact h

theorem Steady.abortTest {job} (h : Steady d₀ d) : Steady d₀ (d.abortTest job) := by
  unfold Dev.abortTest
  split
  · exact .ite h.withdraw.endTest h
  · exact h

/-! ### Power states -/

theorem Steady.drain (h : Steady d₀ d) : Steady d₀ d.drain := by
  unfold Dev.drain
  extract_lets d₁ d₂
  have h₁ : Steady d₀ d₁ := .foldl h fun _ _ he => .resolveTicks (.foldl he fun _ _ hk => hk.engineTick)
  have h₂ : Steady d₀ d₂ := h₁.settleTicks
  clear_value d₂
  exact h₂.frame rfl rfl rfl

theorem Steady.fallAsleep {m} (h : Steady d₀ d) : Steady d₀ (d.fallAsleep m) := by
  unfold Dev.fallAsleep
  exact ((h.drain.forEach fun _ _ he => he.upStrait).when (·.mapTam)).mapPwr

theorem Steady.gaspWritten (h : Steady d₀ d) : Steady d₀ d.gaspWritten :=
  h.verifyWork.putGasp

theorem Steady.rgComplete (h : Steady d₀ d) : Steady d₀ d.rgComplete := by
  unfold Dev.rgComplete
  dsimp only
  split
  · exact h
  · split
    · exact h.mapStore.giveBack.putVault.mapBak
    · refine .putVault ?_
      split
      · exact h.mapStore.giveBack.counterWritten
      · exact h.mapStore.giveBack.mapVault
    · exact h.mapStore.giveBack.resplitWritten.putVault
    · exact h.mapStore.giveBack.putSeal
    · exact .ite h.mapStore.giveBack.fallAsleep.gaspWritten h.mapStore.giveBack.gaspWritten
    · split
      · exact h.mapStore.giveBack.when (·.authWritten.putVault)
      · exact h.mapStore.giveBack
    · split
      · exact h.mapStore.giveBack.when fun hk => .ite hk.rootWritten.putVault hk.keyWritten.putVault
      · exact h.mapStore.giveBack

theorem Steady.rgEnds (h : Steady d₀ d) : Steady d₀ d.rgEnds := by
  unfold Dev.rgEnds
  split <;> exact .ite h.rgComplete h

theorem Steady.tornFlight (h : Steady d₀ d) : Steady d₀ d.tornFlight := by
  unfold Dev.tornFlight
  dsimp only
  split
  · exact h
  · split
    · exact (h.fresh.mapStore.foldl fun _ _ he => he.putWord).setSide
    · exact h.fresh.mapStore.foldl fun _ _ he => he.putWord

theorem Steady.cutStore (h : Steady d₀ d) : Steady d₀ d.cutStore := by
  unfold Dev.cutStore
  extract_lets d₁ d₂
  have h₁ : Steady d₀ d₁ := by
    unfold d₁
    split
    · exact h.cutSave
    · exact h
  have h₂ : Steady d₀ d₂ := h₁.mapStore
  clear_value d₂
  refine .ite h₂ ?_
  exact .ite (h₂.fresh.foldl fun _ _ he => he.putState).mapStore
    (h₂.fresh.unless fun hk => (hk.foldl fun _ _ he => he.putState).mapStore)

theorem Steady.cutConds (h : Steady d₀ d) : Steady d₀ d.cutConds :=
  .forEach h fun _ _ he => .foldl he fun _ _ he => by
    split
    · exact he.endCond
    · exact he

theorem Steady.sleptPart (h : Steady d₀ d) : Steady d₀ d.sleptPart :=
  h.forEach fun _ _ he => he.joinAsleep.upBank

theorem Steady.deferReport {key} (h : Steady d₀ d) : Steady d₀ (d.deferReport key) := by
  unfold Dev.deferReport
  split
  · exact .ite h.setKnot h
  · exact h

theorem Steady.latchTampers (h : Steady d₀ d) : Steady d₀ d.latchTampers := by
  unfold Dev.latchTampers
  exact ((h.mapTam.foldl fun _ _ he => he.deferReport).foldl fun _ _ he => he.tamPin).mapBak

theorem Steady.gaspChoice (h : Steady d₀ d) : Steady d₀ d.gaspChoice :=
  .ite h (.ite (.mapPwr (.mapDsp (h.cutStore.frame rfl rfl rfl))) h.cutStore.tornFlight.mapBak.mapPwr)

theorem Steady.holdSource {src cond} (h : Steady d₀ d) : Steady d₀ (d.holdSource src cond) :=
  .ite h.mapBak (.ite h.mapBak h)

theorem Steady.charger (h : Steady d₀ d) : Steady d₀ d.charger :=
  h.mapPwr

theorem Steady.afterSleep {metered} (h : Steady d₀ d) : Steady d₀ (d.afterSleep metered) := by
  unfold Dev.afterSleep
  exact ((h.closeSlept.when (·.retryGuarded.dueSaves)).when (·.newParity)).mapClk

theorem Steady.wakeUp (h : Steady d₀ d) : Steady d₀ d.wakeUp :=
  (h.afterSleep.sleptPart.restartLanes.when (·.restartPulses)).mapPwr.cause

/-! ### Sampled pads -/

theorem Steady.samplePins {low} (h : Steady d₀ d) : Steady d₀ (d.samplePins low) :=
  h.mapTam

theorem Steady.sampleScroll {low} (h : Steady d₀ d) : Steady d₀ (d.sampleScroll low) := by
  unfold Dev.sampleScroll
  exact h.mapDsp

theorem Steady.samplePads {low} (h : Steady d₀ d) : Steady d₀ (d.samplePads low) :=
  h.samplePins.sampleScroll

theorem Steady.samplePulses {low} (h : Steady d₀ d) : Steady d₀ (d.samplePulses low) :=
  h.forEach fun _ _ he => he.forEach fun _ _ he => he.upPort

theorem Steady.tamperWake (h : Steady d₀ d) : Steady d₀ d.tamperWake :=
  .ite h.wakeUp (.ite h.mapPwr h)

theorem Steady.pinChange {k} (h : Steady d₀ d) : Steady d₀ (d.pinChange k) :=
  h.tamperWake.mapTam

theorem Steady.sealCounted (h : Steady d₀ d) : Steady d₀ d.sealCounted :=
  .guarded (.setSrc (.ite h.mapTam.logNow h.logNow))

theorem Steady.dropLk (h : Steady d₀ d) : Steady d₀ d.dropLk :=
  .ite h h.mapLink

/-! ### The display -/

theorem Steady.sramPut {a l} (h : Steady d₀ d) : Steady d₀ (d.sramPut a l) :=
  h.write id fun k => memWrite_wf l a k

theorem Steady.setTarget {x y v} (h : Steady d₀ d) : Steady d₀ (d.setTarget x y v) :=
  h.sramPut

theorem Steady.setPixel {x y p} (h : Steady d₀ d) : Steady d₀ (d.setPixel x y p) :=
  h.sramPut

theorem Steady.setOwed {x y v} (h : Steady d₀ d) : Steady d₀ (d.setOwed x y v) :=
  .ite h h.sramPut

theorem Steady.activate {slot x y w height mode job} (h : Steady d₀ d) : Steady d₀ (d.activate slot x y w height mode job) :=
  .ite (h.mapDsp.foldl fun _ _ he => he.setOwed) h.mapDsp

theorem Steady.startUpdate {j} (h : Steady d₀ d) : Steady d₀ (d.startUpdate j) := by
  refine .ite h.finish (.ite h.finish ?_)
  split
  · exact h.finish
  · exact h.activate.upJob

theorem Steady.abortUpdate {job} (h : Steady d₀ d) : Steady d₀ (d.abortUpdate job) :=
  h.mapDsp.foldl fun _ _ he => he.foldl fun _ _ he => .ite he he.setOwed

theorem Steady.scanPixel {band x y} (h : Steady d₀ d) : Steady d₀ (d.scanPixel band x y).2 := by
  unfold Dev.scanPixel
  dsimp only
  split
  · exact h.setPixel
  · split
    · exact h
    · rw [apply_ite Prod.snd]
      exact .ite h.setOwed.setPixel h

theorem Steady.scanRow {band y bad} (h : Steady d₀ d) : Steady d₀ (d.scanRow band y bad).2.2 :=
  .foldlOn (fun x : List Nat × List Nat × Dev => x.2.2) h fun _ _ he => he.scanPixel

theorem Steady.scanTick (h : Steady d₀ d) : Steady d₀ d.scanTick := by
  unfold Dev.scanTick
  split
  · exact h
  · extract_lets k d₁
    have h₁ : Steady d₀ d₁ := h.mapDsp
    clear_value d₁
    split
    next bad d₂ heq =>
    have h₂ : Steady d₀ (bad, d₂).2 := by
      rw [← heq]
      exact .foldlOn Prod.snd (.snd h₁) fun _ _ he => .snd he.scanRow.mapDsp
    refine .ite (.mapDsp h₂) (.foldl (.mapDsp h₂) fun _ _ he => ?_)
    split
    · exact he.finish
    · exact he

theorem Steady.scanFile (h : Steady d₀ d) : Steady d₀ d.scanFile :=
  .ite h h.mapDsp.file

theorem Steady.scanSkip (h : Steady d₀ d) : Steady d₀ d.scanSkip :=
  .ite h.mapDsp h

theorem Steady.scanGrants {had} (h : Steady d₀ d) : Steady d₀ (d.scanGrants had) := by
  unfold Dev.scanGrants
  extract_lets now d₁
  have h₁ : Steady d₀ d₁ := by
    unfold d₁
    split
    · exact h.when (·.mapDsp)
    · exact h
  exact h₁.when (·.mapDsp)

theorem Steady.drawField {f} (h : Steady d₀ d) : Steady d₀ (d.drawField f).2 := by
  unfold Dev.drawField
  refine .foldlOn Prod.snd h fun _ _ he => ?_
  simp only [apply_ite Prod.snd]
  exact .ite he he.setTarget

theorem Steady.renderStrip (h : Steady d₀ d) : Steady d₀ d.renderStrip := by
  unfold Dev.renderStrip
  extract_lets fs
  have h₁ : Steady d₀ (fs.foldl (fun (acc : Bool × Dev) f => let (c, d) := acc.2.drawField f; (acc.1 || c, d)) (false, d)).2 :=
    .foldlOn Prod.snd h fun _ _ he => he.drawField
  exact .ite h₁.mapDsp.activate h₁.mapDsp

theorem Steady.showItem {list item} (h : Steady d₀ d) : Steady d₀ (d.showItem list item) :=
  h.mapDsp

theorem Steady.nextItem (h : Steady d₀ d) : Steady d₀ d.nextItem :=
  h.showItem

theorem Steady.pressNow (h : Steady d₀ d) : Steady d₀ d.pressNow :=
  h.mapDsp

theorem Steady.selectList {k} (h : Steady d₀ d) : Steady d₀ (d.selectList k) :=
  h.showItem.pressNow

theorem Steady.wrSram {l a data} (h : Steady d₀ d) : Steady d₀ (d.wrSram l a data) := by
  unfold Dev.wrSram
  refine h.transact fun _ _ he => ?_
  split
  · exact he
  · dsimp only
    split
    · exact he
    · exact .snd he.mapLink

theorem Steady.setUpDisplay (h : Steady d₀ d) : Steady d₀ d.setUpDisplay := by
  unfold Dev.setUpDisplay
  exact h.mapDsp.sramPut.sramPut.sramPut.renderStrip.mapDsp.activate

/-! ### Reads, status and writes over the link -/

theorem Steady.readGroup {a} (h : Steady d₀ d) : Steady d₀ (d.readGroup a).2 := by
  unfold Dev.readGroup
  dsimp only
  split
  · rw [apply_ite Prod.snd]
    exact .ite (Steady.snd h.putWord.mapStore) h
  · exact h.mapStore.tileFailed

theorem Steady.readTile {a n t} (h : Steady d₀ d) : Steady d₀ (d.readTile a n t).2 := by
  unfold Dev.readTile
  rw [apply_ite Prod.snd]
  exact .ite (.foldlOn Prod.snd h fun _ _ he => he.readGroup) h.verifyTile

theorem Steady.rdMram {a n} (h : Steady d₀ d) : Steady d₀ (d.rdMram a n).2.2 := by
  unfold Dev.rdMram
  split
  · exact h
  · exact .foldlOn Prod.snd h fun _ _ he => he.readTile

theorem Steady.rdSram {a n} (h : Steady d₀ d) : Steady d₀ (d.rdSram a n).2.2 := by
  unfold Dev.rdSram
  split
  · exact h
  · exact .foldlOn Prod.snd h fun _ _ he => he.verifySram

theorem Steady.rdBody {seen a n} (h : Steady d₀ d) : Steady d₀ (d.rdBody seen a n).2.2 := by
  unfold Dev.rdBody
  split_ifs
  · exact h
  · exact h.rdSram
  · exact h.rdMram
  · exact h

theorem Steady.statBody {job off len} (h : Steady d₀ d) : Steady d₀ (d.statBody job off len).2.2 := by
  unfold Dev.statBody
  split
  · exact h
  · dsimp only
    split
    · exact .ite (h.mapLink fun _ => List.length_filter_le ..) h
    · exact h

theorem Steady.wrView {l a data} (h : Steady d₀ d) : Steady d₀ (d.wrView l a data) := by
  unfold Dev.wrView
  refine h.transact fun _ _ he => ?_
  split
  · exact Steady.snd he.mapLink
  · exact he

theorem Steady.wr {l a data} (h : Steady d₀ d) : Steady d₀ (d.wr l a data) :=
  .ite h.wrRegs (.ite h.wrSram (.ite h.wrMram h.wrView))

theorem Steady.wrWord {l a v} (h : Steady d₀ d) : Steady d₀ (d.wrWord l a v) :=
  h.wr

/-! ### Power-up, steps 1 to 6 -/

theorem Steady.wipesWritten (h : Steady d₀ d) : Steady d₀ d.wipesWritten :=
  h.mapBak.mapStore.mapPwr

theorem Steady.bootWipes (h : Steady d₀ d) : Steady d₀ d.bootWipes :=
  (h.forEach fun _ _ he => he.invalidate).wipesWritten.unless (·.putVault)

theorem Steady.bootTrng {pass} (h : Steady d₀ d) : Steady d₀ (d.bootTrng pass) :=
  h.mapVault.unless (·.report)

theorem Steady.bootResplit (h : Steady d₀ d) : Steady d₀ d.bootResplit :=
  .ite h.mapVault (.ite h.resplitWritten.putVault h.mapStore.report.mapVault.report)

theorem Steady.bootExpire (h : Steady d₀ d) : Steady d₀ d.bootExpire :=
  (h.forEach fun _ _ he => .ite he.invalidate he).wipesWritten.unless (·.putVault)

theorem Steady.rootLost (h : Steady d₀ d) : Steady d₀ d.rootLost := by
  unfold Dev.rootLost
  exact h.logNow.setSlotState.orphanSlots.mapVault

theorem Steady.debugVault {fresh} (h : Steady d₀ d) : Steady d₀ (d.debugVault fresh) :=
  (h.when (·.logNow)).mapVault.setSlotState.deriveSlot.deriveSlot

theorem Steady.bootVault {p unlock} (h : Steady d₀ d) : Steady d₀ (d.bootVault p unlock) :=
  .ite h.bootTrng.debugVault (.ite (h.bootTrng.when (·.makeRoot.putVault)) (.ite h.bootTrng.rootLost
    h.bootTrng.mapVault.bootExpire.bootResplit))

theorem Steady.verifySlot {s consumer} (h : Steady d₀ d) : Steady d₀ (d.verifySlot s consumer) :=
  .ite (h.forEach fun _ _ he => he.verifyTile) h

theorem Steady.loadSlot {s} (h : Steady d₀ d) : Steady d₀ (d.loadSlot s) :=
  h.mapImg.foldl fun _ _ he => he.freeSplice

theorem Steady.loadRegs (h : Steady d₀ d) : Steady d₀ d.loadRegs := by
  unfold Dev.loadRegs
  extract_lets d₁
  have h₁ : Steady d₀ d₁ := h.setRegs
  clear_value d₁
  split
  · exact .ite (.mapImg (h₁.frame rfl rfl rfl)) h₁.writeCalib
  · exact h₁.writeCalib

theorem Steady.loadStandins (h : Steady d₀ d) : Steady d₀ d.loadStandins :=
  .foldl h fun _ _ he => by
    split
    · exact he.upLane.upLane
    · exact he.upLane

theorem Steady.bootImage (h : Steady d₀ d) : Steady d₀ d.bootImage := by
  unfold Dev.bootImage
  dsimp only
  split
  · exact h.verifySlot.verifySlot.mapImg
  · exact h.verifySlot.verifySlot.mapImg.mapImg.loadSlot.loadRegs.loadStandins

theorem Steady.linkUp (h : Steady d₀ d) : Steady d₀ d.linkUp :=
  h.mapLink

theorem Steady.numberHeld (h : Steady d₀ d) : Steady d₀ d.numberHeld :=
  h.mapEvt.foldl fun _ _ he => he.logRec.notify

theorem Steady.tellKnots (h : Steady d₀ d) : Steady d₀ d.tellKnots :=
  h.forEach fun _ _ he => he.notify

theorem Steady.holdPowerUp {lost root} (h : Steady d₀ d) : Steady d₀ (d.holdPowerUp lost root) := by
  unfold Dev.holdPowerUp
  exact h.mapEvt

theorem Steady.stopNoImage (h : Steady d₀ d) : Steady d₀ d.stopNoImage :=
  h.mapRun.numberHeld.tellKnots.logNow

/-! ### Power-up, steps 7 to 10 -/

theorem Steady.placeKnot {k} (h : Steady d₀ d) : Steady d₀ (d.placeKnot k) := by
  unfold Dev.placeKnot
  split
  · exact h.setKnot
  · exact h.takeKnot.setKnot.when (·.notify)

theorem Steady.takeSave {img bad kept} (h : Steady d₀ d) : Steady d₀ (d.takeSave img bad kept) :=
  .forEach (.mapStore (.mapLink (.mapClk (.forEach (h.frame rfl rfl rfl) fun _ _ he => he.upLane)))) fun _ _ he => he.placeKnot

theorem Steady.gaspTilesBad {n} (h : Steady d₀ d) : Steady d₀ (d.gaspTilesBad n) :=
  h.tileFailed.tileFailed

theorem Steady.saveTilesBad {p} (h : Steady d₀ d) : Steady d₀ (d.saveTilesBad p) :=
  ((h.when (·.tileFailed)).when (·.tileFailed)).when (·.tileFailed)

theorem Steady.restoreRun {p kept} (h : Steady d₀ d) : Steady d₀ (d.restoreRun p kept) := by
  unfold Dev.restoreRun
  extract_lets b gasp latch live d₁ d₂ lost d₃ out told d₄
  have h₂ : Steady d₀ d₂ := (h.when (·.mapRun.numberHeld)).saveTilesBad
  have h₃ : Steady d₀ d₃ := by
    unfold d₃
    clear_value d₂
    split
    · exact h₂.mapStore.logNow.when (·.logNow)
    · exact ((h₂.takeSave.forEach fun _ _ he => he.gaspTilesBad).mapStore).when (·.logNow)
  exact (h₃.unless fun hk => hk.logNow.forEach fun _ _ he => he.upIsle).mapBak

theorem Steady.outageHours {n a b} (h : Steady d₀ d) : Steady d₀ (d.outageHours n a b) :=
  h.upIsle.foldl fun _ _ he => he.putHour

theorem Steady.outageLeaks {n a b} (h : Steady d₀ d) : Steady d₀ (d.outageLeaks n a b) := by
  unfold Dev.outageLeaks
  exact .ite (h.upIsle.foldl fun _ _ he => he.judgeHour) h.upIsle

theorem Steady.outageBounds {a} (h : Steady d₀ d) : Steady d₀ (d.outageBounds a) :=
  .ite h (h.walkSpan.forEach fun _ _ he => .ite he.billingSlice.outageHours he.billingSlice.outageLeaks)

theorem Steady.closedUp (h : Steady d₀ d) : Steady d₀ d.closedUp := by
  unfold Dev.closedUp
  extract_lets d₁
  have h₁ : Steady d₀ d₁ := h.mapClk
  exact h₁.frame rfl rfl rfl

theorem Steady.cutFrame (h : Steady d₀ d) : Steady d₀ d.cutFrame := by
  unfold Dev.cutFrame
  exact h.rollMeans.temperaturesKept.mapRun.mapClk

theorem Steady.catchUp {saved kept from_} (h : Steady d₀ d) : Steady d₀ (d.catchUp saved kept from_) := by
  unfold Dev.catchUp
  extract_lets b d₁ d₂ start d₃
  have h₂ : Steady d₀ d₂ := .ite h (.closedUp (.closeAt (.cutFrame (.ite h.runSlices h))))
  refine .mapRun ?_
  unfold d₃
  clear d₃
  clear_value start
  split
  · exact .ite h₂.outageBounds h₂
  · exact h₂

theorem Steady.checkAttrs (h : Steady d₀ d) : Steady d₀ d.checkAttrs :=
  h.forEach fun _ _ he => .ite he he.upIsle

theorem Steady.raiseBudget (h : Steady d₀ d) : Steady d₀ d.raiseBudget :=
  .ite h.setReg.mapPwr h

theorem Steady.writeLive (h : Steady d₀ d) : Steady d₀ d.writeLive :=
  h.putLiveRecord

theorem Steady.reconcileKeys {oldLegal} (h : Steady d₀ d) : Steady d₀ (d.reconcileKeys oldLegal) :=
  ((h.forEach fun _ _ he => .ite (he.invalidate.when (·.upSlot)) he).when fun hk => hk.forEach fun _ _ he =>
    .ite he.deriveSlot he).forEach fun _ _ he => .ite he.deriveSlot he

theorem Steady.holdAlarms (h : Steady d₀ d) : Steady d₀ d.holdAlarms := by
  unfold Dev.holdAlarms
  exact ((h.foldl fun _ _ he => .ite he he.upLedger.logAt.mapTam).when fun hk => hk.foldl fun _ _ he =>
    .ite he he.clearSrc).mapTam.mapBak

theorem Steady.coldRelays (h : Steady d₀ d) : Steady d₀ d.coldRelays := by
  unfold Dev.coldRelays
  exact h.mapTam

theorem Steady.reconcileSeal (h : Steady d₀ d) : Steady d₀ d.reconcileSeal := by
  unfold Dev.reconcileSeal
  split
  · exact h.guarded
  · exact .ite h.sealCounted (.ite h.guarded h)

theorem Steady.pinSources (h : Steady d₀ d) : Steady d₀ d.pinSources :=
  h.setSrc.setSrc.setSrc.setSrc

theorem Steady.writePolicy (h : Steady d₀ d) : Steady d₀ d.writePolicy := by
  unfold Dev.writePolicy
  exact h.mapBak

theorem Steady.startRelays (h : Steady d₀ d) : Steady d₀ d.startRelays :=
  (h.forEach fun _ _ he => he.upPort).foldl fun _ _ he => he.relayUpdate

theorem Steady.nominalQcorr (h : Steady d₀ d) : Steady d₀ d.nominalQcorr :=
  h.forEach fun _ _ he => he.upStrait

theorem Steady.syncLeaks (h : Steady d₀ d) : Steady d₀ d.syncLeaks :=
  h.forEach fun _ _ he => he.syncLeak

theorem Steady.goLive {boot} (h : Steady d₀ d) : Steady d₀ (d.goLive boot) := by
  unfold Dev.goLive
  extract_lets oldLegal d₁ d₂ d₃ d₄ d₅ d₆ d₇ d₈ d₉ d₁₀
  have h₂ : Steady d₀ d₂ := h.checkAttrs.recordFrame.raiseBudget.recordFrame.writeLive.reconcileKeys
  have h₄ : Steady d₀ d₄ := h₂.mapStore.restartPulses
  have h₆ : Steady d₀ d₆ := h₄.spreadDues.holdAlarms.when (·.coldRelays)
  have h₇ : Steady d₀ d₇ := .ite h₆.reconcileSeal.pinSources h₄
  have h₈ : Steady d₀ d₈ := h₇.mapBak.writePolicy.startRelays
  have h₁₀ : Steady d₀ d₁₀ := h₈.setUpDisplay.mapImg.nominalQcorr.syncLeaks
  exact .ite h₁₀.mapPwr h₁₀.updSubscr

theorem Steady.loadRecords (h : Steady d₀ d) : Steady d₀ d.loadRecords := by
  unfold Dev.loadRecords
  extract_lets n d₁
  have h₁ : Steady d₀ d₁ := h.forEach fun _ _ he => he.readRecord.unless (·.mapStore)
  exact h₁.forEach fun _ _ he => .forEach (.ite he (he.readRecord.unless (·.upIsle))) fun _ _ hk => hk.readRecord.unless (·.upIsle)

theorem Steady.bringUp {p kept} (h : Steady d₀ d) : Steady d₀ (d.bringUp p kept) := by
  unfold Dev.bringUp
  exact h.loadRecords.restoreRun.catchUp.loadPartners.goLive

theorem Steady.abortJobs {op} (h : Steady d₀ d) : Steady d₀ (d.abortJobs op) :=
  h.foldl fun _ _ he => he.finish

theorem Steady.saveNow (h : Steady d₀ d) : Steady d₀ d.saveNow :=
  h.verifyWork.putSave

theorem Steady.clearRegion {code base size} (h : Steady d₀ d) : Steady d₀ (d.clearRegion code base size) := by
  unfold Dev.clearRegion
  extract_lets keep d₁ each d₂
  have h₁ : Steady d₀ d₁ := h.write (fun k => tabWf_filter _ k) id
  have heach : ∀ f, Steady d₀ (each d₁ f) := fun f => .forEach h₁ fun _ _ he => he.upIsle
  clear_value d₁
  refine .logNow ?_
  unfold d₂
  split
  · exact h₁.frame rfl rfl rfl
  · exact h₁.mapStore
  · exact heach _
  · exact heach _
  · exact heach _
  · exact h₁

theorem Steady.clearRegions {old} (h : Steady d₀ d) : Steady d₀ (d.clearRegions old) :=
  .forEach h fun _ _ he => by
    split
    · exact .ite he he.clearRegion
    · exact he.clearRegion
    · exact he

theorem Steady.startRetest (h : Steady d₀ d) : Steady d₀ d.startRetest :=
  .ite (h.frame rfl rfl rfl) h

theorem Steady.restartMetering {words entries} (h : Steady d₀ d) : Steady d₀ (d.restartMetering words entries) :=
  .startRetest (.forEach (h.frame rfl rfl rfl) fun _ _ he => he.laneChange)

theorem Steady.reloadVault {p} (h : Steady d₀ d) : Steady d₀ (d.reloadVault p) :=
  h.bootTrng.unless (·.bootResplit)

theorem Steady.testAccess {tck} (h : Steady d₀ d) : Steady d₀ (d.testAccess tck) :=
  .ite (h.frame rfl rfl rfl) (h.frame rfl rfl rfl)

/-! ### The parts of a tick boundary -/

theorem Steady.tickEnd {inp} (h : Steady d₀ d) : Steady d₀ (d.tickEnd inp) := by
  unfold Dev.tickEnd
  extract_lets d₁ d₂ d₃ d₄ d₅ d₆ d₇
  have h₂ : Steady d₀ d₂ := h.samplePads.samplePulses.portsFile.scanSkip.meterTick
  have h₄ : Steady d₀ d₄ := (h₂.when (·.checkTick)).fillCaps.scanTick
  have h₅ : Steady d₀ d₅ := h₄.when (·.rollMeans.latchTemps)
  have h₆ : Steady d₀ d₆ := h₅.forEach fun _ _ he => by
    split
    · exact he.upStrait
    · exact he
  exact .ite h₆.mapPwr.fallAsleep h₆.mapPwr.mapPwr

theorem Steady.plainWrite {w} (h : Steady d₀ d) : Steady d₀ (d.plainWrite w) := by
  unfold Dev.plainWrite
  split
  · exact .ite h.selectList h.setReg
  · exact .ite h.upIsle h.mapLink
  · exact h.sramPut

theorem Steady.stepOne (h : Steady d₀ d) : Steady d₀ d.stepOne :=
  h.mapLink.foldl fun _ _ he => he.plainWrite

theorem Steady.boundaryWork1 (h : Steady d₀ d) : Steady d₀ d.boundaryWork1 :=
  h.runSessions.runTampers.runInvalidations.runDerivations.closeSuspects

theorem Steady.loadCommitted {j} (h : Steady d₀ d) : Steady d₀ (d.loadCommitted j) :=
  .finish (.ite h.holdPassive h)

theorem Steady.journalEnds (h : Steady d₀ d) : Steady d₀ d.journalEnds := by
  unfold Dev.journalEnds
  have h₁ : Steady d₀ d.journalApplied.2 := h.journalApplied
  split
  next heq =>
    rw [heq] at h₁
    split
    · exact .ite h₁ (.ite h₁.loadCommitted (.ite (.finish (.ite h₁.freeSplice h₁)) (.ite h₁.pendSplice h₁.finish)))
    · exact h₁
  next heq =>
    rw [heq] at h₁
    exact h₁

theorem Steady.opsDone {j} (h : Steady d₀ d) : Steady d₀ (d.opsDone j) := by
  unfold Dev.opsDone
  split
  · exact h.checkedSplice
  · exact h.checkedInstall
  · exact h.jobGuarded
  · exact h.jobGuarded
  · exact h.verifySlot.checkedAuth
  · exact h

theorem Steady.opEnds {n} (h : Steady d₀ d) : Steady d₀ (d.opEnds n) := by
  unfold Dev.opEnds
  split
  · exact .ite (h.upJob.when (·.opsDone)) h
  · exact h

theorem Steady.grantsEnd (h : Steady d₀ d) : Steady d₀ d.grantsEnd :=
  .foldl h.rgEnds fun _ _ he => by
    split
    · exact he.saveDone
    · exact he.journalEnds
    · exact he.opEnds
    · exact he

theorem Steady.latchJob {j} (h : Steady d₀ d) : Steady d₀ (d.latchJob j) := by
  unfold Dev.latchJob
  split
  · exact h
  · exact (h.upJob.withdraw.cause.foldl fun _ _ he => he.spendSlot).when (·.mapImg)

theorem Steady.latchJobs (h : Steady d₀ d) : Steady d₀ d.latchJobs := by
  unfold Dev.latchJobs
  exact (h.foldl fun _ _ he => he.latchJob).mapLink

theorem Steady.abortGuarded {j} (h : Steady d₀ d) : Steady d₀ (d.abortGuarded j).2 := by
  unfold Dev.abortGuarded
  split
  · exact Steady.iteSnd h h.upJob
  · exact .ite h.mapStore.withdraw h.mapStore

theorem Steady.abortTxn {j} (h : Steady d₀ d) : Steady d₀ (d.abortTxn j).2 := by
  unfold Dev.abortTxn
  have h₁ : Steady d₀ (d.abortJournal j.num).2 := h.abortJournal
  split
  next heq => rw [heq] at h₁; exact .ite h₁.loadAborted h₁
  next heq => rw [heq] at h₁; exact Steady.upJob h₁

theorem Steady.abortPort {n} (h : Steady d₀ d) : Steady d₀ (d.abortPort n) :=
  h.forEach fun _ _ he => he.upPort

theorem Steady.abortWork {j} (h : Steady d₀ d) : Steady d₀ (d.abortWork j).2 := by
  unfold Dev.abortWork
  refine .iteSnd h (.iteSnd h.abortGuarded (.iteSnd (.snd h.mapClk) (.iteSnd (.snd h.abortStoreWrite) (.iteSnd (.snd h.abortSplice)
    (.iteSnd h.abortTxn (.iteSnd (.snd h.abortTest) (.iteSnd (.snd h.abortUpdate) (.iteSnd (.snd h.abortPort) h))))))))

theorem Steady.abortJob {n} (h : Steady d₀ d) : Steady d₀ (d.abortJob n) := by
  unfold Dev.abortJob
  split
  · exact h.mapLink
  · exact .ite h.mapLink (h.abortWork.when (·.latchJob)).mapLink

theorem Steady.stepThree (h : Steady d₀ d) : Steady d₀ d.stepThree :=
  h.latchJobs.mapLink.foldl fun _ _ he => he.abortJob

theorem Steady.startJob {j} (h : Steady d₀ d) : Steady d₀ (d.startJob j) := by
  unfold Dev.startJob
  split
  · exact h.upJob.startTimeSet
  · exact h.upJob.startCalLoad
  · exact h.upJob.startSignReading
  · exact h.upJob.startEventRead
  · exact h.upJob.startImageWrite
  · exact h.upJob.startImageLoad
  · exact h.upJob.startSplice
  · exact h.upJob.startStoreWrite
  · exact h.upJob.startDiscover
  · exact h.upJob.startPartnerRead
  · exact h.upJob.startMonitorTest
  · exact h.upJob.startKeyInstall
  · exact h.upJob.startKeyRenew
  · exact h.upJob.startCrypto
  · exact h.upJob.startAuthInstall
  · exact h.upJob.startAttest
  · exact h.upJob.startRootRegenerate
  · exact h.upJob.startUpdate
  · exact h.upJob

theorem Steady.stepFour (h : Steady d₀ d) : Steady d₀ d.stepFour :=
  h.foldl fun _ _ he => he.startJob

theorem Steady.granted (h : Steady d₀ d) : Steady d₀ d.granted :=
  .foldl h.excite.beginTest fun _ _ he => .ite (by
    split
    · exact .ite he.useSlot he
    · exact he) he

theorem Steady.stepArbiter (h : Steady d₀ d) : Steady d₀ d.stepArbiter :=
  h.portsFile.arbitrate.scanGrants.granted

theorem Steady.secureFile (h : Steady d₀ d) : Steady d₀ d.secureFile :=
  .foldl h fun _ _ he => by
    split
    · exact he.file
    · exact he

theorem Steady.tickStart (h : Steady d₀ d) : Steady d₀ d.tickStart := by
  unfold Dev.tickStart
  extract_lets d₁ d₂ d₃ d₄ d₅ d₆
  have h₂ : Steady d₀ d₂ := (h.when (·.settleTicks)).storeFile.rgFile.secureFile.testFile
  have h₄ : Steady d₀ d₄ := h₂.captureStatements.dropCopies.flushEvents.flushPartners.flushTamper
  exact h₄.mapStore.scanFile.runOrDoze.updSubscr.mapLink

theorem Steady.boundarySteps (h : Steady d₀ d) : Steady d₀ d.boundarySteps :=
  (h.stepOne.boundaryWork1.when (·.stepTwo)).grantsEnd.stepThree

theorem Steady.complete {j} (h : Steady d₀ d) : Steady d₀ (d.complete j) := by
  unfold Dev.complete
  refine .ite ?_ (.ite ?_ h)
  · split
    · exact h.doneStoreWrite.finish
    · exact h.profileResult.finish
    · exact h.doneEventRead
    · exact h
  · split
    · exact h.doneCrypto
    · exact h.doneSigned
    · exact h.doneSigned
    · exact h.verifySlot.doneImageLoad
    · exact h

/-! ### What evaluates a boundary, latches a power failure or starts the device again -/

theorem Kept.frameBoundary (h : Kept d₀ d) : Kept d₀ d.frameBoundary := by
  unfold Dev.frameBoundary
  extract_lets d₁ d₂ s k resume d₃ d₄ d₅ d₆ d₇ d₈
  have h₁ : Steady d d₁ := .ite (.refl d) (Steady.refl d).stepTwo
  have h₃ : Steady d d₃ := .ite h₁.mapClk.resumed h₁.mapClk
  have h₄ : Kept d₀ d₄ := .ite (h.andSteady h₃).evalBoundary (h.andSteady h₃)
  have h₆ : Steady d₄ d₆ := .mapRun (.ite (.refl _) (Steady.refl _).latchViews)
  have h₇ : Steady d₄ d₇ := .ite h₆.resumeWork.resumed h₆
  have h₈ : Steady d₄ d₈ := .ite h₇.reclose.serveLanes.visitFrame.testFrame h₇
  exact h₄.andSteady h₈.retryGuarded.dueSaves.newParity

theorem Kept.latchFail {next} (h : Kept d₀ d) : Kept d₀ (d.latchFail next) := by
  unfold Dev.latchFail
  extract_lets m on d₁ d₂ d₃ d₄ t d₅ d₆
  have h₁ : Kept d₀ d₁ := .ite h.frameBoundary h
  have h₂ : Steady d₁ d₂ := .ite (Steady.refl _).closeSlept.sleptPart (.refl _)
  have h₃ : Steady d₁ d₃ := .ite h₂ h₂.mapImg
  exact .ite h (h₁.andSteady h₃.cutConds.endSession.mapVault.mapRun.mapBak.mapPwr)

theorem Kept.reloadLive {s p} (h : Kept d₀ d) : Kept d₀ (d.reloadLive s p) := by
  unfold Dev.reloadLive
  extract_lets d₁ d₂ d₃ d₄ d₅ regions ports words entries d₆ d₇ d₈
  have h₁ : Kept d₀ d₁ := .ite h h.frameBoundary
  have h₂ : Steady d₁ d₂ := (Steady.refl d₁).drain.saveNow
  have h₃ : Steady d₁ d₃ := .ite h₂.runSlices h₂
  have h₄ : Steady d₁ d₄ := .foldl h₃ fun _ _ he => he.freeSplice.finish
  have h₆ : Steady d₁ d₆ := h₄.mapImg.abortJobs.reloadVault.loadSlot.loadRegs
  have h₇ : Steady d₁ d₇ := .forEach h₆ fun _ _ he => he.portEntry
  exact h₁.andSteady h₇.clearRegions.restartMetering.goLive.mapImg

theorem devInv_iff : devInv d = true ↔
    tabWf 0#8 d.store.mram = true ∧ tabWf 0#8 d.store.sram = true ∧ d.clk.tick < 16000 ∧ d.link.jobs.length ≤ 32 := by
  simp only [devInv, memWf, clockWf, jobsWf, Bool.and_eq_true, decide_eq_true_eq, and_assoc]

/-- Power-up starts from reset registers and an empty job table, its clock within a second. -/
theorem devInv_bootReset {p} (h : devInv d = true) : devInv (d.bootReset p) = true := by
  obtain ⟨hm, -, -, -⟩ := devInv_iff.mp h
  exact devInv_iff.mpr ⟨hm, rfl, ofTicks_tick_lt _, Nat.zero_le _⟩

theorem Steady.powerUp {p} : Steady (d.bootReset p) (d.powerUp p) := by
  unfold Dev.powerUp
  extract_lets kept debug unlock roots d₁ d₂ root d₃ d₄
  have h₁ : Steady (d.bootReset p) d₁ := (Steady.refl _).mapVault
  have h₂ : Steady (d.bootReset p) d₂ := h₁.bootWipes.replayJournal.loadTamper.loadSeal.readParams.loadVault.bootVault
  have h₄ : Steady (d.bootReset p) d₄ := h₂.bootImage.linkUp.holdPowerUp
  exact .ite h₄.bringUp h₄.stopNoImage

/-! ### The tick -/

/-- Device time one tick later, the seconds counted by the tick-of-second (R11). -/
structure Ticked (d₀ d : Dev) : Prop where
  runTick : d.clk.runTick = d₀.clk.runTick + 1
  within : d₀.clk.tick < 15999 → d.clk.tick = d₀.clk.tick + 1 ∧ d.clk.secs = d₀.clk.secs
  wraps : d₀.clk.tick = 15999 → d.clk.tick = 0 ∧ d.clk.secs = (d₀.clk.secs + 1) % 2 ^ 32
  range : d.clk.tick < 16000

theorem Ticked.advance (d : Dev) : Ticked d (d.mapClk Clock.advance) where
  runTick := rfl
  within ht := by
    have h : d.clk.tick + 1 < 16000 := by omega
    exact ⟨if_pos h, if_pos h⟩
  wraps ht := by
    have h : ¬ d.clk.tick + 1 < 16000 := by omega
    exact ⟨if_neg h, if_neg h⟩
  range := by
    change (if d.clk.tick + 1 < 16000 then d.clk.tick + 1 else 0) < 16000
    split <;> omega

/-- Work at the device time it finds, one tick, then work at the time that follows. -/
def OneTick (d₀ d : Dev) : Prop := ∃ e, Steady d₀ e ∧ Steady (e.mapClk Clock.advance) d

theorem OneTick.steady (h : OneTick d₀ d) (k : Steady d e) : OneTick d₀ e := by
  obtain ⟨x, before, after⟩ := h
  exact ⟨x, before, after.trans k⟩

theorem OneTick.of_steady (h : Steady d₀ d) : OneTick d₀ (d.mapClk Clock.advance) := ⟨d, h, .refl _⟩

theorem OneTick.ite {c : Prop} [Decidable c] {a b : Dev} (ha : OneTick d₀ a) (hb : OneTick d₀ b) :
    OneTick d₀ (if c then a else b) := by
  split
  · exact ha
  · exact hb

theorem OneTick.ticked (h : OneTick d₀ d) : Ticked d₀ d := by
  obtain ⟨e, before, after⟩ := h
  obtain ⟨run, within, wraps, range⟩ := Ticked.advance e
  rw [before.tick, before.secs, ← after.tick, ← after.secs] at within wraps
  exact ⟨by rw [after.runTick, run, before.runTick], within, wraps, after.range range⟩

theorem OneTick.tickRun (inp : TickInput) : OneTick d (d.tickRun inp) := by
  unfold Dev.tickRun
  extract_lets d₁
  have h₁ : OneTick d d₁ := (OneTick.of_steady (Steady.refl d).tickEnd).steady (Steady.refl _).boundarySteps
  clear_value d₁
  exact .ite h₁ (h₁.steady (Steady.refl d₁).stepArbiter.stepFour.tickStart)

theorem OneTick.tickAsleep (inp : TickInput) : OneTick d (d.tickAsleep inp) := by
  unfold Dev.tickAsleep
  extract_lets d₁ d₂ d₃
  have h₁ : Steady d d₁ := .ite (Steady.refl d).samplePads.samplePulses (.refl d)
  have h₂ : OneTick d d₂ := .of_steady h₁
  have h₃ : OneTick d d₃ := .ite (h₂.steady (Steady.refl d₂).mapPwr) h₂
  exact .ite (h₃.steady (Steady.refl d₃).wakeUp) h₃

theorem OneTick.failTick (inp : TickInput) : OneTick d (d.failTick inp) := by
  unfold Dev.failTick
  split
  · exact .of_steady (.refl d)
  · extract_lets now d₁ d₂ d₃
    have h₁ : Steady d d₁ := (Steady.refl d).mapPwr.latchTampers
    have h₂ : Steady d d₂ := .ite h₁.meterTick h₁
    have h₃ : Steady d d₃ := .ite h₂.mapBak h₂
    exact (OneTick.of_steady h₃).steady (Steady.refl _).rgEnds.gaspChoice

theorem OneTick.tick (inp : TickInput) : OneTick d (d.tick inp) := by
  unfold Dev.tick
  split
  · exact .tickRun inp
  · exact .tickRun inp
  · exact .tickAsleep inp
  · exact .tickAsleep inp
  · exact .failTick inp
  · exact .of_steady (.refl d)
  · exact .of_steady (.refl d)

theorem OneTick.tickBoundary (inp : TickInput) : OneTick d ((d.tick inp).testAccess inp.tck) :=
  (OneTick.tick inp).steady (Steady.refl _).testAccess

/-! ### The invariant and the commands -/

theorem Kept.devInv (h : Kept d₀ d) (k : devInv d₀ = true) : devInv d = true := by
  obtain ⟨hm, hs, ht, hj⟩ := devInv_iff.mp k
  exact devInv_iff.mpr ⟨h.mram hm, h.sram hs, h.range ht, h.jobs hj⟩

theorem OneTick.devInv (h : OneTick d₀ d) (k : devInv d₀ = true) : devInv d = true := by
  have ht := h.ticked.range
  obtain ⟨e, before, after⟩ := h
  obtain ⟨hm, hs, -, hj⟩ := devInv_iff.mp (before.toKept.devInv k)
  exact devInv_iff.mpr ⟨after.mram hm, after.sram hs, ht, after.jobs hj⟩

/-- What the queue and the invariant ask of a command: it answers when it names only units the device has, and the state it answers
with has the queue as it was and meets the invariant when the state before did. -/
structure Sound (c : Instr) (s : State) : Prop where
  answers : c.wf = true → ∃ t, exec c s = .next t
  keeps : ∀ t, exec c s = .next t → t.pending = s.pending ∧ (devInv s.dev = true → devInv t.dev = true)

variable {c : Instr} {s t : State}

theorem Sound.next (he : exec c s = .next t) (hp : t.pending = s.pending) (hi : devInv s.dev = true → devInv t.dev = true) :
    Sound c s where
  answers _ := ⟨t, he⟩
  keeps u hu := by
    cases he.symm.trans hu
    exact ⟨hp, hi⟩

theorem Sound.kept {f : Dev → Dev} (he : exec c s = .next (s.onDev f)) (hf : Kept s.dev (f s.dev)) : Sound c s :=
  .next he rfl hf.devInv

theorem Sound.steady {f : Dev → Dev} (he : exec c s = .next (s.onDev f)) (hf : Steady s.dev (f s.dev)) : Sound c s :=
  .kept he hf.toKept

theorem Sound.unit {ok : Bool} {u : String} {f : Dev → Dev} (he : exec c s = onUnit ok u s f) (hw : c.wf = true → ok = true)
    (hf : Steady s.dev (f s.dev)) : Sound c s where
  answers w := ⟨_, he.trans (onUnit_next (hw w))⟩
  keeps t ht := by
    obtain ⟨-, rfl⟩ := onUnit_eq_next (he.symm.trans ht)
    exact ⟨rfl, hf.toKept.devInv⟩

/-! ### Commands that match on what they find, or answer in one of several ways -/

/-- A request's body that answers in one of two ways. -/
theorem Steady.iteBody {α β : Type} {p : Prop} [Decidable p] {a b : α × β × Dev} (ha : Steady d₀ a.2.2) (hb : Steady d₀ b.2.2) :
    Steady d₀ (if p then a else b).2.2 := by
  split
  · exact ha
  · exact hb

/-- What a request's body leaves, beside what it answers. -/
theorem Steady.answer {α β : Type} {a : α} {b : β} (h : Steady d₀ d) : Steady d₀ (a, b, d).2.2 := h

theorem Sound.jobCompletion {job} : Sound (.jobCompletion job) s := by
  refine .steady rfl ?_
  split
  · exact .ite (Steady.refl _).complete (.refl _)
  · exact .refl _

theorem Sound.slewEnd : Sound .slewEnd s := by
  refine .steady rfl ?_
  split
  · exact .ite (Steady.refl _).mapClk.timeDone (.refl _)
  · exact .refl _

theorem Sound.trackingTimeout {u} : Sound (.trackingTimeout u) s := by
  refine .unit rfl id ?_
  split
  · exact .ite (Steady.refl _).unlock (.refl _)
  · exact .refl _

theorem Sound.windowAnalysis {u eng seq} : Sound (.windowAnalysis u eng seq) s := by
  refine .unit rfl Bool.and_elim_left ?_
  split
  · exact .ite (Steady.refl _).windowResults (.refl _)
  · exact .refl _

theorem Sound.monitorTestEnd {raised cleared} : Sound (.monitorTestEnd raised cleared) s := by
  refine .steady rfl ?_
  dsimp only
  split
  · exact .ite (Steady.refl _).upLedger.logAt.finish.endTest (.refl _)
  · exact .refl _

theorem Sound.sessionAuthTimeout : Sound .sessionAuthTimeout s := by
  refine .steady rfl ?_
  split
  · exact .ite (Steady.refl _).mapVault (.refl _)
  · exact .refl _

theorem Sound.sessionIdle : Sound .sessionIdle s := by
  refine .steady rfl ?_
  split
  · exact .ite (Steady.refl _).endSession (.refl _)
  · exact .refl _

theorem Sound.lastGasp : Sound .lastGasp s := by
  refine .steady rfl ?_
  dsimp only
  split
  · exact .ite (.mapPwr (.gaspWritten ((Steady.refl _).settleTicks.frame rfl rfl rfl))) (.refl _)
  · exact .refl _

theorem Sound.saveAbandon : Sound .saveAbandon s := by
  refine .steady rfl ?_
  dsimp only
  split
  · exact .ite (.withdraw (.mapStore (.ite (Steady.refl _).cutSave (.refl _)))) (.refl _)
  · exact .refl _

theorem Sound.journalTransaction : Sound .journalTransaction s := by
  refine .steady rfl ?_
  dsimp only
  split
  · exact .ite (Steady.refl _).mapStore.putJournal (.refl _)
  · exact .refl _

theorem Sound.reserveGuardedWrite {vres} : Sound (.reserveGuardedWrite vres) s := by
  refine .steady rfl ?_
  dsimp only
  split
  · exact .ite (.ite (Steady.refl _).mapStore.mapPwr (Steady.refl _).mapStore.mapPwr.report.rgRefused) (.refl _)
  · exact .refl _

theorem Sound.scrub {sram tile} : Sound (.scrub sram tile) s := by
  refine .unit rfl id (.ite (.refl _) (.ite (Steady.refl _).verifySram ?_))
  split
  · exact .refl _
  · exact .ite (.refl _) (.ite (Steady.refl _).verifyTile.scrubTwin (Steady.refl _).verifyTile)

theorem Sound.rspUd {p raw} : Sound (.rspUd p raw) s := by
  refine .unit rfl id ?_
  split
  · exact .ite (Steady.refl _).mbusAnswer (.refl _)
  · exact .refl _

theorem Sound.answerTimeout {p} : Sound (.answerTimeout p) s := by
  refine .unit rfl id ?_
  split
  · exact .ite (Steady.refl _).frameFailed (.refl _)
  · exact .refl _

theorem Sound.modbusResponse {p raw} : Sound (.modbusResponse p raw) s := by
  refine .unit rfl id ?_
  split
  · exact .ite (Steady.refl _).modbusIn (.refl _)
  · exact .refl _

theorem Sound.pulseAccepted {p k} : Sound (.pulseAccepted p k) s := by
  refine .unit rfl id (.ite (.refl _) ?_)
  extract_lets d
  have h : Steady s.dev d := (Steady.refl _).upPort
  clear_value d
  split
  · exact .ite h h.upNow
  · exact h

theorem Sound.backoffProbe {p} : Sound (.backoffProbe p) s := by
  refine .unit rfl id (.ite (.refl _) ?_)
  split
  · exact .ite (Steady.refl _).upPort (Steady.refl _).upPort.portFile
  · exact .refl _

theorem Sound.panelFrame : Sound .panelFrame s := by
  refine .steady rfl ?_
  split
  · exact .ite (Steady.refl _).mapDsp (.refl _)
  · exact .refl _

theorem Sound.rtdResult : Sound .rtdResult s := by
  refine .steady rfl (.ite ?_ (.refl _))
  extract_lets read d
  have done : Steady s.dev d := ((Steady.refl s.dev).forEach fun _ _ he => he.rtdResult).frame rfl rfl rfl
  exact done.forEach fun _ _ he => he.pairCodes

theorem Sound.offsetSet {l args} : Sound (.offsetSet l args) s :=
  .steady rfl (.exec (.refl _) fun _ _ he => .iteBody (.answer he.mapClk.saveTimeRec) he)

theorem Sound.wakeAt {l args} : Sound (.wakeAt l args) s :=
  .steady rfl (.exec (.refl _) fun _ _ he => .iteBody he (.answer he.mapPwr))

theorem Sound.calCancel {l args} : Sound (.calCancel l args) s :=
  .steady rfl (.exec (.refl _) fun _ _ he => .iteBody he (.answer he.holdPassive))

theorem Sound.calRead {l args} : Sound (.calRead l args) s :=
  .steady rfl (.exec (.refl _) fun _ _ he => .iteBody he he)

theorem Sound.capture {l args} : Sound (.capture l args) s :=
  .steady rfl (.exec (.refl _) fun _ _ he => .iteBody he (.iteBody (.answer he.trigger) he))

theorem Sound.captureRelease {l args} : Sound (.captureRelease l args) s :=
  .steady rfl (.exec (.refl _) fun _ _ he => .iteBody he (.iteBody he (.answer he.setCap)))

theorem Sound.partnerAdd {l args} : Sound (.partnerAdd l args) s := by
  refine .steady rfl (.exec (.refl _) fun _ _ he => .iteBody he (.iteBody he (.iteBody he (.iteBody he ?_))))
  split
  · exact he
  · exact he.setPartner.ptEnrol

theorem Sound.partnerEnrol {l args} : Sound (.partnerEnrol l args) s := by
  refine .steady rfl (.exec (.refl _) fun _ _ he => .iteBody he ?_)
  split
  · exact .iteBody (.answer he.ptEnrol) he
  · exact he.ptEnrol

theorem Sound.partnerRetire {l args} : Sound (.partnerRetire l args) s :=
  .steady rfl (.exec (.refl _) fun _ _ he => .iteBody he (.answer he.dropPolls.upPartner.ptState.ptWrite))

theorem Sound.partnerDelete {l args} : Sound (.partnerDelete l args) s :=
  .steady rfl (.exec (.refl _) fun _ _ he => .iteBody he (.iteBody he (.answer he.ptState.setPartner.forgetBound)))

theorem Sound.partnerBind {l args} : Sound (.partnerBind l args) s := by
  refine .steady rfl (.exec (.refl _) fun _ d he => .iteBody he (.iteBody (.answer he.upPartner.ptWrite) (.iteBody he ?_)))
  extract_lets d₁ d₂
  have h₁ : Steady s.dev d₁ := by
    unfold d₁
    split
    · exact .ite he he.upPartner.ptWrite
    · exact he
  have h₂ : Steady s.dev d₂ := h₁.upPartner.ptWrite
  exact .ite h₂ h₂.rebase.upIsle

theorem Sound.partnerSet {l args} : Sound (.partnerSet l args) s :=
  .steady rfl (.exec (.refl _) fun _ _ he => .iteBody he (.answer he.upPartner.ptWrite))

theorem Sound.relayHold {l args} : Sound (.relayHold l args) s :=
  .steady rfl (.exec (.refl _) fun _ _ he => .iteBody he (.answer he.relayLater))

theorem Sound.relayRelease {l args} : Sound (.relayRelease l args) s :=
  .steady rfl (.exec (.refl _) fun _ _ he => .iteBody he (.iteBody he (.answer he.relayLater)))

theorem Sound.tamperAck {l args} : Sound (.tamperAck l args) s := by
  refine .steady rfl (.exec (.refl _) fun _ _ he => ?_)
  split
  · exact he
  · exact .iteBody he (.answer he.mapLink)

theorem Sound.freezeRelease {l args} : Sound (.freezeRelease l args) s :=
  .steady rfl (.exec (.refl _) fun _ _ he => .iteBody he (.answer he.mapLink))

theorem Sound.sessionOpen {l args} : Sound (.sessionOpen l args) s := by
  refine .steady rfl (.exec (.refl _) fun _ _ he => .iteBody he (.iteBody he (.iteBody he ?_)))
  split
  · exact he
  · exact .iteBody he (.answer he.drbg.mapVault)

theorem Sound.sessionAuth {l args} : Sound (.sessionAuth l args) s := by
  refine .steady rfl (.exec (.refl _) fun _ d he => ?_)
  split
  · exact he
  · extract_lets d₁
    have h₁ : Steady s.dev d₁ := he.mapVault
    clear_value d₁
    refine .iteBody h₁ (.iteBody h₁ ?_)
    split
    · exact h₁
    · exact .iteBody (.answer h₁.useSlot.mapVault) (.answer h₁.mapVault.report)

theorem Sound.sessionClose {l args} : Sound (.sessionClose l args) s :=
  .steady rfl (.exec (.refl _) fun _ _ he => .iteBody (.answer he.mapVault) he)

theorem Sound.keyPublic {l args} : Sound (.keyPublic l args) s :=
  .steady rfl (.exec (.refl _) fun _ _ he => .iteBody he (.iteBody he (.iteBody he he)))

theorem Sound.keyInvalidate {l args} : Sound (.keyInvalidate l args) s := by
  refine .steady rfl (.exec (.refl _) fun _ _ he => ?_)
  extract_lets k
  split
  · exact he
  · exact .iteBody he (.answer he.mapVault)

/-! ### Commands that evaluate a boundary, set the clock or start the device again -/

theorem Sound.tickBoundary {inp} : Sound (.tickBoundary inp) s :=
  .next rfl rfl (OneTick.tickBoundary inp).devInv

/-- A command that starts the device again, or works on its boundary, where it is due. -/
theorem Sound.cond {p : Prop} [Decidable p] (he : exec c s = if p then .next { s with dev := d, seen := d } else .next s)
    (hi : devInv s.dev = true → devInv d = true) : Sound c s := by
  split at he
  · exact .next he rfl hi
  · exact .next he rfl id

theorem Sound.frameBoundary : Sound .frameBoundary s :=
  .cond rfl (Kept.ite (Steady.refl s.dev).mapClk.restartLanes.toKept (.frameBoundary (.refl _))).devInv

theorem Sound.powerFail : Sound .powerFail s :=
  .kept rfl (.ite (.latchFail (Steady.refl _).raiseSrc.toKept) (.refl _))

theorem Sound.resetN {ns} : Sound (.resetN ns) s :=
  .kept rfl (.ite (.latchFail (.refl _)) (.ite (.refl _) (.ite (.latchFail (Steady.refl _).fresh.toKept) (Steady.refl _).fresh.toKept)))

theorem Sound.debugUnlock {l args} : Sound (.debugUnlock l args) s := by
  refine .kept rfl (exec_induction .andSteady (.refl _) fun _ _ he => ?_)
  split
  · exact he.latchFail.andSteady (.answer (Steady.refl _).mapPwr)
  · exact he

theorem Sound.vbatLoss : Sound .vbatLoss s := by
  have lost : Steady s.dev { s.dev with bak := Backup.reset } := (Steady.refl s.dev).frame rfl rfl rfl
  exact .kept rfl (.ite ((lost.toKept.setClock (by change 0 < 16000; decide)).andSteady (Steady.refl _).mapPwr) (.refl _))

theorem Sound.powerUp {p} : Sound (.powerUp p) s :=
  .cond rfl fun h => Steady.powerUp.toKept.devInv (devInv_bootReset h)

theorem Sound.imageReload {p} : Sound (.imageReload p) s := by
  have he : exec (.imageReload p) s = execImageReload p s := rfl
  unfold execImageReload at he
  dsimp only at he
  split at he
  · refine .cond he (Kept.ite (.reloadLive (.refl _)) ?_).devInv
    exact (Steady.refl s.dev).reloadVault.loadSlot.loadRegs.loadStandins.bringUp.startRetest.toKept
  · exact .next he rfl id

theorem Sound.abort {l args} : Sound (.abort l args) s := by
  refine .steady rfl ?_
  have latched : Steady s.dev (s.dev.exec l 0x03 args (args.length == 2) false false fun _ d =>
      (.done, [], d.mapLink fun k => { k with aborts := k.aborts ++ [u16 args 0] })) :=
    (Steady.refl s.dev).exec fun _ _ he => .answer he.mapLink
  exact .ite latched.mapLink latched

theorem Sound.rd {l addr len} : Sound (.rd l addr len) s :=
  .steady rfl (.transact (.refl _) fun _ _ he => he.rdBody)

/-! ### Every command -/

/-- Every command is sound: what it does to the device is `Steady`, but for the tick, the loss of VBAT, the start from reset and
what evaluates a boundary. -/
theorem exec_sound (c : Instr) (s : State) : Sound c s := by
  have h := Steady.refl s.dev
  cases c with
  | tickBoundary => exact .tickBoundary
  | jobCompletion => exact .jobCompletion
  | frameBoundary => exact .frameBoundary
  | isleClose => exact .unit rfl id (.ite (.sliceDone (.closeIsle (.ite h.closeStraits.judgeDead h))) h)
  | demandSlice => exact .unit rfl id (.ite h.demandSlice.sliceDone h)
  | isleEventsSlice => exact .unit rfl id (.ite h.isleEvents.sliceDone h)
  | archipelagoEventsSlice => exact .steady rfl (.ite h.monitors.expireKnots.releaseNotices.sliceDone h)
  | profileSlice => exact .unit rfl id (.ite h.profileSlice.sliceDone h)
  | billingCloseSlice => exact .unit rfl id (.ite (h.billingSlice.sliceDone.when (·.mapRun)) h)
  | slewEnd => exact .slewEnd
  | zeroCrossing => exact .unit rfl Bool.and_elim_left (.ite h.crossed h)
  | trackingTimeout => exact .trackingTimeout
  | windowClose => exact .unit rfl id (.ite h h.setStrait)
  | windowAnalysis => exact .windowAnalysis
  | halfCycleRefresh => exact .unit rfl id (.ite h (.ite h.upStrait ((h.upStrait.unless (·.trigger)).foldl
      fun _ _ he => he.refreshCond)))
  | captureComplete => exact .unit rfl id (.ite h.setCap h)
  | laneStuck => exact .unit rfl id (.ite h (.ite (.ite h h.startEst.upLane) (.ite h h.failFerry)))
  | ferryVisitEnd => exact .steady rfl (.ite (h.frame rfl rfl rfl) h)
  | estimatedSpanEnd => exact .unit rfl id (.ite h.upLane h)
  | rtdRequest => exact .steady rfl (.ite h.file h)
  | rtdResult => exact .rtdResult
  | rd => exact .rd
  | stat => exact .steady rfl (h.transact fun _ _ he => he.statBody)
  | hcsNRise => exact .steady rfl (.ite h h.mapLink)
  | registerWrite => exact .steady rfl h.wr
  | shWrite => exact .steady rfl h.wr
  | lkWrite => exact .steady rfl h.wr
  | elmPhaseWrite => exact .unit rfl Bool.and_elim_right h.wrWord
  | isleDemandWrite => exact .unit rfl Bool.and_elim_right h.wrWord
  | isleAlarmWrite => exact .unit rfl Bool.and_elim_right h.wrWord
  | isleStickyClear => exact .unit rfl Bool.and_elim_right h.wrWord
  | hlCauseClear => exact .steady rfl h.wrWord
  | drawBudgetWrite => exact .steady rfl h.wrWord
  | powerCtlWrite => exact .steady rfl h.wrWord
  | saveMinWrite => exact .steady rfl h.wrWord
  | dspCtlWrite => exact .steady rfl h.wrWord
  | dspBandWrite => exact .steady rfl h.wrWord
  | portBaudWrite => exact .unit rfl Bool.and_elim_right h.wrWord
  | portPollWrite => exact .unit rfl Bool.and_elim_right h.wrWord
  | portEnableWrite => exact .unit rfl Bool.and_elim_right h.wrWord
  | mramWindowWrite => exact .steady rfl h.wrMram
  | sramWindowWrite => exact .steady rfl h.wrSram
  | displayRegionWrite => exact .steady rfl h.wrSram
  | commit => exact .steady rfl (h.exec fun _ _ he => .answer he.mapLink)
  | abandon => exact .steady rfl (h.exec fun _ _ he => .answer he.mapLink)
  | abort => exact .abort
  | saveNow => exact .steady rfl (h.exec fun _ _ he => .answer he.mapStore)
  | timeSet => exact .steady rfl h.execJob
  | offsetSet => exact .offsetSet
  | wakeAt => exact .wakeAt
  | wakeClear => exact .steady rfl (h.exec fun _ _ he => .answer he.mapPwr)
  | calLoad => exact .steady rfl h.execJob
  | calCancel => exact .calCancel
  | calRead => exact .calRead
  | closeNow => exact .steady rfl (h.exec fun _ _ he => .answer he.mapLink)
  | signReading => exact .steady rfl h.execJob
  | profileRead => exact .steady rfl h.execJob
  | eventRead => exact .steady rfl h.execJob
  | notifyRead => exact .steady rfl (h.exec fun _ _ he => he.takeNotices)
  | capture => exact .capture
  | captureRelease => exact .captureRelease
  | imageWrite => exact .steady rfl h.execJob
  | imageLoad => exact .steady rfl h.execJob
  | imageReload => exact .imageReload
  | splice => exact .steady rfl h.execJob
  | storeWrite => exact .steady rfl h.execJob
  | discover => exact .steady rfl h.execJob
  | partnerAdd => exact .partnerAdd
  | partnerEnrol => exact .partnerEnrol
  | partnerRetire => exact .partnerRetire
  | partnerDelete => exact .partnerDelete
  | partnerBind => exact .partnerBind
  | partnerSet => exact .partnerSet
  | partnerRead => exact .steady rfl h.execJob
  | relayHold => exact .relayHold
  | relayRelease => exact .relayRelease
  | monitorTest => exact .steady rfl h.execJob
  | monitorTestEnd => exact .monitorTestEnd
  | tamperAck => exact .tamperAck
  | freezeRelease => exact .freezeRelease
  | sessionOpen => exact .sessionOpen
  | sessionAuth => exact .sessionAuth
  | sessionAuthTimeout => exact .sessionAuthTimeout
  | sessionClose => exact .sessionClose
  | sessionIdle => exact .sessionIdle
  | keyPublic => exact .keyPublic
  | keyInstall => exact .steady rfl h.execJob
  | keyRenew => exact .steady rfl h.execJob
  | keyInvalidate => exact .keyInvalidate
  | crypto => exact .steady rfl h.execJob
  | authInstall => exact .steady rfl h.execJob
  | attest => exact .steady rfl h.execJob
  | rootRegenerate => exact .steady rfl h.execJob
  | debugUnlock => exact .debugUnlock
  | displayUpdate => exact .steady rfl h.execJob
  | powerFail => exact .powerFail
  | lastGasp => exact .lastGasp
  | holdEntry => exact .steady rfl (.ite h.mapBak.mapPwr h)
  | holdSample => exact .steady rfl (.ite h.holdSource.holdSource.holdSource.holdSource.holdSource h)
  | powerUp => exact .powerUp
  | coreReset => exact .steady rfl (.ite h.latchTampers.rgComplete.cutStore.tornFlight.mapBak.mapPwr h)
  | resetN => exact .resetN
  | vbatLoss => exact .vbatLoss
  | vdd5pChange => exact .steady rfl (h.mapPwr.charger.forEach fun _ _ he => he.upPort)
  | chargerThreshold => exact .steady rfl h.mapPwr.charger
  | statePicker => exact .steady rfl (.ite h (.ite (.ite h h.guarded) (.ite h.mapPwr h)))
  | wake => exact .steady rfl (.ite h.wakeUp h)
  | calendarWake => exact .steady rfl (.ite h.wakeUp (.ite (.cause (.mapPwr (.ite h.restartPulses h))) h))
  | hostWake => exact .steady rfl (.ite (.mapPwr (.ite h.wakeUp h)) h)
  | voltageCheck => exact .steady rfl (.ite h.afterSleep.mapPwr h)
  | periodicSave => exact .steady rfl (.ite h.verifyWork.mapStore.storeFile h)
  | saveAbandon => exact .saveAbandon
  | journalTransaction => exact .journalTransaction
  | reserveGuardedWrite => exact .reserveGuardedWrite
  | scrub => exact .scrub
  | pollDue => exact .unit rfl id (.ite h (.ite h.nextDue h.upPort.portFile))
  | busFrame => exact .unit rfl id h.busFrame
  | rspUd => exact .rspUd
  | answerTimeout => exact .answerTimeout
  | modbusResponse => exact .modbusResponse
  | modbusRequest => exact .unit rfl id (.ite h.upPort.portFile h)
  | optoRequest => exact .unit rfl id (.ite h.upPort.portFile h)
  | optoAcknowledgement => exact .unit rfl id (.ite (.ite h.upPort h.upPort) h)
  | optoTimeout => exact .unit rfl id (.ite h.upPort.withdraw h)
  | pulseAccepted => exact .pulseAccepted
  | relayMismatch => exact .unit rfl id (.ite h (h.upPort.reportKnot.unless (·.upPort.portFile)))
  | relayCoilRetry => exact .unit rfl id (.ite h.relayUpdate.portFile h)
  | backoffProbe => exact .backoffProbe
  | calsealN => exact .steady rfl (.ite h (h.pinChange.mapTam.dropLk.when (·.sealCounted)))
  | coverN => exact .steady rfl (.ite h h.pinChange.mapTam.setSrc)
  | tcoverN => exact .steady rfl (.ite h h.pinChange.mapTam.setSrc)
  | magN => exact .steady rfl (.ite h h.pinChange.mapTam.setSrc)
  | supplyGlitch => exact .unit rfl id (.ite h.tamperWake.raiseSrc h)
  | resplit => exact .steady rfl (.ite (.ite h.guarded h.mapVault) h)
  | maskRefresh => exact .steady rfl (.ite (h.forEach fun _ _ he => he.upSlot.mapVault) h)
  | trngFail => exact .unit rfl id h.mapVault.report
  | trngRetry => exact .steady rfl (.ite (.ite h.mapVault h.mapVault.report) h)
  | panelFrame => exact .panelFrame
  | pmicEnFall => exact .steady rfl (.ite h.mapDsp h)
  | stripRender => exact .steady rfl (.ite h.renderStrip h)
  | scrollN => exact .steady rfl (.ite h.nextItem.pressNow.mapDsp h)
  | scrollNHold => exact .steady rfl (.ite h.showItem.pressNow.mapDsp h)
  | scrollTimer => exact .steady rfl (.ite h.nextItem h)
  | listReturn => exact .steady rfl (.ite h.showItem h)
  | rtdStale => exact .unit rfl id (.ite h.upLane h)
  | pulseGlitch => exact .unit rfl id (.ite h h.upPort)
  | relayFeedback => exact .unit rfl id (.ite h.upPort h)
  | lineFault => exact .unit rfl id (.ite h.upPort h)
  | sessionFailLockoutEnd => exact .unit rfl id (.ite h.mapVault h)

/-! ## The obligations -/

/-- Settles O5: reset's memories and job table are empty, and its clock stands at the first tick of a second. -/
theorem resetMeetsDeviceInvariant : Obligations.ResetMeetsDeviceInvariant :=
  ⟨devInv_iff.mpr ⟨rfl, rfl, Nat.zero_lt_succ _, Nat.zero_le _⟩, rfl, rfl⟩

/-- Settles O2: every command is `Sound`. -/
theorem wellFormedCommandNeverStops : Obligations.WellFormedCommandNeverStops := by
  intro c s wf
  obtain ⟨t, ht⟩ := (exec_sound c s).answers wf
  exact ⟨t, ht, ((exec_sound c s).keeps t ht).1⟩

/-- Settles O7: the tick boundary is `OneTick` in every power state. -/
theorem tickBoundaryAdvancesTime : Obligations.TickBoundaryAdvancesTime := by
  intro inp s
  obtain ⟨run, within, wraps, -⟩ := (OneTick.tickBoundary (d := s.dev) inp).ticked
  exact ⟨_, rfl, rfl, run, within, wraps⟩

/-- Settles O4: on an empty queue nothing happens, and the command at the front is `Sound` on the state with the queue's rest. -/
theorem stepKeepsDeviceInvariant : Obligations.StepKeepsDeviceInvariant := by
  intro s t inv run
  unfold step at run
  split at run
  next =>
    cases run
    exact inv
  next c rest _ => exact ((exec_sound c _).keeps t run).2 inv

end Sys2Proof.Machine
end

section
/-! The reads of a tick, the job table and STAT (01_archipelago R23, R29). A command is tied to the device it leaves once, as a
function of the device alone; what an admitted request then leaves is what its access gives. -/

open Sys2Proof Sys2Proof.Machine Sys2Proof.Safety

namespace Sys2Proof.Machine

variable {c : Instr} {s t : State} {d e : Dev} {f : Dev → Dev}

/-! ### What a command answers with -/

theorem leaves_of_onDev (he : exec c s = .next (s.onDev f)) (hf : f s.dev = d) : leaves c s d := by
  subst hf
  exact he

theorem gives_of_onDev {p : Dev → Prop} (he : exec c s = .next (s.onDev f)) (hp : p (f s.dev)) : gives c s p :=
  ⟨_, he, rfl, hp⟩

theorem gives_of_leaves {p : Dev → Prop} (h : leaves c s d) (hp : p d) : gives c s p := ⟨_, h, rfl, hp⟩

/-- A command that is a function of the device alone leaves what reads return. -/
theorem seen_of_onDev (he : exec c s = .next (s.onDev f)) (h : exec c s = .next t) : t.seen = s.seen := by
  cases he.symm.trans h
  rfl

theorem seen_of_onUnit {ok : Bool} {u : String} (he : exec c s = onUnit ok u s f) (h : exec c s = .next t) :
    t.seen = s.seen := by
  obtain ⟨-, rfl⟩ := onUnit_eq_next (he.symm.trans h)
  rfl

/-- A command that gives reads a new device gives them the one it leaves, or does nothing. -/
theorem seen_of_cond {p : Prop} [Decidable p] (he : exec c s = if p then .next { s with dev := d, seen := d } else .next s)
    (h : exec c s = .next t) : t.seen = s.seen ∨ t.seen = t.dev := by
  rw [h] at he
  split at he
  · cases he
    exact .inr rfl
  · cases he
    exact .inl rfl

theorem seen_of_imageReload {p : PowerUpInput} (h : exec (.imageReload p) s = .next t) :
    t.seen = s.seen ∨ t.seen = t.dev := by
  have he : exec (.imageReload p) s = execImageReload p s := rfl
  unfold execImageReload at he
  dsimp only at he
  split at he
  · exact seen_of_cond he h
  · cases he.symm.trans h
    exact .inl rfl

/-- Settles O6: a command is a function of the device alone, but for the four that start a tick's reads anew. -/
theorem readsSeeTheTickStart : Obligations.ReadsSeeTheTickStart := by
  intro c s t h
  cases c with
  | tickBoundary i =>
    cases h
    exact .inr ⟨rfl, .inl ⟨i, rfl⟩⟩
  | frameBoundary => exact (seen_of_cond rfl h).imp_right fun hs => ⟨hs, .inr (.inl rfl)⟩
  | powerUp p => exact (seen_of_cond rfl h).imp_right fun hs => ⟨hs, .inr (.inr (.inl ⟨p, rfl⟩))⟩
  | imageReload p => exact (seen_of_imageReload h).imp_right fun hs => ⟨hs, .inr (.inr (.inr ⟨p, rfl⟩))⟩
  | isleClose | demandSlice | isleEventsSlice | profileSlice | billingCloseSlice | zeroCrossing | trackingTimeout | windowClose
  | windowAnalysis | halfCycleRefresh | captureComplete | laneStuck | estimatedSpanEnd | elmPhaseWrite | isleDemandWrite
  | isleAlarmWrite | isleStickyClear | portBaudWrite | portPollWrite | portEnableWrite | scrub | pollDue | busFrame | rspUd
  | answerTimeout | modbusResponse | modbusRequest | optoRequest | optoAcknowledgement | optoTimeout | pulseAccepted
  | relayMismatch | relayCoilRetry | backoffProbe | supplyGlitch | trngFail | rtdStale | pulseGlitch | relayFeedback | lineFault
  | sessionFailLockoutEnd => exact .inl (seen_of_onUnit rfl h)
  | _ => exact .inl (seen_of_onDev rfl h)

/-! ### The host link: what an admitted request leaves -/

/-- Admission renews the session and nothing else. -/
theorem eq_of_admitted {l : Link} {op a len : Nat} {p : List Byte} {x : Bool} (h : admitted d l op a len p = some (x, e)) :
    ∃ v, e = { d with vault := v } := by
  unfold admitted at h
  dsimp only at h
  split_ifs at h
  · split at h
    · cases h
    · split_ifs at h
      cases h
      exact ⟨_, rfl⟩
  · cases h
    exact ⟨_, rfl⟩

theorem admitted_of_admitCmd {l : Link} {op : Nat} {args : List Byte} {h n x : Bool}
    (ha : admitCmd d l op args h n = some (x, e)) :
    admitted d l 2 0x30000000 (execPayload op args).length (execPayload op args) = some (x, e) := by
  unfold admitCmd at ha
  split at ha
  next heq =>
    split_ifs at ha
    cases ha
    exact heq
  next => cases ha

/-! ### Job numbers (R29) -/

/-- The number after a job number, from 1 again after 65,535. -/
def jobAfter (n : Nat) : Nat := if n < 65535 then n + 1 else 1

theorem nextJob_zero (held : List Nat) (last : Nat) : nextJob held 0 last = jobAfter last := rfl

theorem nextJob_succ (held : List Nat) (f last : Nat) :
    nextJob held (f + 1) last = if jobAfter last ∈ held then nextJob held f (jobAfter last) else jobAfter last := rfl

theorem jobAfter_range (n : Nat) : 1 ≤ jobAfter n ∧ jobAfter n ≤ 65535 := by
  unfold jobAfter
  split <;> omega

theorem jobAfter_of_le {n : Nat} (h : n ≤ 65535) : jobAfter n = n % 65535 + 1 := by
  unfold jobAfter
  split <;> omega

theorem nextJob_range (held : List Nat) (f last : Nat) : 1 ≤ nextJob held f last ∧ nextJob held f last ≤ 65535 := by
  induction f generalizing last with
  | zero => exact jobAfter_range last
  | succ f ih =>
    rw [nextJob_succ]
    split
    · exact ih _
    · exact jobAfter_range last

/-- The numbers in sequence go round 1 to 65,535. -/
theorem iterate_jobAfter (last k : Nat) : jobAfter^[k + 1] last = (jobAfter last - 1 + k) % 65535 + 1 := by
  have hr := jobAfter_range last
  induction k with
  | zero =>
    rw [zero_add, Function.iterate_one]
    omega
  | succ k ih =>
    rw [Function.iterate_succ_apply', ih, jobAfter_of_le (by omega)]
    omega

/-- A held number is given only when every number tried before is held as well. -/
theorem iterate_jobAfter_mem {held : List Nat} {f last : Nat} (h : nextJob held f last ∈ held) :
    ∀ k < f, jobAfter^[k + 1] last ∈ held := by
  induction f generalizing last with
  | zero => intro k hk; omega
  | succ f ih =>
    rw [nextJob_succ] at h
    split at h
    next hm =>
      rintro (_ | k) hk
      · exact hm
      · exact ih h k (by omega)
    next hm => exact absurd h hm

/-- Of `f` numbers in sequence one is free while fewer are held. -/
theorem nextJob_not_mem {held : List Nat} {f : Nat} (last : Nat) (hh : held.length < f) (hf : f ≤ 65535) :
    nextJob held f last ∉ held := by
  intro hm
  have distinct : ((List.range f).map fun k => jobAfter^[k + 1] last).Nodup := by
    refine List.nodup_range.map_on fun i hi j hj hij => ?_
    rw [List.mem_range] at hi hj
    rw [iterate_jobAfter, iterate_jobAfter] at hij
    omega
  have sub : ((List.range f).map fun k => jobAfter^[k + 1] last) ⊆ held := by
    intro n hn
    obtain ⟨k, hk, rfl⟩ := List.mem_map.mp hn
    exact iterate_jobAfter_mem hm k (List.mem_range.mp hk)
  have := (List.subperm_of_subset distinct sub).length_le
  rw [List.length_map, List.length_range] at this
  omega

theorem acceptJob_of_full {op role : Nat} {args : List Byte} (h : 32 ≤ d.link.jobs.length) :
    d.acceptJob op args role = (.busy, [], d) := if_pos h

/-- Each job command is one EXEC that starts a job. -/
theorem exec_of_jobCommand {l : Link} {op : Nat} {args : List Byte} {ok h n : Bool} (hc : c ∈ jobCommands l args)
    (hm : mailbox c = some (l, op, args, ok, h, n)) (s : State) :
    exec c s = .next (s.onDev fun d => d.execJob l op args ok h n) := by
  simp only [jobCommands, List.mem_cons, List.not_mem_nil, or_false] at hc
  rcases hc with rfl | rfl | rfl | rfl | rfl | rfl | rfl | rfl | rfl | rfl | rfl | rfl | rfl | rfl | rfl | rfl | rfl | rfl | rfl
  all_goals
    cases hm
    rfl

/-- Settles O16: `nextJob` tries 33 numbers, and at most 31 of them are held. -/
theorem jobIsAcceptedWithFreeNumber : Obligations.JobIsAcceptedWithFreeNumber := by
  intro c s l op args h n x e hc hm ha
  have accepted := leaves_of_onDev (exec_of_jobCommand hc hm s) (execJob_of_admitCmd ha)
  refine ⟨fun full => ?_, fun room => ?_⟩
  · rwa [acceptJob_of_full full] at accepted
  · have hr := nextJob_range (e.link.jobs.map (·.num)) 33 e.link.lastJob
    have free := nextJob_not_mem (held := e.link.jobs.map (·.num)) (f := 33) e.link.lastJob (by rw [List.length_map]; omega) (by omega)
    refine ⟨_, hr.1, hr.2, fun j hj hn => free (hn ▸ List.mem_map_of_mem hj), ?_⟩
    unfold Dev.acceptJob at accepted
    rwa [if_neg (by omega)] at accepted

/-! ### STAT (R380) -/

theorem statBody_of_none {job off len : Nat} (h : d.findJob job = none) : d.statBody job off len = (.range, [], d) := by
  unfold Dev.statBody
  rw [h]

theorem statBody_of_some {job off len : Nat} {j : Job} (h : d.findJob job = some j) :
    d.statBody job off len = if j.phase = .finished then
      (j.status, statPayload j off len, if j.result.length ≤ off + len then
        d.mapLink (fun k => { k with jobs := k.jobs.filter (fun x => x.num != job) }) else d)
      else (.busy, statPayload j off len, d) := by
  unfold Dev.statBody
  rw [h]

/-- An admitted STAT at a word's offset answers what its access gives. -/
theorem stat_leaves {l : Link} {job off len : Nat} {x : Bool} (ha : admitted s.dev l 3 (65536 * off + job) len [] = some (x, e))
    (ho : off % 4 = 0) (hl : len ≤ 4080) {st : Status} {p : List Byte} (hb : e.statBody job off len = (st, p, d)) :
    leaves (.stat l job off len) s (d.respond (linkCmd l 3) st p) := by
  refine leaves_of_onDev rfl ?_
  rw [show (off % 4 == 0 && decide (len ≤ 4080)) = true by simp [ho, hl], transact_of_admit ha, if_pos rfl, hb]

/-- Settles O19, by the cases of a STAT's access. -/
theorem statReportsTheJob : Obligations.StatReportsTheJob := by
  refine ⟨fun s => ⟨rfl, rfl⟩, fun s l job off len x e ha ho hl => ⟨fun none => ?_, fun j found => ⟨?_, ?_, ?_⟩⟩⟩
  · exact stat_leaves ha ho hl (statBody_of_none none)
  · intro running
    exact stat_leaves ha ho hl ((statBody_of_some found).trans (if_neg running))
  · intro finished more
    refine stat_leaves ha ho hl ((statBody_of_some found).trans ?_)
    rw [if_pos finished, if_neg (by omega)]
  · intro finished last
    refine stat_leaves ha ho hl ((statBody_of_some found).trans ?_)
    rw [if_pos finished, if_pos last]
    rfl

end Sys2Proof.Machine
end

section
/-! Register writes and the shadow set (01_archipelago R24, R30, 15_host_link R376, R377). A word of a table put in its place is read
back by the two rules of `tabEntry`; the shadow set and the frozen set are both made of it. -/

open Sys2Proof Sys2Proof.Machine Sys2Proof.Safety

namespace Sys2Proof.Machine

variable {c : Instr} {s : State} {d e : Dev} {α : Type}

/-! ### Tables with an entry in its place -/

theorem tabFind_append (k : Nat) (t u : Tab α) : tabFind k (t ++ u) = (tabFind k t).or (tabFind k u) := by
  induction t with
  | nil => rfl
  | cons y t ih =>
    obtain ⟨j, v⟩ := y
    simp only [List.cons_append, tabFind]
    split
    · rfl
    · exact ih

theorem tabFind_filter_of_pos {p : Nat × α → Bool} {k : Nat} (h : ∀ v, p (k, v) = true) (t : Tab α) :
    tabFind k (t.filter p) = tabFind k t := by
  induction t with
  | nil => rfl
  | cons y t ih =>
    obtain ⟨j, v⟩ := y
    by_cases hj : j = k
    · subst hj
      simp [h, tabFind]
    · by_cases hp : p (j, v) = true <;> simp [hp, hj, tabFind, ih]

theorem mem_of_tabFind {k : Nat} {v : α} {t : Tab α} (h : tabFind k t = some v) : (k, v) ∈ t := by
  induction t with
  | nil => cases h
  | cons y t ih =>
    obtain ⟨j, w⟩ := y
    unfold tabFind at h
    split at h
    next hj =>
      cases h
      simp [hj]
    next => exact List.mem_cons_of_mem _ (ih h)

theorem tabFind_eq_none_of_not_mem {k : Nat} {t : Tab α} (h : ∀ v, (k, v) ∉ t) : tabFind k t = none :=
  Option.eq_none_iff_forall_ne_some.mpr fun v hv => h v (mem_of_tabFind hv)

theorem tabFind_ne_none_of_mem {k : Nat} {v : α} {t : Tab α} (h : (k, v) ∈ t) : tabFind k t ≠ none := by
  induction t with
  | nil => cases h
  | cons y t ih =>
    unfold tabFind
    split
    · exact Option.some_ne_none _
    next hj =>
      rcases List.mem_cons.mp h with rfl | ht
      · exact absurd rfl hj
      · exact ih ht

/-- The one value listed at a key is found there. -/
theorem tabFind_of_unique {k : Nat} {v : α} {t : Tab α} (h : (k, v) ∈ t) (hu : ∀ w, (k, w) ∈ t → w = v) : tabFind k t = some v := by
  obtain ⟨w, hw⟩ := Option.ne_none_iff_exists'.mp (tabFind_ne_none_of_mem h)
  rw [hw, hu w (mem_of_tabFind hw)]

/-- A table with an entry put between the smaller keys and the greater ones, in place of what stood at its key. -/
def tabEntry (y : Nat × α) (t : Tab α) : Tab α :=
  t.filter (fun x => decide (x.1 < y.1)) ++ y :: t.filter (fun x => decide (y.1 < x.1))

theorem tabFind_tabEntry_self (k : Nat) (v : α) (t : Tab α) : tabFind k (tabEntry (k, v) t) = some v := by
  have below : tabFind k (t.filter fun x => decide (x.1 < k)) = none := tabFind_eq_none_of_not_mem fun w hw => by
    simp at hw
  simp [tabEntry, tabFind_append, below, tabFind]

theorem tabFind_tabEntry_of_ne {k j : Nat} (h : j ≠ k) (v : α) (t : Tab α) : tabFind j (tabEntry (k, v) t) = tabFind j t := by
  rw [tabEntry, tabFind_append, tabFind, if_neg h.symm]
  rcases Nat.lt_or_gt_of_ne h with lt | gt
  · have above : tabFind j (t.filter fun x => decide (k < x.1)) = none := tabFind_eq_none_of_not_mem fun w hw => by
      simp at hw
      omega
    rw [above, Option.or_none, tabFind_filter_of_pos (by simp [lt])]
  · have below : tabFind j (t.filter fun x => decide (x.1 < k)) = none := tabFind_eq_none_of_not_mem fun w hw => by
      simp at hw
      omega
    rw [below, Option.none_or, tabFind_filter_of_pos (by simp [gt])]

theorem overlay_cons (base : Tab Word) (y : Nat × Word) (top : Tab Word) :
    overlay base (y :: top) = overlay (tabEntry y base) top := rfl

/-- Of the values put over a table the last one wins. -/
theorem tabFind_overlay (k : Nat) (base top : Tab Word) :
    tabFind k (overlay base top) = (tabFind k top.reverse).or (tabFind k base) := by
  induction top generalizing base with
  | nil => rfl
  | cons y top ih =>
    obtain ⟨j, v⟩ := y
    rw [overlay_cons, ih, List.reverse_cons, tabFind_append, Option.or_assoc]
    by_cases hj : k = j
    · subst hj
      simp [tabFind_tabEntry_self, tabFind]
    · have hj' : ¬ j = k := Ne.symm hj
      simp [tabFind_tabEntry_of_ne hj, tabFind, hj']

/-! ### Writes of one word (R376, R377) -/

theorem leVal_leBytes_word (v : Word) : leVal (leBytes 4 v.toNat) = v.toNat := by
  have := v.isLt
  simp [leBytes, leVal, byteOf]
  omega

theorem wordsOf_leBytes_word (v : Word) : wordsOf (leBytes 4 v.toNat) = [v.toNat] :=
  congrArg (fun n => [n]) (leVal_leBytes_word v)

theorem wordOf_toNat (v : Word) : wordOf v.toNat = v := by
  simp [wordOf]

theorem spanInMap_of_mem {a n lo hi : Nat} (h : (lo, hi) ∈ spans) (ha : lo ≤ a) (hn : a + (n - 1) ≤ hi) : spanInMap a n = true := by
  unfold spanInMap
  exact Bool.or_eq_true_iff.mpr (.inr (List.any_eq_true.mpr ⟨(lo, hi), h, decide_eq_true ⟨ha, hn⟩⟩))

/-- The spans of element, isle and port registers. -/
theorem spanInMap_unitRegs {a : Nat}
    (h : 0x10000 ≤ a ∧ a + 3 ≤ 0x117FF ∨ 0x20000 ≤ a ∧ a + 3 ≤ 0x20FFF ∨ 0x30000 ≤ a ∧ a + 3 ≤ 0x307FF) :
    spanInMap a 4 = true := by
  rcases h with h | h | h
  · exact spanInMap_of_mem (lo := 0x10000) (by decide) h.1 h.2
  · exact spanInMap_of_mem (lo := 0x20000) (by decide) h.1 h.2
  · exact spanInMap_of_mem (lo := 0x30000) (by decide) h.1 h.2

/-- The single-word commands of register space name an aligned word of the map. -/
theorem wordWrite_addr {l : Link} {a : Nat} {v : Word} (hc : wordWrite c = some (l, a, v)) (ha : a < 0x40000) :
    a % 4 = 0 ∧ spanInMap a 4 = true := by
  cases c with
  | hlCauseClear | drawBudgetWrite | powerCtlWrite | saveMinWrite | dspCtlWrite | dspBandWrite =>
    cases hc
    decide
  | elmPhaseWrite | isleDemandWrite | isleAlarmWrite | portBaudWrite | portPollWrite | portEnableWrite =>
    obtain ⟨hn, hc⟩ := Option.ite_none_right_eq_some.mp hc
    cases hc
    exact ⟨by omega, spanInMap_unitRegs (by omega)⟩
  | isleStickyClear =>
    obtain ⟨-, hc⟩ := Option.ite_none_right_eq_some.mp hc
    cases hc
    unfold stickyAddr at ha
    omega
  | _ => cases hc

theorem writeRegs_word {x : Bool} {a n : Nat} (h : d.wordRefusal x a n = none) :
    d.writeRegs x a [n] = (.done, [], d.acceptWord a n) := by
  simp [Dev.writeRegs, h]

/-- An admitted write of one register word that no rule refuses is accepted. -/
theorem wordWrite_leaves {l : Link} {a : Nat} {v : Word} {x : Bool} (hc : wordWrite c = some (l, a, v)) (ha : a < 0x40000)
    (had : admitted s.dev l 1 a 4 (leBytes 4 v.toNat) = some (x, e)) (hr : e.wordRefusal x a v.toNat = none) :
    leaves c s ((e.acceptWord a v.toNat).respond (linkCmd l 1) .done []) := by
  obtain ⟨aligned, mapped⟩ := wordWrite_addr hc ha
  have len : (leBytes 4 v.toNat).length = 4 := rfl
  refine leaves_of_onDev (exec_of_wordWrite hc s) ?_
  rw [Dev.wr, if_pos ha, Dev.wrRegs, len, decide_eq_true ⟨aligned, rfl⟩, mapped, transact_of_admit had, if_pos rfl,
    wordsOf_leBytes_word, writeRegs_word hr]

theorem acceptWord_rw {a n : Nat} (h : (regAcc a).1 = .rw) (hi : d.regIgnored a = false) :
    d.acceptWord a n = { d with link := { d.link with plain := d.link.plain ++ [.word a (wordOf n)] } } := by
  simp [Dev.acceptWord, h, hi, Dev.mapLink]

theorem acceptWord_ignored {a n : Nat} (h : (regAcc a).1 = .rw) (hi : d.regIgnored a = true) : d.acceptWord a n = d := by
  simp [Dev.acceptWord, h, hi]

theorem acceptWord_w1c {a n : Nat} (h : (regAcc a).1 = .w1c) :
    d.acceptWord a n = { d with link := { d.link with plain := d.link.plain ++ [.clear a (wordOf n)] } } := by
  simp [Dev.acceptWord, h, Dev.mapLink]

theorem acceptWord_shadow {a n : Nat} (h : (regAcc a).1 = .sh ∨ (regAcc a).1 = .lk) :
    d.acceptWord a n =
      { d with link := { d.link with shadow := tabEntry (a, wordOf n &&& wordOf (regAcc a).2) d.link.shadow } } := by
  rcases h with h | h <;> simp [Dev.acceptWord, h, Dev.mapLink, tabEntry]

theorem stickyAddr_not_window {n : Nat} (h : n < 128) :
    ¬ stickyAddr n < 0x40000 ∧ ¬ (0x01000000 ≤ stickyAddr n ∧ stickyAddr n < 0x01800000) ∧
    ¬ (0x10000000 ≤ stickyAddr n ∧ stickyAddr n < 0x14000000) := by
  unfold stickyAddr
  omega

theorem isSticky_stickyAddr {n : Nat} (h : n < 128) : isSticky (stickyAddr n) = true := by
  unfold isSticky stickyAddr
  exact Bool.and_eq_true_iff.mpr ⟨decide_eq_true (by omega), beq_iff_eq.mpr (by omega)⟩

theorem spanInMap_stickyAddr {n : Nat} (h : n < 128) : spanInMap (stickyAddr n) 4 = true := by
  unfold stickyAddr
  exact spanInMap_of_mem (lo := 0x2E800000) (hi := 0x2E801FFF) (by decide) (by omega) (by omega)

/-- An admitted write of ISLE_STICKY waits for the tick boundary as a clear. -/
theorem isleStickyClear_leaves {l : Link} {n : Nat} {v : Word} {x : Bool} (hn : n < 128)
    (had : admitted s.dev l 1 (stickyAddr n) 4 (leBytes 4 v.toNat) = some (x, e)) :
    leaves (.isleStickyClear l n v) s
      ({ e with link := { e.link with plain := e.link.plain ++ [PlainWrite.clear (stickyAddr n) v] } }.respond (linkCmd l 1) .done
        []) := by
  obtain ⟨h1, h2, h3⟩ := stickyAddr_not_window hn
  have len : (leBytes 4 v.toNat).length = 4 := rfl
  refine leaves_of_onDev (onUnit_next (decide_eq_true hn)) ?_
  rw [Dev.wrWord, Dev.wr, if_neg h1, if_neg h2, if_neg h3, Dev.wrView, len, spanInMap_stickyAddr hn, transact_of_admit had,
    if_pos rfl, if_pos ⟨isSticky_stickyAddr hn, rfl⟩, leVal_leBytes_word, wordOf_toNat]
  rfl

/-- Settles O20: a word's access class says what becomes of it. -/
theorem wordWriteIsLatchedOrShadowed : Obligations.WordWriteIsLatchedOrShadowed := by
  refine ⟨fun s l n v x e hn had => isleStickyClear_leaves hn had, fun c s l a v x e hc ha had hr => ?_⟩
  have accepted := wordWrite_leaves hc ha had hr
  refine ⟨fun plain kept => ?_, fun plain ignored => ?_, fun clear => ?_, fun shadow => ?_⟩
  · rwa [acceptWord_rw plain kept, wordOf_toNat] at accepted
  · rwa [acceptWord_ignored plain ignored] at accepted
  · rwa [acceptWord_w1c clear, wordOf_toNat] at accepted
  · rw [acceptWord_shadow shadow, wordOf_toNat] at accepted
    obtain ⟨vault, rfl⟩ := eq_of_admitted had
    exact gives_of_leaves accepted
      ⟨rfl, tabFind_tabEntry_self a _ _, fun b hb => tabFind_tabEntry_of_ne hb _ _, rfl⟩

/-! ### COMMIT, ABANDON, ABORT (R24, R30) -/

theorem commit_leaves {l : Link} {x : Bool} (ha : admitCmd s.dev l 0x01 [] false true = some (x, e)) :
    leaves (.commit l []) s (answered { e with link := { e.link with
      frozen := some (overlay (e.link.frozen.getD []) e.link.shadow), shadow := [] } } l .done []) :=
  leaves_of_onDev rfl (exec_of_admitCmd ha _)

theorem u16_pair (a b : Byte) : u16 [a, b] 0 = a.toNat + 256 * b.toNat := rfl

/-- An admitted ABORT waits in the link, and its response with it. -/
theorem abort_leaves {l : Link} {a b : Byte} {x : Bool} (ha : admitCmd s.dev l 0x03 [a, b] false false = some (x, e)) :
    leaves (.abort l [a, b]) s ((answered { e with link := { e.link with aborts := e.link.aborts ++ [a.toNat + 256 * b.toNat] } }
      l .done []).mapLink fun k => { k with resp := none }) := by
  obtain ⟨vault, rfl⟩ := eq_of_admitted (admitted_of_admitCmd ha)
  refine leaves_of_onDev rfl ?_
  dsimp only
  rw [show ([a, b].length == 2) = true from rfl, exec_of_admitCmd ha, u16_pair]
  exact if_pos (by simp [answered])

/-- Settles O24, with `tabFind_overlay` for what is frozen. -/
theorem commitAbandonAbort : Obligations.CommitAbandonAbort := by
  refine ⟨fun s l x e ha => ⟨_, commit_leaves ha, fun a v hv hu => ?_, fun a hn => ?_⟩, fun s l x e ha => ?_, fun s l a b x e ha => ?_⟩
  · rw [tabFind_overlay, tabFind_of_unique (List.mem_reverse.mpr hv) fun w hw => hu w (List.mem_reverse.mp hw), Option.some_or]
  · rw [tabFind_overlay, tabFind_eq_none_of_not_mem fun w hw => hn w (List.mem_reverse.mp hw), Option.none_or]
  · exact leaves_of_onDev rfl (exec_of_admitCmd ha _)
  · exact gives_of_leaves (abort_leaves ha) ⟨rfl, rfl, rfl, rfl⟩

end Sys2Proof.Machine
end

section
/-! Frames and their slices (01_archipelago R18, R19, R23). A slice is due in one tick and leaves the frame's progress behind itself
(`slice_runs_once`). What a close reads of the frame that ended, its parity, its end and the image, stays through the whole of its
work: `Keeps p` says that a part of the device is as it was, and work composes as it does for `Steady`. -/

open Sys2Proof Sys2Proof.Machine Sys2Proof.Safety

namespace Sys2Proof.Machine

variable {c : Instr} {s t : State} {d₀ d e : Dev} {α β : Type} {p : Dev → β}

/-! ### Work that keeps a part of the device -/

/-- A part of the device, as `p` reads it, is in `d` what it was in `d₀`. -/
structure Keeps (p : Dev → β) (d₀ d : Dev) : Prop where
  eq : p d = p d₀

theorem Keeps.refl (d : Dev) : Keeps p d d := ⟨rfl⟩

theorem Keeps.trans (h : Keeps p d₀ d) (k : Keeps p d e) : Keeps p d₀ e := ⟨k.eq.trans h.eq⟩

theorem Keeps.ite {b : Prop} [Decidable b] {x y : Dev} (hx : Keeps p d₀ x) (hy : Keeps p d₀ y) : Keeps p d₀ (if b then x else y) := by
  split
  · exact hx
  · exact hy

theorem Keeps.when {b : Prop} [Decidable b] (h : Keeps p d₀ d) (k : Keeps p d₀ d → Keeps p d₀ e) :
    Keeps p d₀ (if b then e else d) := .ite (k h) h

theorem Keeps.unless {b : Prop} [Decidable b] (h : Keeps p d₀ d) (k : Keeps p d₀ d → Keeps p d₀ e) :
    Keeps p d₀ (if b then d else e) := .ite h (k h)

theorem Keeps.snd {a : α} (h : Keeps p d₀ d) : Keeps p d₀ (a, d).2 := h

theorem Keeps.foldlOn {γ : Type} {q : γ → Dev} {f : γ → α → γ} {b : γ} {l : List α} (h : Keeps p d₀ (q b))
    (hf : ∀ b x, Keeps p d₀ (q b) → Keeps p d₀ (q (f b x))) : Keeps p d₀ (q (l.foldl f b)) :=
  List.foldlRecOn l f (motive := fun b => Keeps p d₀ (q b)) h fun b hb x _ => hf b x hb

theorem Keeps.foldl {f : Dev → α → Dev} {l : List α} (h : Keeps p d₀ d) (hf : ∀ e x, Keeps p d₀ e → Keeps p d₀ (f e x)) :
    Keeps p d₀ (l.foldl f d) := .foldlOn (q := id) h hf

theorem Keeps.forEach {l : List Nat} {f : Nat → Dev → Dev} (h : Keeps p d₀ d)
    (hf : ∀ n e, Keeps p d₀ e → Keeps p d₀ (f n e)) : Keeps p d₀ (d.forEach l f) :=
  Keeps.foldl h fun e n => hf n e

/-- An update of what `p` does not read. -/
theorem Keeps.update (h : Keeps p d₀ d) (he : p e = p d) : Keeps p d₀ e := h.trans ⟨he⟩

theorem Keeps.setIsle {n x} (h : Keeps p d₀ d) (hp : ∀ d, p (Dev.setIsle d n x) = p d := by intro; rfl) :
    Keeps p d₀ (d.setIsle n x) := h.update (hp d)

theorem Keeps.upIsle {n f} (h : Keeps p d₀ d) (hp : ∀ d x, p (Dev.setIsle d n x) = p d := by intros; rfl) :
    Keeps p d₀ (d.upIsle n f) := h.update (hp d _)

theorem Keeps.upLane {n f} (h : Keeps p d₀ d) (hp : ∀ d x, p (Dev.setLane d n x) = p d := by intros; rfl) :
    Keeps p d₀ (d.upLane n f) := h.update (hp d _)

theorem Keeps.upStrait {n f} (h : Keeps p d₀ d) (hp : ∀ d x, p (Dev.setStrait d n x) = p d := by intros; rfl) :
    Keeps p d₀ (d.upStrait n f) := h.update (hp d _)

theorem Keeps.upElem {n f} (h : Keeps p d₀ d) (hp : ∀ d x, p (Dev.setElem d n x) = p d := by intros; rfl) :
    Keeps p d₀ (d.upElem n f) := h.update (hp d _)

theorem Keeps.setKnot {n x} (h : Keeps p d₀ d) (hp : ∀ d, p (Dev.setKnot d n x) = p d := by intro; rfl) :
    Keeps p d₀ (d.setKnot n x) := h.update (hp d)

theorem Keeps.mapRun {f} (h : Keeps p d₀ d) (hp : ∀ d, p (Dev.mapRun d f) = p d := by intro; rfl) :
    Keeps p d₀ (d.mapRun f) := h.update (hp d)

theorem Keeps.mapStore {f} (h : Keeps p d₀ d) (hp : ∀ d, p (Dev.mapStore d f) = p d := by intro; rfl) :
    Keeps p d₀ (d.mapStore f) := h.update (hp d)

theorem Keeps.mapPwr {f} (h : Keeps p d₀ d) (hp : ∀ d, p (Dev.mapPwr d f) = p d := by intro; rfl) :
    Keeps p d₀ (d.mapPwr f) := h.update (hp d)

theorem Keeps.mapTam {f} (h : Keeps p d₀ d) (hp : ∀ d, p (Dev.mapTam d f) = p d := by intro; rfl) :
    Keeps p d₀ (d.mapTam f) := h.update (hp d)

theorem Keeps.mapEvt {f} (h : Keeps p d₀ d) (hp : ∀ d, p (Dev.mapEvt d f) = p d := by intro; rfl) :
    Keeps p d₀ (d.mapEvt f) := h.update (hp d)

/-! ### What a close reads of frame F -/

/-- Frame F by its number and its end, and the image. -/
structure EndedFrame where
  frame : Nat
  endS : Nat
  endT : Nat
  img : ImageSt

def Dev.endedFrame (d : Dev) : EndedFrame := { frame := d.run.frame, endS := d.run.endS, endT := d.run.endT, img := d.img }

theorem endedFrame_logNow {code origin detail} (h : Keeps Dev.endedFrame d₀ d) :
    Keeps Dev.endedFrame d₀ (d.logNow code origin detail) :=
  .unless (.ite h.mapEvt h.mapRun) (·.mapEvt)

theorem endedFrame_verifySram {n consumer flags origin} (h : Keeps Dev.endedFrame d₀ d) :
    Keeps Dev.endedFrame d₀ (d.verifySram n consumer flags origin).2 := by
  unfold Dev.verifySram
  simp only [apply_ite Prod.snd]
  exact .ite h.mapStore (h.mapStore.when endedFrame_logNow)

theorem endedFrame_restoreTile {n} (h : Keeps Dev.endedFrame d₀ d) : Keeps Dev.endedFrame d₀ (d.restoreTile n) :=
  .ite h (h.foldl fun _ _ he => endedFrame_verifySram he).setIsle.mapStore

theorem endedFrame_addReg {n r q k} (h : Keeps Dev.endedFrame d₀ d) : Keeps Dev.endedFrame d₀ (d.addReg n r q k) :=
  h.upIsle.when endedFrame_logNow

theorem endedFrame_carryQty {n q b} (h : Keeps Dev.endedFrame d₀ d) : Keeps Dev.endedFrame d₀ (d.carryQty n q b) :=
  h.upIsle.unless fun hk => endedFrame_addReg (hk.when endedFrame_addReg)

theorem endedFrame_isleFlags {n status} (h : Keeps Dev.endedFrame d₀ d) : Keeps Dev.endedFrame d₀ (d.isleFlags n status) :=
  h.upIsle

theorem endedFrame_closeElec {n} (h : Keeps Dev.endedFrame d₀ d) : Keeps Dev.endedFrame d₀ (d.closeElec n) :=
  endedFrame_isleFlags (h.upIsle.foldl fun _ _ he => endedFrame_carryQty he).upIsle

theorem endedFrame_saveHours {n} (h : Keeps Dev.endedFrame d₀ d) : Keeps Dev.endedFrame d₀ (d.saveHours n) := h.update rfl

theorem endedFrame_rollHour {n} (h : Keeps Dev.endedFrame d₀ d) : Keeps Dev.endedFrame d₀ (d.rollHour n) :=
  endedFrame_saveHours h.upIsle

theorem endedFrame_judgeHour {n hour} (h : Keeps Dev.endedFrame d₀ d) : Keeps Dev.endedFrame d₀ (d.judgeHour n hour) := by
  unfold Dev.judgeHour
  dsimp only
  exact .ite (h.upIsle.upIsle.when endedFrame_logNow) (h.upIsle.upIsle.when endedFrame_logNow)

theorem endedFrame_utilityFrame {n b hourEnds} (h : Keeps Dev.endedFrame d₀ d) :
    Keeps Dev.endedFrame d₀ (d.utilityFrame n b hourEnds).2 := by
  unfold Dev.utilityFrame
  extract_lets u unm scale lpq jpq heat bad endT hour m quanta d₁
  have h₁ : Keeps Dev.endedFrame d₀ d₁ := h.when endedFrame_logNow
  clear_value d₁
  split
  extract_lets
  split
  exact .snd (.upIsle (.ite (endedFrame_judgeHour h₁.upIsle) h₁.upIsle))

theorem endedFrame_closeUtil {n} (h : Keeps Dev.endedFrame d₀ d) : Keeps Dev.endedFrame d₀ (d.closeUtil n) :=
  endedFrame_isleFlags ((endedFrame_utilityFrame h).upIsle.foldl fun _ _ he => endedFrame_carryQty he).upIsle

theorem endedFrame_closeStraits (h : Keeps Dev.endedFrame d₀ d) : Keeps Dev.endedFrame d₀ d.closeStraits :=
  ((h.forEach fun _ _ he => he.upStrait).forEach fun _ _ he => he.forEach fun _ _ hx => hx.upElem).forEach fun _ _ he => he.upElem

theorem endedFrame_judgeDead (h : Keeps Dev.endedFrame d₀ d) : Keeps Dev.endedFrame d₀ d.judgeDead := by
  unfold Dev.judgeDead
  exact h.mapPwr

theorem ilType_of_endedFrame (h : Keeps Dev.endedFrame d₀ d) (n : Nat) : d.ilType n = d₀.ilType n := by
  have img : d.img = d₀.img := congrArg EndedFrame.img h.eq
  unfold Dev.ilType Dev.ent Dev.isLive Dev.image
  rw [img]

theorem oddF_of_endedFrame (h : Keeps Dev.endedFrame d₀ d) : d.oddF = d₀.oddF := congrArg (fun x => x.frame % 2 == 1) h.eq

/-- A close works on the frame that ended, and last it stamps the isle with that frame's end and clears its bank. -/
theorem closeIsle_eq (d : Dev) (n : Nat) : ∃ e, Keeps Dev.endedFrame d e ∧ d.closeIsle n =
    if e.ilType n = 0 then e
    else e.upIsle n (fun i => { i.setBank e.oddF .zero with closedS := e.run.endS, closedT := e.run.endT }) := by
  have restored := endedFrame_restoreTile (n := n) (.refl d)
  exact ⟨_, .ite ((endedFrame_closeElec restored).when endedFrame_rollHour) (restored.when endedFrame_closeUtil), rfl⟩

theorem isle_sliceDone (d : Dev) (n o : Nat) : (d.sliceDone o).isle n = d.isle n := rfl

theorem bank_setBank (i : IsleSt) (odd : Bool) (b : Bank) : (i.setBank odd b).bank odd = b := by
  cases odd <;> rfl

/-- What is written to an isle reads back, when it is not what an unlisted isle reads as. -/
theorem isle_upIsle {n : Nat} {f : IsleSt → IsleSt} (h : f (d.isle n) ≠ .init) : (d.upIsle n f).isle n = f (d.isle n) :=
  tabGet_tabPut_of_ne_default _ _ _ h _

theorem closeIsle_stamps {n : Nat} (h : Keeps Dev.endedFrame d₀ d) (ht : d₀.ilType n ≠ 0) (hs : d₀.run.endS ≠ 0) :
    ((d.closeIsle n).isle n).closedS = d₀.run.endS ∧ ((d.closeIsle n).isle n).closedT = d₀.run.endT ∧
    ((d.closeIsle n).isle n).bank d₀.oddF = Bank.zero := by
  obtain ⟨e, he, closed⟩ := closeIsle_eq d n
  have frame := h.trans he
  have endS : e.run.endS = d₀.run.endS := congrArg EndedFrame.endS frame.eq
  have endT : e.run.endT = d₀.run.endT := congrArg EndedFrame.endT frame.eq
  rw [closed, ilType_of_endedFrame frame, if_neg ht, oddF_of_endedFrame frame, endS, endT,
    isle_upIsle fun init => hs (congrArg IsleSt.closedS init)]
  exact ⟨rfl, rfl, bank_setBank _ _ _⟩

/-! ### Slices -/

theorem sliceDue_of_lt {o : Nat} (h : o < d.run.off) : d.sliceDue o = false := by
  have : ¬ d.run.off ≤ o := by omega
  simp [Dev.sliceDue, this]

section
variable {o : Nat} {work : Dev → Dev} (he : ∀ s, exec c s = .next (s.onDev fun d => if d.sliceDue o then work d else d))
include he

theorem slice_due (h : s.dev.sliceDue o = true) : leaves c s (work s.dev) := leaves_of_onDev (he s) (if_pos h)

theorem slice_not_due (h : s.dev.sliceDue o = false) : leaves c s s.dev :=
  leaves_of_onDev (he s) (if_neg (Bool.eq_false_iff.mp h))

/-- A slice that leaves the frame's progress at the next offset runs in its own tick, once. -/
theorem slice_runs_once (hw : ∀ d, (work d).run.off = o + 1) (s : State) :
    (s.dev.sliceDue o = true → gives c s (fun d => d.run.off = o + 1) ∧ ∀ t, exec c s = .next t → leaves c t t.dev) ∧
    (s.dev.sliceDue o = false → leaves c s s.dev) := by
  refine ⟨fun due => ⟨gives_of_leaves (slice_due he due) (hw _), fun t ht => ?_⟩, slice_not_due he⟩
  cases (slice_due he due).symm.trans ht
  refine slice_not_due he (sliceDue_of_lt ?_)
  change o < (work s.dev).run.off
  rw [hw]
  exact Nat.lt_succ_self o

end

section
variable {n : Nat} (hn : n < 128) (s : State)
include hn

theorem exec_isleClose : exec (.isleClose n) s = .next (s.onDev fun d =>
    if d.sliceDue (80 + n) then ((if n = 0 then d.closeStraits.judgeDead else d).closeIsle n).sliceDone (81 + n) else d) :=
  onUnit_next (decide_eq_true hn)

theorem exec_demandSlice : exec (.demandSlice n) s = .next (s.onDev fun d =>
    if d.sliceDue (208 + n) then (d.demandSlice n (d.rWarn n) (d.rTrip n)).sliceDone (209 + n) else d) :=
  onUnit_next (decide_eq_true hn)

theorem exec_isleEventsSlice : exec (.isleEventsSlice n) s = .next (s.onDev fun d =>
    if d.sliceDue (336 + n) then (d.isleEvents n).sliceDone (337 + n) else d) :=
  onUnit_next (decide_eq_true hn)

theorem exec_profileSlice : exec (.profileSlice n) s = .next (s.onDev fun d =>
    if d.sliceDue (480 + n) then (d.profileSlice n).sliceDone (481 + n) else d) :=
  onUnit_next (decide_eq_true hn)

theorem exec_billingCloseSlice : exec (.billingCloseSlice n) s = .next (s.onDev fun d =>
    if d.sliceDue (608 + n) then
      (if n = 127 then ((d.billingSlice n false).sliceDone (609 + n)).mapRun (fun r => { r with open_ := false })
      else (d.billingSlice n false).sliceDone (609 + n))
    else d) :=
  onUnit_next (decide_eq_true hn)

end

/-- The last slice also ends the frame's slices. -/
theorem run_billingDone (n : Nat) (d : Dev) :
    (if n = 127 then (d.sliceDone (609 + n)).mapRun (fun r => { r with open_ := false }) else d.sliceDone (609 + n)) =
      { d with run := { d.run with off := 609 + n, open_ := if n = 127 then false else d.run.open_ } } := by
  by_cases last : n = 127
  · rw [if_pos last, if_pos last]
    rfl
  · rw [if_neg last, if_neg last]
    rfl

theorem isleSlice_runs_once {n o : Nat} (hn : n < 128)
    (hc : c = .isleClose n ∧ o = 80 + n ∨ c = .demandSlice n ∧ o = 208 + n ∨ c = .isleEventsSlice n ∧ o = 336 + n ∨
      c = .profileSlice n ∧ o = 480 + n ∨ c = .billingCloseSlice n ∧ o = 608 + n) (s : State) :
    (s.dev.sliceDue o = true → gives c s (fun d => d.run.off = o + 1) ∧ ∀ t, exec c s = .next t → leaves c t t.dev) ∧
    (s.dev.sliceDue o = false → leaves c s s.dev) := by
  rcases hc with ⟨rfl, rfl⟩ | ⟨rfl, rfl⟩ | ⟨rfl, rfl⟩ | ⟨rfl, rfl⟩ | ⟨rfl, rfl⟩
  · exact slice_runs_once (exec_isleClose hn) (fun _ => Nat.add_right_comm 80 1 n) s
  · exact slice_runs_once (exec_demandSlice hn) (fun _ => Nat.add_right_comm 208 1 n) s
  · exact slice_runs_once (exec_isleEventsSlice hn) (fun _ => Nat.add_right_comm 336 1 n) s
  · exact slice_runs_once (exec_profileSlice hn) (fun _ => Nat.add_right_comm 480 1 n) s
  · refine slice_runs_once (exec_billingCloseSlice hn) (fun d => ?_) s
    rw [run_billingDone]
    exact Nat.add_right_comm 608 1 n

/-! ### The archipelago's slice and the boundary -/

theorem exec_archipelagoEventsSlice (m : Monitors) (s : State) : exec (.archipelagoEventsSlice m) s = .next (s.onDev fun d =>
    if decide (d.pwr.mode = .run ∨ d.pwr.mode = .doze) && decide (464 ≤ d.off ∧ d.off < 480) && decide (d.run.off < 480) then
      (((d.monitors m).expireKnots).releaseNotices).sliceDone 480 else d) := rfl

theorem archipelagoEventsSlice_due (m : Monitors) (ha : awake s.dev) (lo : 464 ≤ s.dev.off) (hi : s.dev.off < 480)
    (hr : s.dev.run.off < 480) :
    leaves (.archipelagoEventsSlice m) s ((((s.dev.monitors m).expireKnots).releaseNotices).sliceDone 480) := by
  refine leaves_of_onDev (exec_archipelagoEventsSlice m s) (if_pos ?_)
  simp only [Bool.and_eq_true, decide_eq_true_eq]
  exact ⟨⟨ha, lo, hi⟩, hr⟩

theorem archipelagoEventsSlice_not_due (m : Monitors) (hr : 480 ≤ s.dev.run.off) :
    leaves (.archipelagoEventsSlice m) s s.dev := by
  refine leaves_of_onDev (exec_archipelagoEventsSlice m s) (if_neg ?_)
  simp only [Bool.and_eq_true, decide_eq_true_eq]
  omega

/-- The boundary is evaluated. -/
def Dev.evaluated (d : Dev) : Dev := d.mapClk fun c => { c with evald := true }

/-- What a boundary leaves: in the frame of a voltage check the lanes restart instead of the frame's work. -/
def Dev.boundaryDone (d : Dev) : Dev := if d.pwr.check then d.evaluated.restartLanes else d.frameBoundary

theorem exec_frameBoundary (s : State) : exec .frameBoundary s =
    if s.dev.frameDue then .next { s with dev := s.dev.boundaryDone, seen := s.dev.boundaryDone } else .next s := rfl

theorem frameDue_iff : d.frameDue = true ↔ d.off = 0 ∧ d.clk.evald = false ∧ awake d := by
  simp [Dev.frameDue, awake, and_assoc]

/-- What a frame boundary leaves to its end: the run's progress, and that the clock's boundary is evaluated. -/
def Dev.boundaryMark (d : Dev) : Running × Clock := (d.run, d.clk)

theorem boundaryMark_guarded {w} (h : Keeps Dev.boundaryMark d₀ d) : Keeps Dev.boundaryMark d₀ (d.guarded w) :=
  h.mapStore.unless (·.mapPwr)

theorem boundaryMark_retryGuarded (h : Keeps Dev.boundaryMark d₀ d) : Keeps Dev.boundaryMark d₀ d.retryGuarded :=
  ((h.when fun k => boundaryMark_guarded k.mapTam).when boundaryMark_guarded).when boundaryMark_guarded

theorem boundaryMark_dueSaves (h : Keeps Dev.boundaryMark d₀ d) : Keeps Dev.boundaryMark d₀ d.dueSaves := by
  unfold Dev.dueSaves
  exact h.mapStore

theorem keeps_newParity (h : Keeps p d₀ d) (hl : ∀ d n x, p (Dev.setLane d n x) = p d)
    (hs : ∀ d n x, p (Dev.setStrait d n x) = p d) : Keeps p d₀ d.newParity :=
  (h.forEach fun _ _ he => he.upLane (hl · _)).forEach fun _ _ he => he.upStrait (hs · _)

/-- A save that was asked for is due at the boundary, and no longer asked for. -/
theorem frameBoundary_saveAsk (d : Dev) : d.frameBoundary.store.saveAsk = false :=
  (keeps_newParity (p := fun d => d.store.saveAsk) (.refl _) (fun _ _ _ => rfl) (fun _ _ _ => rfl)).eq

/-- The clock and the image, which the views of utility isles leave alone. -/
theorem latchViews_keeps (d : Dev) : d.latchViews.clk = d.clk ∧ d.latchViews.img = d.img :=
  ⟨(Keeps.forEach (p := Dev.clk) (.refl d) fun _ _ he => he.upIsle).eq,
   (Keeps.forEach (p := Dev.img) (.refl d) fun _ _ he => he.upIsle).eq⟩

/-- The slices of the frame that ended at the running boundary open. -/
def Dev.openSlices (d : Dev) : Dev := d.mapRun fun r =>
  { r with frame := d.clk.frameNo - 1, open_ := true, off := 1, endS := d.clk.secs, endT := d.clk.tick, cut := false }

/-- A boundary without a live image: the views are latched and the frame's slices open, no wall-clock boundary is evaluated. -/
theorem frameBoundary_eq_of_no_image (h2 : d.clk.step2 = true) (hl : d.isLive = false) (hr : d.img.resume = false)
    (hg : d.img.reloaded = false) :
    d.frameBoundary = d.evaluated.latchViews.openSlices.retryGuarded.dueSaves.newParity := by
  have resuming : d.evaluated.resuming = false := by simp [Dev.resuming, Dev.evaluated, hr]
  have reloaded : d.evaluated.img.reloaded = false := hg
  have live : d.evaluated.isLive = false := hl
  obtain ⟨clk, img⟩ := latchViews_keeps d.evaluated
  have opened : d.evaluated.latchViews.mapRun (fun r => { r with
      frame := d.evaluated.latchViews.clk.frameNo - 1, open_ := true, off := 1, endS := d.evaluated.clk.secs,
      endT := d.evaluated.clk.tick, cut := false }) = d.evaluated.latchViews.openSlices := by
    unfold Dev.openSlices
    rw [clk]
  have latched : d.evaluated.latchViews.openSlices.isLive = false := by
    change d.evaluated.latchViews.img.live.isSome = false
    rw [img]
    exact hl
  have evaluated : (d.mapClk fun c => { c with evald := true }) = d.evaluated := rfl
  simp only [Dev.frameBoundary, h2, if_true, evaluated, resuming, reloaded, live, Bool.false_eq_true, if_false, opened, latched]

/-- Without a live image a boundary opens the slices of the frame that ended there. -/
theorem frameBoundary_opens (h2 : d.clk.step2 = true) (hl : d.isLive = false) (hr : d.img.resume = false)
    (hg : d.img.reloaded = false) :
    d.frameBoundary.run.frame = d.clk.frameNo - 1 ∧ d.frameBoundary.run.open_ = true ∧ d.frameBoundary.run.off = 1 ∧
    d.frameBoundary.clk.evald = true := by
  have mark := (keeps_newParity (boundaryMark_dueSaves (boundaryMark_retryGuarded (.refl d.evaluated.latchViews.openSlices)))
    (fun _ _ _ => rfl) fun _ _ _ => rfl).eq
  rw [← frameBoundary_eq_of_no_image h2 hl hr hg] at mark
  have run : d.frameBoundary.run = d.evaluated.latchViews.openSlices.run := congrArg (·.1) mark
  have clk : d.frameBoundary.clk = d.evaluated.clk := (congrArg (·.2) mark).trans (latchViews_keeps _).1
  have frame : d.evaluated.latchViews.openSlices.run.frame = d.evaluated.clk.frameNo - 1 :=
    congrArg (fun c => c.frameNo - 1) (latchViews_keeps d.evaluated).1
  rw [run, clk]
  exact ⟨frame, rfl, rfl, rfl⟩

theorem frameBoundary_due (ho : s.dev.off = 0) (ha : awake s.dev) (he : s.dev.clk.evald = false) :
    exec .frameBoundary s = .next { s with dev := s.dev.boundaryDone, seen := s.dev.boundaryDone } :=
  (exec_frameBoundary s).trans (if_pos (frameDue_iff.mpr ⟨ho, he, ha⟩))

theorem frameBoundary_not_due (h : s.dev.clk.evald = true ∨ s.dev.off ≠ 0) : leaves .frameBoundary s s.dev := by
  refine (exec_frameBoundary s).trans (if_neg fun due => ?_)
  obtain ⟨off, evald, -⟩ := frameDue_iff.mp due
  simp [off, evald] at h

/-- At a boundary that is no voltage check the frame's work is done, and reads see it. -/
theorem frameBoundary_works (ho : s.dev.off = 0) (ha : awake s.dev) (hc : s.dev.pwr.check = false) (he : s.dev.clk.evald = false) :
    exec .frameBoundary s = .next { s with dev := s.dev.frameBoundary, seen := s.dev.frameBoundary } := by
  rw [frameBoundary_due ho ha he, Dev.boundaryDone, hc]
  rfl

theorem frameBoundary_restarts (ho : s.dev.off = 0) (ha : awake s.dev) (hc : s.dev.pwr.check = true) (he : s.dev.clk.evald = false) :
    exec .frameBoundary s = .next { s with dev := s.dev.evaluated.restartLanes, seen := s.dev.evaluated.restartLanes } := by
  rw [frameBoundary_due ho ha he, Dev.boundaryDone, hc]
  rfl

theorem isleClose_stamps {n : Nat} (hn : n < 128) (hd : s.dev.sliceDue (80 + n) = true) (ht : s.dev.ilType n ≠ 0)
    (hs : s.dev.run.endS ≠ 0) : gives (.isleClose n) s (fun d =>
      (d.isle n).closedS = s.dev.run.endS ∧ (d.isle n).closedT = s.dev.run.endT ∧ (d.isle n).bank s.dev.oddF = Bank.zero) := by
  have frame : Keeps Dev.endedFrame s.dev (if n = 0 then s.dev.closeStraits.judgeDead else s.dev) :=
    .ite (endedFrame_judgeDead (endedFrame_closeStraits (.refl _))) (.refl _)
  refine gives_of_leaves (slice_due (exec_isleClose hn) hd) ?_
  rw [isle_sliceDone]
  exact closeIsle_stamps frame ht hs

theorem billingCloseSlice_due {n : Nat} (hn : n < 128) (hd : s.dev.sliceDue (608 + n) = true) :
    leaves (.billingCloseSlice n) s { s.dev.billingSlice n false with run := { (s.dev.billingSlice n false).run with
      off := 609 + n, open_ := if n = 127 then false else (s.dev.billingSlice n false).run.open_ } } := by
  have due := slice_due (exec_billingCloseSlice hn) hd
  rwa [run_billingDone] at due

theorem archipelagoEventsSlice_once (m : Monitors) (ha : awake s.dev) (lo : 464 ≤ s.dev.off) (hi : s.dev.off < 480)
    (hr : s.dev.run.off < 480) (ht : exec (.archipelagoEventsSlice m) s = .next t) : leaves (.archipelagoEventsSlice m) t t.dev := by
  refine archipelagoEventsSlice_not_due m (Nat.le_of_eq ?_)
  have due := archipelagoEventsSlice_due m ha lo hi hr
  generalize ((s.dev.monitors m).expireKnots).releaseNotices = d at due
  cases due.symm.trans ht
  rfl

/-- Settles O37: the isle slices by `slice_runs_once`, a close by `closeIsle_stamps`, the boundary by its equation. -/
theorem eachSliceRunsOncePerFrame : Obligations.EachSliceRunsOncePerFrame := by
  refine ⟨fun s n c o hn hc => isleSlice_runs_once hn hc s, fun s n hn => ⟨?_, ?_, ?_, ?_, ?_⟩, fun s m ha lo hi hr => ⟨?_, ?_⟩, ?_, ?_,
    ?_, ?_⟩
  · exact fun due => ⟨slice_due (exec_isleClose hn) due, isleClose_stamps hn due⟩
  · exact slice_due (exec_demandSlice hn)
  · exact slice_due (exec_isleEventsSlice hn)
  · exact slice_due (exec_profileSlice hn)
  · exact fun due => gives_of_leaves (billingCloseSlice_due hn due) ⟨rfl, rfl⟩
  · exact archipelagoEventsSlice_due m ha lo hi hr
  · exact fun t ht => archipelagoEventsSlice_once m ha lo hi hr ht
  · exact fun s off ha check evald => ⟨frameBoundary_works off ha check evald, frameBoundary_saveAsk _⟩
  · exact fun s off ha check evald => frameBoundary_restarts off ha check evald
  · exact fun s off ha check evald h2 hl hr hg =>
      ⟨_, frameBoundary_works off ha check evald, rfl, frameBoundary_opens h2 hl hr hg⟩
  · exact fun s => frameBoundary_not_due

end Sys2Proof.Machine
end

section
/-! Windows and half cycles (01_archipelago R15, R16, 04_isles_windows R92, R97, R100). A strait's state reads back after a write as
long as it is not what an unlisted strait reads as: a window that closed, or samples of a half cycle, make sure of that. -/

open Sys2Proof Sys2Proof.Machine Sys2Proof.Safety

namespace Sys2Proof.Machine

variable {c : Instr} {s : State} {d₀ d e : Dev} {k : Nat}

/-! ### Reading a strait -/

theorem strait_setStrait {x : StraitSt} (h : x ≠ .init) : (d.setStrait k x).strait k = x := tabGet_tabPut_of_ne_default _ _ _ h _

theorem strait_setStrait_of_ne {j : Nat} {x : StraitSt} (h : j ≠ k) : (d.setStrait k x).strait j = d.strait j :=
  tabGet_tabPut_of_ne _ h _ _

theorem strait_upStrait {f : StraitSt → StraitSt} (h : f (d.strait k) ≠ .init) : (d.upStrait k f).strait k = f (d.strait k) :=
  strait_setStrait h

theorem strait_upStrait_of_ne {j : Nat} {f : StraitSt → StraitSt} (h : j ≠ k) : (d.upStrait k f).strait j = d.strait j :=
  strait_setStrait_of_ne h

theorem strait_of_straits (h : Keeps Dev.straits d e) (k : Nat) : e.strait k = d.strait k := by
  unfold Dev.strait
  rw [h.eq]

theorem ne_init_of_closed {x : StraitSt} (h : x.closed ≠ []) : x ≠ .init := fun hx => h (congrArg StraitSt.closed hx)

/-! ### The end of a window (R15, R62) -/

/-- The window that ends at a position, of a length in ticks. -/
def Dev.endedWindow (d : Dev) (k fin : Nat) (len : Rat) : WinClosed :=
  let x := d.strait k
  { frame := d.clk.frameNo, locked := x.locked, flagged := x.wFlag, len := len, secs := d.clk.secs, tick := d.clk.tick,
    seq := (x.wSeq + 1) % 2 ^ 32, sumV := x.wSumV, sumI := x.wSumI, n := x.wN, done := false, elems := [], from_ := x.wStart,
    upto := fin, closeT := d.clk.runTick, gains := d.strGains k }

/-- The strait with that window closed. -/
def Dev.windowEnded (d : Dev) (k fin : Nat) (len : Rat) : StraitSt :=
  { d.strait k with closed := (d.strait k).closed ++ [d.endedWindow k fin len], wSeq := ((d.strait k).wSeq + 1) % 2 ^ 32 }

/-- The frequency of a locked window, and the quadrature correction that it selects. -/
def StraitSt.tracked (x : StraitSt) (hz : Rat) : StraitSt :=
  { x with freq := satU 32 (roundOpen 3 (hz * 10000)).toNat, qnext := some (Config.cTable (roundNear (hz * 100)).toNat) }

theorem windowEnded_closed_ne_nil (fin : Nat) (len : Rat) : (d.windowEnded k fin len).closed ≠ [] := by
  simp [Dev.windowEnded]

theorem windowClose_locked {x : Nat} (hk : k < 16) (hon : s.dev.strOn k = true) (hl : (s.dev.strait k).locked = true)
    (hx : (s.dev.strait k).cross = some x) (hn : x / 65536 = s.dev.clk.runTick) (hc : s.dev.winCycles k ≤ (s.dev.strait k).wCount) :
    leaves (.windowClose k) s (s.dev.setStrait k
      (((s.dev.windowEnded k x (((x - (s.dev.strait k).wStart : Nat) : Rat) / 65536)).tracked
        (windowHz (s.dev.winCycles k) (((x - (s.dev.strait k).wStart : Nat) : Rat) / 65536))).newWindow x)) := by
  refine leaves_of_onDev (onUnit_next (decide_eq_true hk)) ?_
  dsimp only
  simp only [hl, hx, hn, hon, hc, decide_true, if_true, Bool.and_self, Bool.not_true, Bool.false_eq_true, if_false, Option.getD_some]
  simp [Dev.windowEnded, Dev.endedWindow, StraitSt.tracked, hl, hx]

theorem windowClose_free (hk : k < 16) (hon : s.dev.strOn k = true) (hl : (s.dev.strait k).locked = false)
    (hn : (s.dev.strait k).wStart + 3200 * 65536 ≤ s.dev.clk.runTick * 65536) :
    leaves (.windowClose k) s (s.dev.setStrait k
      ((s.dev.windowEnded k ((s.dev.strait k).wStart + 3200 * 65536) 3200).newWindow ((s.dev.strait k).wStart + 3200 * 65536))) := by
  refine leaves_of_onDev (onUnit_next (decide_eq_true hk)) ?_
  dsimp only
  simp only [hl, hon, hn, decide_true, Bool.false_eq_true, if_false, Bool.and_self, Bool.not_true]
  simp [Dev.windowEnded, Dev.endedWindow, hl]

theorem windowClose_not_due (hk : k < 16)
    (h : s.dev.strOn k = false ∨ ((s.dev.strait k).locked = true ∧ (s.dev.strait k).wCount < s.dev.winCycles k) ∨
      ((s.dev.strait k).locked = false ∧ s.dev.clk.runTick * 65536 < (s.dev.strait k).wStart + 3200 * 65536)) :
    leaves (.windowClose k) s s.dev := by
  refine leaves_of_onDev (onUnit_next (decide_eq_true hk)) ?_
  rcases h with off | ⟨locked, short⟩ | ⟨free, early⟩
  · simp [off]
  · simp [locked, Nat.not_le.mpr short]
  · simp [free, Nat.not_le.mpr early]

/-! ### The analysis of a window (R92, R97) -/

theorem straits_thdWord {cyc lim v} (h : Keeps Dev.straits d₀ d) : Keeps Dev.straits d₀ (d.thdWord cyc lim v).2 := by
  unfold Dev.thdWord
  split
  · exact h.update rfl
  · exact h

theorem straits_analyseElem {w v n b} (h : Keeps Dev.straits d₀ d) : Keeps Dev.straits d₀ (d.analyseElem k w v n b).2 := by
  unfold Dev.analyseElem
  dsimp only
  exact (straits_thdWord h).upElem

/-- A closed window with its results. -/
def WinClosed.analysed (w : WinClosed) (seq : Nat) (es : List ElemWin) : WinClosed :=
  if w.seq = seq then { w with done := true, elems := es } else w

theorem upStrait_keeps_straits {f : StraitSt → StraitSt} (h : Keeps Dev.straits d e) :
    Keeps Dev.straits (d.upStrait k f) (e.upStrait k f) := by
  refine ⟨?_⟩
  unfold Dev.upStrait Dev.setStrait Dev.strait
  rw [h.eq]

/-- The results are the strait's record and, for its windows of that number, that they are analysed. -/
theorem windowResults_eq (d : Dev) (k : Nat) (w : WinClosed) : ∃ r es e, r.seq = w.seq ∧ r.locked = w.locked ∧
    Keeps Dev.straits (d.upStrait k fun x => { x with win := r }) e ∧
    d.windowResults k w = e.upStrait k fun x => { x with closed := x.closed.map (·.analysed w.seq es) } := by
  unfold Dev.windowResults
  extract_lets v cyc f1 lim
  rcases ht : d.thdWord cyc lim v with ⟨thd, d₁⟩
  have kept : Keeps Dev.straits d d₁ := by simpa only [ht] using straits_thdWord (cyc := cyc) (lim := lim) (v := v) (.refl d)
  dsimp only
  generalize hy : List.foldl _ _ _ = y
  refine ⟨w.record f1 (d₁.vWeight k) cyc lim (w.sumV / w.n) v thd, y.1, y.2, rfl, rfl, ?_, rfl⟩
  rw [← hy]
  exact .foldlOn (q := Prod.snd) (upStrait_keeps_straits kept) fun _ _ h => straits_analyseElem h

theorem windowResults_strait {w : WinClosed} (h : (d.strait k).closed ≠ []) : ∃ r es, r.seq = w.seq ∧ r.locked = w.locked ∧
    (d.windowResults k w).strait k = { d.strait k with win := r, closed := (d.strait k).closed.map (·.analysed w.seq es) } ∧
    ∀ j, j ≠ k → (d.windowResults k w).strait j = d.strait j := by
  obtain ⟨r, es, e, seq, locked, kept, results⟩ := windowResults_eq d k w
  have stored : e.strait k = { d.strait k with win := r } :=
    (strait_of_straits kept k).trans (strait_upStrait (ne_init_of_closed (x := { d.strait k with win := r }) h))
  refine ⟨r, es, seq, locked, ?_, fun j hj => ?_⟩
  · rw [results, strait_upStrait (by rw [stored]; exact ne_init_of_closed (mt List.map_eq_nil_iff.mp h)), stored]
  · rw [results, strait_upStrait_of_ne hj, strait_of_straits kept, strait_upStrait_of_ne hj]

theorem analysed_done {w y : WinClosed} {es : List ElemWin} (h : (y.analysed w.seq es).seq = w.seq) :
    (y.analysed w.seq es).done = true := by
  unfold WinClosed.analysed at h ⊢
  split at h
  next hs => rw [if_pos hs]
  next hs => exact absurd h hs

theorem windowAnalysis_due {seq : Nat} {w : WinClosed} (hk : k < 16) (hw : s.dev.analysed k seq = some w)
    (hon : s.dev.strOn k = true) : leaves (.windowAnalysis k (k % 4) seq) s (s.dev.windowResults k w) := by
  refine leaves_of_onDev (onUnit_next (decide_eq_true hk)) ?_
  simp [hw, hon]

theorem windowAnalysis_not_due {eng seq : Nat} (hk : k < 16)
    (h : s.dev.analysed k seq = none ∨ s.dev.strOn k = false ∨ eng ≠ k % 4) : leaves (.windowAnalysis k eng seq) s s.dev := by
  refine leaves_of_onDev (onUnit_next (decide_eq_true hk)) ?_
  split
  next w hw =>
    rcases h with none | off | other
    · cases none.symm.trans hw
    · simp [off]
    · simp [other]
  next => rfl

/-! ### The refresh at a half-cycle boundary (R100) -/

theorem straits_notify {n} (h : Keeps Dev.straits d₀ d) : Keeps Dev.straits d₀ (d.notify n) := h.mapEvt

theorem straits_closeKnot {i early} (h : Keeps Dev.straits d₀ d) : Keeps Dev.straits d₀ (d.closeKnot i early) :=
  (Keeps.ite h.mapEvt h.mapRun).setKnot.unless straits_notify

theorem straits_takeKnot (h : Keeps Dev.straits d₀ d) : Keeps Dev.straits d₀ d.takeKnot.2 := by
  unfold Dev.takeKnot
  split
  · exact h
  · split
    · split
      · exact straits_closeKnot h
      · exact h
    · exact h

theorem straits_reportKnot {code origin qual reporter secs tick detail extra} (h : Keeps Dev.straits d₀ d) :
    Keeps Dev.straits d₀ (d.reportKnot code origin qual reporter secs tick detail extra) := by
  unfold Dev.reportKnot
  split
  · exact h.setKnot
  · exact (straits_takeKnot h).setKnot.mapRun.unless straits_notify

/-- The sums of the half cycles with their samples, the last boundary and Urms(½). -/
structure Halves where
  half0 : Rat
  hn0 : Nat
  half1 : Rat
  hn1 : Nat
  halfAt : Nat
  urms : Rat

def StraitSt.halves (x : StraitSt) : Halves :=
  { half0 := x.half0, hn0 := x.hn0, half1 := x.half1, hn1 := x.hn1, halfAt := x.halfAt, urms := x.urms }

def Dev.halves (k : Nat) (d : Dev) : Halves := (d.strait k).halves

theorem hn1_of_halves {x y : StraitSt} (h : x.halves = y.halves) : x.hn1 = y.hn1 := congrArg Halves.hn1 h

theorem halves_setCond (x : StraitSt) (kind : CondKind) (c : Option Cond) : (x.setCond kind c).halves = x.halves := by
  cases kind <;> rfl

section
variable (hn : (d₀.strait k).hn1 ≠ 0)
include hn

/-- With samples in the half cycle before, what leaves the half cycles alone reads back. -/
theorem halves_upStrait {f : StraitSt → StraitSt} (h : Keeps (Dev.halves k) d₀ d) (hf : ∀ x, (f x).halves = x.halves) :
    Keeps (Dev.halves k) d₀ (d.upStrait k f) := by
  have same : (f (d.strait k)).halves = (d₀.strait k).halves := (hf _).trans h.eq
  have listed : f (d.strait k) ≠ .init := fun init => hn ((hn1_of_halves same).symm.trans (congrArg StraitSt.hn1 init))
  refine ⟨?_⟩
  unfold Dev.halves
  rw [strait_upStrait listed, same]

theorem halves_endCond {kind b cut} (h : Keeps (Dev.halves k) d₀ d) : Keeps (Dev.halves k) d₀ (d.endCond k kind b cut) := by
  unfold Dev.endCond
  extract_lets pm det d₁
  have ended : Keeps (Dev.halves k) d₀ d₁ := halves_upStrait hn h fun x => halves_setCond x kind none
  exact ended.update (congrArg StraitSt.halves (strait_of_straits (straits_reportKnot (.refl d₁)) k))

theorem halves_refreshCond {u2 kind} (h : Keeps (Dev.halves k) d₀ d) : Keeps (Dev.halves k) d₀ (d.refreshCond k u2 kind) := by
  unfold Dev.refreshCond
  split
  · exact .ite (halves_endCond hn h) (halves_upStrait hn h fun x => halves_setCond x kind _)
  · exact h.when fun h => halves_upStrait hn h fun x => halves_setCond x kind _

end

/-- The mean square of the voltage over the last full cycle. -/
def Dev.cycleMs (d : Dev) (k : Nat) : Rat := max 0 (d.vWeight k * d.vWeight k *
  (((d.strait k).half0 + (d.strait k).half1) / (((d.strait k).hn0 + (d.strait k).hn1 : Nat) : Rat)))

theorem rollHalf_ne_init {x : StraitSt} (h : 0 < x.hn0) (now : Nat) : x.rollHalf now ≠ .init :=
  fun init => h.ne' (congrArg StraitSt.hn1 init)

/-- A refresh rolls the half cycles, and with a full cycle behind it takes Urms(½) before it tests the conditions. -/
theorem halfCycleRefresh_halves (hk : k < 16) (hon : s.dev.strOn k = true) (hq : s.dev.stPq k = true) (hm : s.dev.img.meter = true)
    (hd : s.dev.halfDue k = true) (hn : 0 < (s.dev.strait k).hn0) :
    gives (.halfCycleRefresh k) s (fun d => d.halves k = { (s.dev.strait k).rollHalf s.dev.clk.runTick with
      urms := if (s.dev.strait k).hn1 = 0 then (s.dev.strait k).urms else s.dev.cycleMs k }.halves) := by
  refine gives_of_onDev (onUnit_next (decide_eq_true hk)) ?_
  have due : ¬ (!(s.dev.strOn k && s.dev.stPq k && s.dev.img.meter && s.dev.halfDue k)) = true := by simp [hon, hq, hm, hd]
  rw [if_neg due]
  by_cases h1 : (s.dev.strait k).hn1 = 0
  · rw [if_pos h1]
    extract_lets x now n
    rw [if_pos (.inl h1)]
    exact congrArg StraitSt.halves (strait_upStrait (rollHalf_ne_init hn _))
  · rw [if_neg h1]
    extract_lets x now n u2 d₁ starts d₂
    have full : ¬ (x.hn1 = 0 ∨ n = 0) := fun h => h.elim h1 fun none => h1 (Nat.eq_zero_of_add_eq_zero_left none)
    rw [if_neg full]
    have rolled : d₁.strait k = { (s.dev.strait k).rollHalf s.dev.clk.runTick with urms := u2 } :=
      strait_upStrait fun init => hn.ne' (congrArg StraitSt.hn1 init)
    have samples : (d₁.strait k).hn1 ≠ 0 := by
      rw [rolled]
      exact hn.ne'
    have triggered : Keeps (Dev.halves k) d₁ d₂ := .ite (.refl _) (Keeps.update (.refl _) rfl)
    have tested := triggered.foldl (l := CondKind.all) (f := fun d kind => d.refreshCond k u2 kind)
      fun _ _ he => halves_refreshCond samples he
    exact tested.eq.trans (congrArg StraitSt.halves rolled)

theorem halfCycleRefresh_not_due (hk : k < 16)
    (h : s.dev.strOn k = false ∨ s.dev.stPq k = false ∨ s.dev.img.meter = false ∨ s.dev.halfDue k = false) :
    leaves (.halfCycleRefresh k) s s.dev := by
  refine leaves_of_onDev (onUnit_next (decide_eq_true hk)) ?_
  rcases h with off | noPq | idle | early
  · simp [off]
  · simp [noPq]
  · simp [idle]
  · simp [early]

/-- Settles O42: each command by what it leaves where it is due, and that it leaves the device where it is not. -/
theorem windowsCloseAndRefresh : Obligations.WindowsCloseAndRefresh := by
  refine ⟨fun s k x hk hon hl hx hn hc => ?_, fun s k hk hon hl hn => ?_, fun s k hk h => windowClose_not_due hk h,
    fun s k eng seq hk => ⟨fun w hw hon he => ?_, windowAnalysis_not_due hk⟩, fun s k hk hon hq hm hd hn => ?_,
    fun s k hk h => halfCycleRefresh_not_due hk h⟩
  · refine gives_of_leaves (windowClose_locked hk hon hl hx hn hc) ?_
    rw [strait_setStrait (ne_init_of_closed ?_)]
    · exact ⟨rfl, rfl, rfl, rfl, _, rfl, hl, rfl, rfl, rfl, rfl, rfl, rfl⟩
    · exact windowEnded_closed_ne_nil _ _
  · refine gives_of_leaves (windowClose_free hk hon hl hn) ?_
    rw [strait_setStrait (ne_init_of_closed ?_)]
    · exact ⟨rfl, _, rfl, hl, rfl, rfl⟩
    · exact windowEnded_closed_ne_nil _ _
  · subst he
    have listed : (s.dev.strait k).closed ≠ [] := List.ne_nil_of_mem (List.mem_of_find?_eq_some hw)
    obtain ⟨r, es, number, locked, results, others⟩ := windowResults_strait (w := w) listed
    refine gives_of_leaves (windowAnalysis_due hk hw hon) ?_
    rw [results]
    refine ⟨fun y hy hs => ?_, List.length_map _, number, locked, others⟩
    obtain ⟨z, -, rfl⟩ := List.mem_map.mp hy
    exact analysed_done hs
  · obtain ⟨t, ht, queue, halves⟩ := halfCycleRefresh_halves hk hon hq hm hd hn
    simp only [Dev.halves, StraitSt.halves, StraitSt.rollHalf, Halves.mk.injEq] at halves
    obtain ⟨half0, hn0, half1, hn1, halfAt, urms⟩ := halves
    exact ⟨t, ht, queue, half0, hn0, half1, hn1, halfAt, fun full => urms.trans (if_neg full.ne')⟩

end Sys2Proof.Machine
end

section
/-! Lanes and ferries (02_lanes R32, R45, R50 to R56). A lane's state reads back after a write as long as it is not what an
unlisted lane reads as; every event read back here leaves a field set that is clear there. Logging and the record of stand-ins leave
the lanes alone. -/

open Sys2Proof Sys2Proof.Machine Sys2Proof.Safety

namespace Sys2Proof.Machine

variable {s : State} {d₀ d e : Dev} {n f v : Nat}

/-! ### Reading a lane -/

theorem lane_upLane {g : LaneSt → LaneSt} (h : g (d.lane n) ≠ .init) : (d.upLane n g).lane n = g (d.lane n) :=
  tabGet_tabPut_of_ne_default _ _ _ h _

theorem lane_upLane_of_ne {j : Nat} {g : LaneSt → LaneSt} (h : j ≠ n) : (d.upLane n g).lane j = d.lane j :=
  tabGet_tabPut_of_ne _ h _ _

theorem lane_of_lanes (h : Keeps Dev.lanes d e) (k : Nat) : e.lane k = d.lane k := by
  unfold Dev.lane
  rw [h.eq]

theorem lanes_logNow {code origin detail} (h : Keeps Dev.lanes d₀ d) : Keeps Dev.lanes d₀ (d.logNow code origin detail) :=
  .unless (.ite h.mapEvt h.mapRun) (·.mapEvt)

theorem lanes_saveStandins (h : Keeps Dev.lanes d₀ d) : Keeps Dev.lanes d₀ d.saveStandins := h.update rfl

/-! ### Stuck lanes and estimated spans (R32, R45, R53) -/

/-- The span is the lane's; its elements take the means. -/
theorem lane_startEst {k : Nat} {zero : Bool} (j : Nat) :
    (d.startEst n k zero).lane j = (d.upLane n fun l => { l with estLeft := k, estZero := zero }).lane j :=
  lane_of_lanes (.forEach (.refl _) fun _ _ he => he.upElem) j

theorem laneStuck_lane (hn : n < 192) (hr : 1024 ≤ (s.dev.lane n).bitRun) (hs : (s.dev.lane n).stuck = false)
    (hf : (s.dev.lane n).failed = false) (hi : (s.dev.lane n).standin = none) :
    leaves (.laneStuck n) s
      ((s.dev.startEst n (3200 - s.dev.off) false).upLane n fun l => { l with stuck := true }) := by
  refine leaves_of_onDev (onUnit_next (decide_eq_true (by omega))) ?_
  simp [Nat.not_lt.mpr hr, hs, hf, hn, hi]

/-- A stuck ferry is a faulty one, and a faulty one stays so. -/
theorem laneStuck_ferry (hn : 192 + f < 200) (hr : 1024 ≤ (s.dev.lane (192 + f)).bitRun)
    (hs : (s.dev.lane (192 + f)).stuck = false) (hf : (s.dev.lane (192 + f)).failed = false) :
    leaves (.laneStuck (192 + f)) s (if (s.dev.lane (192 + f)).faulty then s.dev else s.dev.failFerry f) := by
  refine leaves_of_onDev (onUnit_next (decide_eq_true hn)) ?_
  simp [Nat.not_lt.mpr hr, hs, hf]

/-- The lane is stuck and its span runs to the end of the frame; no other lane changes. -/
theorem stuckLane_lanes (d : Dev) {k : Nat} (hr : 1024 ≤ (d.lane n).bitRun) :
    let e := (d.startEst n k false).upLane n fun l => { l with stuck := true }
    (e.lane n).stuck = true ∧ (e.lane n).estLeft = k ∧ ∀ j, j ≠ n → e.lane j = d.lane j := by
  have run : { d.lane n with estLeft := k, estZero := false } ≠ LaneSt.init :=
    fun init => absurd (congrArg LaneSt.bitRun init) (Nat.ne_of_gt (Nat.lt_of_lt_of_le (by decide) hr))
  dsimp only
  rw [lane_upLane (ne_of_apply_ne LaneSt.stuck (by simp [LaneSt.init])), lane_startEst, lane_upLane run]
  refine ⟨rfl, rfl, fun j hj => ?_⟩
  rw [lane_upLane_of_ne hj, lane_startEst, lane_upLane_of_ne hj]

theorem estimatedSpanEnd_over (hn : n < 192) (h : (s.dev.lane n).estLeft = 0) :
    leaves (.estimatedSpanEnd n) s (s.dev.setLane n { s.dev.lane n with estZero := false }) :=
  leaves_of_onDev (onUnit_next (decide_eq_true hn)) (if_pos h)

theorem estimatedSpanEnd_running (hn : n < 192) (h : (s.dev.lane n).estLeft ≠ 0) : leaves (.estimatedSpanEnd n) s s.dev :=
  leaves_of_onDev (onUnit_next (decide_eq_true hn)) (if_neg h)

/-! ### What a verdict does to the lanes (R51, R53, R54, R56) -/

theorem failFerry_lanes (d : Dev) (f : Nat) : ((d.failFerry f).lane (192 + f)).faulty = true ∧
    ∀ j, j ≠ 192 + f → (d.failFerry f).lane j = d.lane j := by
  have kept (j : Nat) : (d.failFerry f).lane j = (d.upLane (192 + f) fun l => { l with faulty := true }).lane j :=
    lane_of_lanes (lanes_logNow (.refl _)) j
  refine ⟨?_, fun j hj => ?_⟩
  · rw [kept, lane_upLane (ne_of_apply_ne LaneSt.faulty (by simp [LaneSt.init]))]
  · rw [kept, lane_upLane_of_ne hj]

theorem failLane_failed (d : Dev) (n : Nat) : ((d.failLane n).lane n).failed = true := by
  have kept : (d.failLane n).lane n = _ := lane_of_lanes (lanes_saveStandins (lanes_logNow (.refl _))) n
  rw [kept, lane_upLane (ne_of_apply_ne LaneSt.failed (by simp [LaneSt.init]))]

theorem placeStandIn_lanes (d : Dev) (h : n ≠ 192 + f) : ((d.placeStandIn n f).lane n).standin = some f ∧
    ((d.placeStandIn n f).lane (192 + f)).standFor = some n := by
  have kept (j : Nat) : (d.placeStandIn n f).lane j = _ := lane_of_lanes (lanes_saveStandins (lanes_logNow (.refl _))) j
  rw [kept, kept, lane_upLane_of_ne h, lane_upLane (ne_of_apply_ne LaneSt.standin (by simp [LaneSt.init])),
    lane_upLane (ne_of_apply_ne LaneSt.standFor (by simp [LaneSt.init]))]
  exact ⟨rfl, rfl⟩

/-- A trim is taken by the unit that serves the lane, whether or not the lane serves itself. -/
theorem takeTrim_lanes (d : Dev) (n : Nat) (t : Int × Int) :
    ((d.takeTrim n t).lane (d.serving n)).gTrim = t.1 ∧ ((d.takeTrim n t).lane (d.serving n)).dTrim = t.2 ∧
    ((d.takeTrim n t).lane (d.serving n)).trimAt = some d.clk.runTick ∧ ((d.takeTrim n t).lane n).inconcl = false := by
  have listed {x : LaneSt} (h : x.trimAt = some d.clk.runTick) : x ≠ .init := ne_of_apply_ne LaneSt.trimAt (by simp [h, LaneSt.init])
  have taken := lane_upLane (d := d) (n := d.serving n)
    (g := fun l => { l with gTrim := t.1, dTrim := t.2, trimAt := some d.clk.runTick, inconcl := false }) (listed rfl)
  unfold Dev.takeTrim
  dsimp only
  rw [lane_upLane (n := n) (listed rfl)]
  by_cases own : d.serving n = n
  · rw [own, lane_upLane (n := n) (listed rfl), ← own, taken]
    exact ⟨rfl, rfl, rfl, rfl⟩
  · rw [lane_upLane_of_ne own, taken]
    exact ⟨rfl, rfl, rfl, rfl⟩

/-! ### The end of a visit (R50, R51) -/

theorem ferryVisitEnd_due (hv : s.dev.visitLast = some v) (ha : awake s.dev) :
    leaves (.ferryVisitEnd v) s { s.dev with rot := { s.dev.rot with ending := some v } } :=
  leaves_of_onDev rfl (if_pos ⟨hv, ha⟩)

theorem ferryVisitEnd_not_due (h : s.dev.visitLast ≠ some v ∨ ¬ awake s.dev) : leaves (.ferryVisitEnd v) s s.dev :=
  leaves_of_onDev rfl (if_neg (not_and_or.mpr h))

theorem endVisit_ending (h : d.rot.ending = some v) :
    d.endVisit = ({ d with rot := { d.rot with ending := none } } : Dev).verdicts v := by
  unfold Dev.endVisit
  rw [h]

/-- The trim a visit finds for a lane; a stuck lane has none. -/
def Dev.foundTrim (d : Dev) (n f : Nat) : Option (Int × Int) :=
  if (d.lane n).stuck then none else visitTrim (d.laneWord n) (d.served n) (d.lane (192 + f))

theorem foundTrim_eq_none (h : (d.lane n).stuck = true ∨ visitTrim (d.laneWord n) (d.served n) (d.lane (192 + f)) = none) :
    d.foundTrim n f = none := ite_eq_left_iff.mpr h.resolve_left

theorem foundTrim_of_free (h : (d.lane n).stuck = false) :
    d.foundTrim n f = visitTrim (d.laneWord n) (d.served n) (d.lane (192 + f)) := if_neg (Bool.eq_false_iff.mp h)

/-- A lane that is visited is a lane in rotation, and so no ferry. -/
theorem visiting_lt (h : d.visiting f v = some n) : n < 192 := by
  obtain ⟨-, rot⟩ := Option.filter_eq_some_iff.mp h
  exact List.mem_range.mp (List.mem_filter.mp (of_decide_eq_true rot)).1

theorem visitEnd_of_refBad (h : (d.lane (192 + f)).refBad = true) : d.visitEnd v f = d.failFerry f := if_pos h

section
variable (hb : (d.lane (192 + f)).refBad = false) (hv : d.visiting f v = some n)
include hb hv

theorem visitEnd_inconclusive (h : d.foundTrim n f = none) : d.visitEnd v f = d.upLane n fun l => { l with inconcl := true } := by
  unfold Dev.foundTrim at h
  simp [Dev.visitEnd, hb, hv, h]

theorem visitEnd_within {t : Int × Int} (h : d.foundTrim n f = some t) (ht : trimBad t = false) : d.visitEnd v f = d.takeTrim n t := by
  unfold Dev.foundTrim at h
  simp [Dev.visitEnd, hb, hv, h, ht]

theorem visitEnd_beyond {t : Int × Int} (h : d.foundTrim n f = some t) (ht : trimBad t = true) (hi : (d.lane n).standin = none) :
    d.visitEnd v f = if 6 ≤ d.standins.length then d.failLane n else d.placeStandIn n f := by
  unfold Dev.foundTrim at h
  simp [Dev.visitEnd, hb, hv, h, ht, hi]

/-- A stand-in that is visited and found beyond the bounds is a faulty ferry. -/
theorem visitEnd_standin_beyond {t : Int × Int} {g : Nat} (h : d.foundTrim n f = some t) (ht : trimBad t = true)
    (hi : (d.lane n).standin = some g) : d.visitEnd v f = d.failFerry g := by
  unfold Dev.foundTrim at h
  simp [Dev.visitEnd, hb, hv, h, ht, hi, Dev.serving]

end

/-- Settles O43: each event by the device it leaves, and a visit's verdict by its trim. -/
theorem laneEventsTakeEffect : Obligations.LaneEventsTakeEffect := by
  refine ⟨fun s n hn hr hs hf hi => ?_, fun s n hn hm hr hs hf => ?_,
    fun s n hn => ⟨estimatedSpanEnd_over hn, estimatedSpanEnd_running hn⟩, fun s v => ⟨ferryVisitEnd_due, ferryVisitEnd_not_due⟩,
    fun d v => endVisit_ending, fun d v f bad => ?_,
    fun d v f n bad hv => ⟨fun h => ?_, fun t free trim => ?_⟩⟩
  · exact gives_of_leaves (laneStuck_lane hn hr hs hf hi) (stuckLane_lanes s.dev hr)
  · obtain ⟨f, rfl⟩ := Nat.exists_eq_add_of_le hn
    refine gives_of_leaves (laneStuck_ferry hm hr hs hf) ?_
    split
    next old => exact ⟨old, fun j _ => rfl⟩
    next => exact failFerry_lanes s.dev f
  · rw [visitEnd_of_refBad bad]
    exact failFerry_lanes d f
  · rw [visitEnd_inconclusive bad hv (foundTrim_eq_none h)]
    exact ⟨by rw [lane_upLane (ne_of_apply_ne LaneSt.inconcl (by simp [LaneSt.init]))], fun j hj => lane_upLane_of_ne hj⟩
  · have found : d.foundTrim n f = some t := (foundTrim_of_free free).trans trim
    refine ⟨fun within => ?_, fun beyond own few => ?_, fun beyond own full => ?_, fun g beyond standin => ?_⟩
    · rw [visitEnd_within bad hv found within]
      exact takeTrim_lanes d n t
    · rw [visitEnd_beyond bad hv found beyond own, if_neg (Nat.not_le.mpr few)]
      exact placeStandIn_lanes d (by have := visiting_lt hv; omega)
    · rw [visitEnd_beyond bad hv found beyond own, if_pos full]
      exact failLane_failed d n
    · rw [visitEnd_standin_beyond bad hv found beyond standin]
      exact (failFerry_lanes d g).1

end Sys2Proof.Machine
end

section
/-! RTD inputs (02_lanes R36, R37). A result depends on the averager and the trim of the unit that serves the lane, and writes neither,
so the results of a second are taken independently of each other. -/

open Sys2Proof Sys2Proof.Machine Sys2Proof.Safety

namespace Sys2Proof.Machine

variable {s : State} {d : Dev} {n : Nat}

/-! ### The excitation of RTD inputs (R36) -/

theorem rtdRequest_due (ht : s.dev.clk.tick = 15999) (hl : s.dev.rtdLanes ≠ []) (ho : s.dev.outstanding .rtd = false) :
    leaves .rtdRequest s (s.dev.mapPwr fun p => { p with reqs := p.reqs ++
      [{ who := .rtd, cls := 6, k := (s.dev.rtdLanes.length + 15) / 16, d := 3200, filed := s.dev.clk.runTick, seen := 0,
         until_ := 0 }] }) := by
  refine leaves_of_onDev rfl ?_
  simp [ht, hl, Dev.file, ho, cdiv]

theorem excite_at_start (h : d.clk.tick = 0) (granted : Bool) :
    d.excite granted = if granted then { d with rtdOn := true } else { d.withdraw .rtd with rtdOn := false } := by
  simp [Dev.excite, h]

theorem excite_at_end (h : d.clk.tick = 3200) (granted : Bool) :
    d.excite granted = { d with rtdOn := false, rtdDone := d.rtdOn } := by
  simp [Dev.excite, h]

theorem excite_between (h0 : d.clk.tick ≠ 0) (h1 : d.clk.tick ≠ 3200) (h2 : d.clk.tick ≠ 3201) (granted : Bool) :
    d.excite granted = d := by
  simp [Dev.excite, h0, h1, h2]

theorem not_mem_reqs_withdraw {w : Requester} {r : Draw} (h : r ∈ (d.withdraw w).pwr.reqs) : r.who ≠ w :=
  of_decide_eq_true (List.mem_filter.mp h).2

/-! ### The held code (R36, R37) -/

/-- The code of a result: the averager's output of the unit that serves the lane, trimmed. -/
def Dev.rtdCode (d : Dev) (n : Nat) : Int :=
  roundOpen 24 (avgOut (laneResp (d.laneWord n)) (d.served n).avg * (d.served n).gain)

/-- A lane that takes a code as its result. -/
def LaneSt.withResult (x : LaneSt) (held : Int) (now : Nat) : LaneSt :=
  { x with
    held := held, heldAt := some now, rtdOpen := decide (6710886 < held) || (decide (held < 838861) && x.rtdOpen),
    rtdShort := decide (held < 838861) || (decide (6710886 < held) && x.rtdShort),
    rtdStale := (decide (6710886 < held) || decide (held < 838861)) && x.rtdStale }

theorem lane_rtdResult (d : Dev) (m : Nat) :
    (d.rtdResult m).lane m = (d.lane m).withResult (d.rtdCode m) d.clk.runTick :=
  lane_upLane (ne_of_apply_ne LaneSt.heldAt (by simp [LaneSt.init]))

theorem lane_rtdResult_of_ne {m k : Nat} (h : k ≠ m) : (d.rtdResult m).lane k = d.lane k := lane_upLane_of_ne h

/-- A result touches no lane's averager, trim or stand-in, and so no other result. -/
theorem rtdCode_rtdResult (d : Dev) (m n : Nat) : (d.rtdResult m).rtdCode n = d.rtdCode n := by
  have kept (k : Nat) : ((d.rtdResult m).lane k).avg = (d.lane k).avg ∧ ((d.rtdResult m).lane k).gain = (d.lane k).gain ∧
      ((d.rtdResult m).lane k).standin = (d.lane k).standin := by
    by_cases hk : k = m
    · rw [hk, lane_rtdResult]
      exact ⟨rfl, rfl, rfl⟩
    · rw [lane_rtdResult_of_ne hk]
      exact ⟨rfl, rfl, rfl⟩
  have word : (d.rtdResult m).laneWord n = d.laneWord n := rfl
  have serving : (d.rtdResult m).serving n = d.serving n := by
    obtain ⟨-, -, standin⟩ := kept n
    unfold Dev.serving
    rw [standin]
  obtain ⟨avg, gain, -⟩ := kept (d.serving n)
  unfold Dev.rtdCode Dev.served
  rw [word, serving, avg, gain]

/-- Of distinct lanes each takes its own result, and no other lane changes. -/
theorem lane_forEach_rtdResult {l : List Nat} (hl : l.Nodup) (d : Dev) (n : Nat) :
    (d.forEach l fun n d => d.rtdResult n).lane n =
      if n ∈ l then (d.lane n).withResult (d.rtdCode n) d.clk.runTick else d.lane n := by
  induction l generalizing d with
  | nil => rfl
  | cons m l ih =>
    obtain ⟨fresh, rest⟩ := List.nodup_cons.mp hl
    have later : (d.forEach (m :: l) fun n d => d.rtdResult n).lane n = _ := ih rest (d.rtdResult m)
    have now : (d.rtdResult m).clk.runTick = d.clk.runTick := rfl
    rw [later, rtdCode_rtdResult, now]
    by_cases first : n = m
    · subst first
      rw [if_neg fresh, if_pos List.mem_cons_self, lane_rtdResult]
    · simp only [lane_rtdResult_of_ne first, List.mem_cons, first, false_or]

theorem nodup_rtdLanes (d : Dev) : d.rtdLanes.Nodup := List.nodup_range.filter _

/-- The results of the second are taken. -/
def Dev.rtdResults (d : Dev) : Dev := { d.forEach d.rtdLanes (fun n d => d.rtdResult n) with rtdDone := false }

/-- The RTD pairs deliver their codes. -/
def Dev.deliverPairs (d : Dev) : Dev :=
  d.forEach ((List.range 192).filter fun e => d.elKind e == 3) fun e d => d.pairCodes e

theorem rtdResult_due (ht : s.dev.clk.tick = 3200) (hd : s.dev.rtdDone = true) :
    leaves .rtdResult s s.dev.rtdResults.deliverPairs :=
  leaves_of_onDev rfl (if_pos ⟨ht, hd⟩)

theorem rtdResult_not_due (h : s.dev.clk.tick ≠ 3200 ∨ s.dev.rtdDone = false) : leaves .rtdResult s s.dev := by
  refine leaves_of_onDev rfl (if_neg fun due => ?_)
  obtain ⟨tick, done⟩ := due
  simp [tick, done] at h

/-- Delivering the pairs' codes changes elements only. -/
theorem keeps_deliverPairs {α : Type} {p : Dev → α} (hp : ∀ d n x, p (Dev.setElem d n x) = p d) (d : Dev) :
    Keeps p d d.deliverPairs := .forEach (.refl d) fun _ _ he => he.update (hp _ _ _)

theorem lane_deliverPairs_rtdResults (d : Dev) (n : Nat) : d.rtdResults.deliverPairs.lane n =
    if n ∈ d.rtdLanes then (d.lane n).withResult (d.rtdCode n) d.clk.runTick else d.lane n :=
  (lane_of_lanes (keeps_deliverPairs (fun _ _ _ => rfl) d.rtdResults) n).trans (lane_forEach_rtdResult (nodup_rtdLanes d) d n)

/-- A result in range clears the status bits; one beyond a limit sets that limit's bit and leaves the others. -/
theorem withResult_bits (x : LaneSt) (held : Int) (now : Nat) :
    let y := x.withResult held now
    (838861 ≤ held → held ≤ 6710886 → y.rtdOpen = false ∧ y.rtdShort = false ∧ y.rtdStale = false) ∧
    (6710886 < held → y.rtdOpen = true ∧ y.rtdShort = x.rtdShort ∧ y.rtdStale = x.rtdStale) ∧
    (held < 838861 → y.rtdShort = true ∧ y.rtdOpen = x.rtdOpen ∧ y.rtdStale = x.rtdStale) := by
  refine ⟨fun lo hi => ?_, fun high => ?_, fun low => ?_⟩
  · simp [LaneSt.withResult, Int.not_lt.mpr lo, Int.not_lt.mpr hi]
  · have notLow : ¬ held < 838861 := by omega
    simp [LaneSt.withResult, high, notLow]
  · have notHigh : ¬ 6710886 < held := by omega
    simp [LaneSt.withResult, low, notHigh]

theorem rtdStale_old {t : Nat} (hn : n < 192) (hm : laneMode (s.dev.laneWord n) = 4) (hh : (s.dev.lane n).heldAt = some t)
    (ho : 48000 < s.dev.clk.runTick - t) : leaves (.rtdStale n) s (s.dev.upLane n fun l => { l with rtdStale := true }) := by
  refine leaves_of_onDev (onUnit_next (decide_eq_true hn)) ?_
  simp [hm, hh, ho]

theorem rtdStale_recent {t : Nat} (hn : n < 192) (hh : (s.dev.lane n).heldAt = some t) (ho : s.dev.clk.runTick - t ≤ 48000) :
    leaves (.rtdStale n) s s.dev := by
  refine leaves_of_onDev (onUnit_next (decide_eq_true hn)) ?_
  simp [hh, Nat.not_lt.mpr ho]

/-- Settles O44: the request and the excitation by what they leave, the results by `lane_deliverPairs_rtdResults`. -/
theorem rtdLanesAreExcitedAndHeld : Obligations.RtdLanesAreExcitedAndHeld := by
  refine ⟨fun s ht hl ho => gives_of_leaves (rtdRequest_due ht hl ho) ⟨rfl, rfl⟩,
    fun d => ⟨fun h => ?_, fun g h => ?_, fun g h0 h1 h2 => excite_between h0 h1 h2 g⟩, fun s ht hd => ?_,
    fun s => rtdResult_not_due, fun s n t hn hm hh => ⟨fun old => ?_, rtdStale_recent hn hh⟩⟩
  · rw [excite_at_start h, excite_at_start h]
    exact ⟨rfl, rfl, fun r hr => not_mem_reqs_withdraw hr⟩
  · rw [excite_at_end h]
    exact ⟨rfl, rfl⟩
  · refine gives_of_leaves (rtdResult_due ht hd) ⟨?_, fun n hn => ?_, fun n hn => ?_⟩
    · exact (keeps_deliverPairs (p := Dev.rtdDone) (fun _ _ _ => rfl) _).eq
    · rw [lane_deliverPairs_rtdResults, if_pos hn]
      exact ⟨rfl, rfl, withResult_bits _ _ _⟩
    · rw [lane_deliverPairs_rtdResults, if_neg hn]
  · refine gives_of_leaves (rtdStale_old hn hm hh old) ⟨?_, fun j hj => lane_upLane_of_ne hj⟩
    rw [lane_upLane (ne_of_apply_ne LaneSt.rtdStale (by simp [LaneSt.init]))]

end Sys2Proof.Machine
end

section
/-! Tracking of a strait (03_straits_elements R63). A counted crossing ends a period and the period's verdict is one update of the
strait (`crossed_eq`); a strait with a counted crossing is never what an unlisted strait reads as, so every update reads back. -/

open Sys2Proof Sys2Proof.Machine Sys2Proof.Safety

namespace Sys2Proof.Machine

variable {s : State} {d : Dev} {k pos peak x : Nat}

theorem ne_init_of_cross {y : StraitSt} (h : y.cross = some x) : y ≠ .init :=
  ne_of_apply_ne StraitSt.cross (h.trans_ne (Option.some_ne_none x))

/-! ### The loss of lock -/

/-- The strait without lock: the loss is counted when it was locked. -/
def StraitSt.unlocked (y : StraitSt) (c : Word) (start : Nat) : StraitSt :=
  if y.locked then
    ({ y with locked := false, qual := 0, freq := 0, qnext := some c, unlocks := satU 32 (y.unlocks + 1), halfK := 0 }).newWindow start
  else { y with qual := 0 }

theorem unlocked_of_locked {y : StraitSt} (h : y.locked = true) (c : Word) (start : Nat) : y.unlocked c start =
    ({ y with locked := false, qual := 0, freq := 0, qnext := some c, unlocks := satU 32 (y.unlocks + 1), halfK := 0 }).newWindow
      start := if_pos h

theorem unlocked_of_free {y : StraitSt} (h : y.locked = false) (c : Word) (start : Nat) : y.unlocked c start = { y with qual := 0 } := by
  simp [StraitSt.unlocked, h]

theorem unlocked_fields (y : StraitSt) (c : Word) (start : Nat) : (y.unlocked c start).locked = false ∧
    (y.unlocked c start).qual = 0 ∧ (y.unlocked c start).cross = y.cross ∧ (y.unlocked c start).armed = y.armed := by
  cases h : y.locked with
  | true =>
    rw [unlocked_of_locked h]
    exact ⟨rfl, rfl, rfl, rfl⟩
  | false =>
    rw [unlocked_of_free h]
    exact ⟨h, rfl, rfl, rfl⟩

theorem unlock_eq (d : Dev) (k : Nat) :
    d.unlock k = d.upStrait k fun y => y.unlocked (d.nominalC k) (d.clk.runTick * 65536) := rfl

theorem strait_unlock (h : (d.strait k).cross = some x) :
    (d.unlock k).strait k = (d.strait k).unlocked (d.nominalC k) (d.clk.runTick * 65536) := by
  obtain ⟨-, -, cross, -⟩ := unlocked_fields (d.strait k) (d.nominalC k) (d.clk.runTick * 65536)
  rw [unlock_eq, strait_upStrait]
  exact ne_init_of_cross (cross.trans h)

/-! ### The verdict on a period -/

/-- The strait at the crossing that ends a period. -/
def StraitSt.atCrossing (y : StraitSt) (pos x : Nat) : StraitSt :=
  { y with cross := some pos, armed := false, peak := 0, period := satU 32 (pos - x) }

/-- The device with the strait at that crossing, its period not judged yet. -/
def Dev.atCrossing (d : Dev) (k pos x : Nat) : Dev :=
  (d.upStrait k fun y => { y with cross := some pos, armed := false, peak := 0 }).upStrait k fun y =>
    { y with period := satU 32 (pos - x) }

/-- What a period that qualifies, or does not, makes of the strait. -/
def StraitSt.judged (y : StraitSt) (ok : Bool) (pos : Nat) (c : Word) (start : Nat) : StraitSt :=
  if ok then
    if y.locked then { y with wCount := y.wCount + 1 }
    else if 4 ≤ y.qual then ({ y with qual := 5, locked := true }).newWindow pos
    else { y with qual := y.qual + 1 }
  else y.unlocked c start

theorem strait_atCrossing (d : Dev) (k pos x : Nat) : (d.atCrossing k pos x).strait k = (d.strait k).atCrossing pos x := by
  have counted : (d.upStrait k fun y => { y with cross := some pos, armed := false, peak := 0 }).strait k =
      { d.strait k with cross := some pos, armed := false, peak := 0 } := strait_upStrait (ne_init_of_cross rfl)
  unfold Dev.atCrossing
  rw [strait_upStrait (ne_init_of_cross (by rw [counted])), counted]
  rfl

theorem judged_keeps (y : StraitSt) (ok : Bool) (pos : Nat) (c : Word) (start : Nat) :
    (y.judged ok pos c start).cross = y.cross ∧ (y.judged ok pos c start).armed = y.armed := by
  obtain ⟨-, -, cross, armed⟩ := unlocked_fields y c start
  unfold StraitSt.judged
  split_ifs
  · exact ⟨rfl, rfl⟩
  · exact ⟨rfl, rfl⟩
  · exact ⟨rfl, rfl⟩
  · exact ⟨cross, armed⟩

/-- A counted crossing with one before it ends a period, and the verdict on the period is one more update of the strait. -/
theorem crossed_eq (h : (d.strait k).cross = some x) : d.crossed k pos peak = (d.atCrossing k pos x).upStrait k fun y =>
    y.judged (periodOk (pos - x) peak (d.trackMin k)) pos (d.nominalC k) (d.clk.runTick * 65536) := by
  have locked : (d.strait k).locked = ((d.atCrossing k pos x).strait k).locked := by rw [strait_atCrossing, StraitSt.atCrossing]
  have qual : (d.strait k).qual = ((d.atCrossing k pos x).strait k).qual := by rw [strait_atCrossing, StraitSt.atCrossing]
  simp only [Dev.crossed, h]
  change (if periodOk (pos - x) peak (d.trackMin k) then _ else _) = (d.atCrossing k pos x).setStrait k (StraitSt.judged _ _ _ _ _)
  unfold StraitSt.judged
  rw [locked, qual]
  split_ifs <;> rfl

theorem strait_crossed (h : (d.strait k).cross = some x) : (d.crossed k pos peak).strait k =
    ((d.strait k).atCrossing pos x).judged (periodOk (pos - x) peak (d.trackMin k)) pos (d.nominalC k) (d.clk.runTick * 65536) := by
  rw [crossed_eq h, strait_upStrait, strait_atCrossing]
  exact ne_init_of_cross ((judged_keeps _ _ _ _ _).1.trans (congrArg StraitSt.cross (strait_atCrossing d k pos x)))

theorem strait_crossed_of_ne {j : Nat} (h : (d.strait k).cross = some x) (hj : j ≠ k) :
    (d.crossed k pos peak).strait j = d.strait j := by
  rw [crossed_eq h, strait_upStrait_of_ne hj, Dev.atCrossing, strait_upStrait_of_ne hj, strait_upStrait_of_ne hj]

/-! ### The verdicts one by one -/

section
variable {y : StraitSt} (c : Word) (start : Nat)

theorem judged_locks (hl : y.locked = false) (hq : y.qual = 4) :
    y.judged true pos c start = ({ y with qual := 5, locked := true }).newWindow pos := by simp [StraitSt.judged, hl, hq]

theorem judged_qualifies (hl : y.locked = false) (hq : y.qual < 4) : y.judged true pos c start = { y with qual := y.qual + 1 } := by
  simp [StraitSt.judged, hl, Nat.not_le.mpr hq]

theorem judged_cycle (hl : y.locked = true) : y.judged true pos c start = { y with wCount := y.wCount + 1 } := by
  simp [StraitSt.judged, hl]

theorem judged_unlocks : y.judged false pos c start = y.unlocked c start := rfl

end

/-! ### The commands -/

theorem zeroCrossing_leaves {sub : Nat} (hk : k < 16) : leaves (.zeroCrossing k sub peak) s
    (if s.dev.strOn k = true ∧ s.dev.crossing k = some (sub, peak) then s.dev.crossed k (s.dev.clk.runTick * 65536 + sub) peak
     else s.dev) :=
  leaves_of_onDev (onUnit_next (decide_eq_true hk)) (by simp)

theorem trackingTimeout_due (hk : k < 16) (hon : s.dev.strOn k = true) (hx : (s.dev.strait k).cross = some x)
    (ht : x / 65536 + 400 ≤ s.dev.clk.runTick) : leaves (.trackingTimeout k) s (s.dev.unlock k) :=
  leaves_of_onDev (onUnit_next (decide_eq_true hk)) (by simp [hx, hon, ht])

theorem trackingTimeout_not_due (hk : k < 16) (hx : (s.dev.strait k).cross = some x)
    (ht : s.dev.clk.runTick < x / 65536 + 400) : leaves (.trackingTimeout k) s s.dev :=
  leaves_of_onDev (onUnit_next (decide_eq_true hk)) (by simp [hx, Nat.not_le.mpr ht])

/-- Settles O41: a counted crossing by the verdict on its period (`strait_crossed`), a timeout by what the loss of lock leaves. -/
theorem straitTrackingLocksAndUnlocks : Obligations.StraitTrackingLocksAndUnlocks := by
  refine ⟨fun s k sub peak hk => zeroCrossing_leaves hk, fun d k pos peak x hx => ?_, fun s k x hk hon hx =>
    ⟨fun old => ?_, trackingTimeout_not_due hk hx⟩⟩
  · dsimp only
    rw [strait_crossed hx]
    obtain ⟨cross, armed⟩ := judged_keeps ((d.strait k).atCrossing pos x) (periodOk (pos - x) peak (d.trackMin k)) pos (d.nominalC k)
      (d.clk.runTick * 65536)
    refine ⟨cross, armed, fun j hj => strait_crossed_of_ne hx hj, fun ok free fifth => ?_, fun ok free few => ?_, fun ok locked => ?_,
      fun bad => ?_⟩
    · rw [ok, judged_locks]
      exacts [⟨rfl, rfl, rfl, rfl⟩, free, fifth]
    · rw [ok, judged_qualifies]
      exacts [⟨free, rfl⟩, free, few]
    · rw [ok, judged_cycle]
      exacts [⟨locked, rfl⟩, locked]
    · rw [bad, judged_unlocks]
      obtain ⟨free, none, -, -⟩ := unlocked_fields ((d.strait k).atCrossing pos x) (d.nominalC k) (d.clk.runTick * 65536)
      refine ⟨free, none, fun locked => ?_⟩
      rw [unlocked_of_locked]
      exacts [⟨rfl, rfl, rfl⟩, locked]
  · obtain ⟨free, none, -, -⟩ := unlocked_fields (s.dev.strait k) (s.dev.nominalC k) (s.dev.clk.runTick * 65536)
    refine gives_of_leaves (trackingTimeout_due hk hon hx old) ⟨?_, ?_, fun j hj => strait_upStrait_of_ne hj, rfl⟩
    · rw [strait_unlock hx, free]
    · rw [strait_unlock hx, none]

end Sys2Proof.Machine
end

section
/-! Waveform capture (04_isles_windows R103, R104). The two commands answer what their access gives; a trigger served leaves the
slots as a table read, and what its conditions are told is no part of them. -/

open Sys2Proof Sys2Proof.Machine Sys2Proof.Safety

namespace Sys2Proof.Machine

variable {s : State} {d e : Dev} {c k trig time : Nat}

/-! ### Reading a slot -/

theorem cap_setCap {x : CapSlot} (h : x ≠ .free) : (d.setCap c x).cap c = x := tabGet_tabPut_of_ne_default _ _ _ h _

theorem cap_setCap_of_ne {b : Nat} {x : CapSlot} (h : b ≠ c) : (d.setCap c x).cap b = d.cap b := tabGet_tabPut_of_ne _ h _ _

theorem ne_free_of_state {x : CapSlot} (h : x.state ≠ 0) : x ≠ .free := ne_of_apply_ne CapSlot.state h

/-- A slot is free among the four exactly when their count of free ones is not 0. -/
theorem free_count_pos : 0 < ((List.range 4).filter fun c => (d.cap c).state == 0).length ↔ ∃ c, c < 4 ∧ (d.cap c).state = 0 := by
  simp [List.length_pos_iff_exists_mem]

/-- With no trigger waiting, a strait has a slot left in its own capture or in a free one. -/
theorem slotLeft_of_no_request (h : d.capReq = []) :
    d.slotLeft k = true ↔ (d.capFilling k).isSome = true ∨ ∃ c, c < 4 ∧ (d.cap c).state = 0 := by
  rw [← free_count_pos]
  simp [Dev.slotLeft, h]

/-! ### CAPTURE -/

/-- What an admitted CAPTURE of a strait gives. -/
def Dev.captureBody (d : Dev) (k : Nat) : Status × List Byte × Dev :=
  if 16 ≤ k ∨ d.strOn k = false ∨ d.stCapture k = false then (.range, [], d)
  else if d.slotLeft k then (.done, [], d.trigger k 8 d.timeTicks) else (.busy, [], d)

theorem captureBody_of_enabled (hk : k < 16) (on : d.strOn k = true) (cap : d.stCapture k = true) :
    d.captureBody k = if d.slotLeft k then (.done, [], d.trigger k 8 d.timeTicks) else (.busy, [], d) :=
  if_neg (by simp [hk, on, cap])

theorem capture_leaves {l : Link} {k : Byte} {x : Bool} {st : Status} {p : List Byte}
    (ha : admitCmd s.dev l 0x24 [k] false true = some (x, e)) (hb : e.captureBody k.toNat = (st, p, d)) :
    leaves (.capture l [k]) s (answered d l st p) := by
  have answers : leaves (.capture l [k]) s
      (answered (e.captureBody k.toNat).2.2 l (e.captureBody k.toNat).1 (e.captureBody k.toNat).2.1) :=
    leaves_of_onDev rfl (exec_of_admitCmd ha _)
  rwa [hb] at answers

/-! ### CAPTURE_RELEASE -/

/-- What an admitted CAPTURE_RELEASE of a slot gives. -/
def Dev.releaseBody (d : Dev) (c : Nat) : Status × List Byte × Dev :=
  if 4 ≤ c then (.range, [], d) else if (d.cap c).state = 1 then (.busy, [], d) else (.done, [], d.setCap c .free)

theorem releaseBody_of_slot (hc : c < 4) :
    d.releaseBody c = if (d.cap c).state = 1 then (.busy, [], d) else (.done, [], d.setCap c .free) :=
  if_neg (Nat.not_le.mpr hc)

theorem captureRelease_leaves {l : Link} {c : Byte} {x : Bool} {st : Status} {p : List Byte}
    (ha : admitCmd s.dev l 0x25 [c] false true = some (x, e)) (hb : e.releaseBody c.toNat = (st, p, d)) :
    leaves (.captureRelease l [c]) s (answered d l st p) := by
  have answers : leaves (.captureRelease l [c]) s
      (answered (e.releaseBody c.toNat).2.2 l (e.releaseBody c.toNat).1 (e.releaseBody c.toNat).2.1) :=
    leaves_of_onDev rfl (exec_of_admitCmd ha _)
  rwa [hb] at answers

/-! ### A trigger served -/

theorem serveTrigger_own (on : d.stCapture k = true) (own : d.capFilling k = some c) :
    d.serveTrigger (k, trig, time) = d.setCap c { d.cap c with retrig := satU 16 ((d.cap c).retrig + 1) } := by
  simp [Dev.serveTrigger, on, own]

theorem serveTrigger_takes (on : d.stCapture k = true) (idle : d.capFilling k = none)
    (free : (List.range 4).find? (fun c => (d.cap c).state == 0) = some c) :
    d.serveTrigger (k, trig, time) = (d.startCapture c k trig time).tellConds k (some c) false := by
  simp only [Dev.serveTrigger, on, idle, free, Bool.not_true, Bool.false_eq_true, if_false]

theorem serveTrigger_lost (on : d.stCapture k = true) (idle : d.capFilling k = none)
    (full : ∀ c, c < 4 → (d.cap c).state ≠ 0) : d.serveTrigger (k, trig, time) = d.tellConds k none true := by
  have no_free : (List.range 4).find? (fun c => (d.cap c).state == 0) = none := by
    simpa [List.find?_eq_none] using full
  simp only [Dev.serveTrigger, on, idle, no_free, Bool.not_true, Bool.false_eq_true, if_false]

theorem cap_tellConds {slot : Option Nat} {lost : Bool} (b : Nat) : (d.tellConds k slot lost).cap b = d.cap b := rfl

theorem cap_startCapture : ∃ x : CapSlot, (d.startCapture c k trig time).cap c = x ∧ x.state = 1 ∧ x.strait = k ∧ x.trig = trig :=
  ⟨_, cap_setCap (ne_free_of_state Nat.one_ne_zero), rfl, rfl, rfl⟩

theorem cap_startCapture_of_ne {b : Nat} (h : b ≠ c) : (d.startCapture c k trig time).cap b = d.cap b :=
  cap_setCap_of_ne h

/-! ### CAPTURE_COMPLETE -/

theorem captureComplete_leaves (hc : c < 4) (filling : (s.dev.cap c).state = 1) (stored : (s.dev.cap c).want ≤ (s.dev.cap c).total) :
    leaves (.captureComplete c) s (s.dev.setCap c { s.dev.cap c with state := 2 }) :=
  leaves_of_onDev (onUnit_next (decide_eq_true hc)) (if_pos ⟨filling, stored⟩)

/-- Settles O27: the commands by what their access gives, the three cases of a trigger by what `serveTrigger` leaves. -/
theorem captureSlotsAreTakenAndFreed : Obligations.CaptureSlotsAreTakenAndFreed := by
  refine ⟨fun s l k x e ha => ⟨fun hk on cap => ?_, fun bad => capture_leaves ha (if_pos bad)⟩, fun d k trig time on => ?_,
    fun s l c x e ha => ⟨fun hc idle => ?_, fun hc filling => ?_, fun hc => captureRelease_leaves ha (if_pos hc)⟩,
    fun s c hc filling stored => ?_⟩
  · have body := captureBody_of_enabled hk on cap
    exact ⟨fun left => capture_leaves ha (body.trans (if_pos left)),
      fun full => capture_leaves ha (body.trans (if_neg (by simp [full]))), slotLeft_of_no_request⟩
  · refine ⟨fun c own => serveTrigger_own on own, fun idle c free => ?_, fun idle full => ?_⟩
    · obtain ⟨x, taken, state, strait, trigger⟩ := cap_startCapture (d := d) (c := c) (k := k) (trig := trig) (time := time)
      rw [serveTrigger_takes on idle free, cap_tellConds, taken]
      exact ⟨state, strait, trigger, rfl, fun b hb => cap_startCapture_of_ne hb⟩
    · rw [serveTrigger_lost on idle full]
      exact ⟨rfl, rfl⟩
  · exact captureRelease_leaves ha ((releaseBody_of_slot hc).trans (if_neg idle))
  · exact captureRelease_leaves ha ((releaseBody_of_slot hc).trans (if_pos filling))
  · refine gives_of_leaves (captureComplete_leaves hc filling stored) ⟨rfl, ?_⟩
    rw [cap_setCap (ne_free_of_state (by simp))]

end Sys2Proof.Machine
end

section
/-! The carry of a bank value (04_isles_windows R88). Both halves of the carry split a number into quotient and remainder: the sum
of residue and bank by 2^16, the accumulator by 2^24. -/

open Sys2Proof Sys2Proof.Machine Sys2Proof.Safety

namespace Sys2Proof.Machine

variable {a : Fine} {b : Int}

/-- The accumulator of step 2 of R88, whole quanta still in it. -/
def Fine.summed (a : Fine) (b : Int) : Int := a.f + (a.r + b) / 65536

theorem carry_accumulator : (a.carry b).1.f = a.summed b % 2 ^ 24 := rfl

theorem carry_residue : ((a.carry b).1.r : Int) = (a.r + b) % 65536 :=
  Int.toNat_of_nonneg (Int.emod_nonneg _ (by decide))

theorem summed_nonneg (hf : 0 ≤ a.f) (hb : 0 ≤ b) : 0 ≤ a.summed b := by
  unfold Fine.summed
  omega

/-- A non-negative accumulator gives up its whole quanta: none of them is cut off at 0. -/
theorem carry_quanta (hf : 0 ≤ a.f) (hb : 0 ≤ b) : ((a.carry b).2 : Int) = a.summed b / 2 ^ 24 :=
  Int.toNat_of_nonneg (Int.ediv_nonneg (summed_nonneg hf hb) (by decide))

/-- Steps 1 and 2 of R88 move energy from residue and bank to the accumulator. -/
theorem summed_energy (a : Fine) (b : Int) : a.summed b * 65536 + (a.r + b) % 65536 = a.f * 65536 + a.r + b := by
  unfold Fine.summed
  omega

/-- Settles O38, with `carry_quanta` for the whole quanta and `summed_energy` for the residue. -/
theorem carryConservesEnergy : Obligations.CarryConservesEnergy := by
  intro a b hf hb y
  have energy := summed_energy a b
  have acc : y.1.f = a.summed b % 2 ^ 24 := carry_accumulator
  have res : (y.1.r : Int) = (a.r + b) % 65536 := carry_residue
  have quanta : (y.2 : Int) = a.summed b / 2 ^ 24 := carry_quanta hf hb
  omega

end Sys2Proof.Machine
end

section
/-! What the receiver of a port hears (11_ports_partners R269, R274, R280). An awaited answer moves its transaction on, or its frame
has failed; a port whose transaction runs is listed, so what is written to it reads back. -/

open Sys2Proof Sys2Proof.Machine Sys2Proof.Safety

namespace Sys2Proof.Machine

variable {s : State} {d : Dev} {p qual : Nat} {t : Txn} {raw : List Byte}

/-! ### Reading a port -/

theorem port_setPort {x : PortSt} (h : x ≠ .init) : (d.setPort p x).port p = x := tabGet_tabPut_of_ne_default _ _ _ h _

theorem port_upPort {f : PortSt → PortSt} (h : f (d.port p) ≠ .init) : (d.upPort p f).port p = f (d.port p) := port_setPort h

theorem port_ne_init_of_txn {x : PortSt} (h : x.txn ≠ none) : x ≠ .init := ne_of_apply_ne PortSt.txn h

theorem port_setTxn (y : Txn) : (d.setTxn p (some y)).port p = { d.port p with txn := some y } :=
  port_upPort (port_ne_init_of_txn (Option.some_ne_none y))

/-! ### A frame that failed -/

/-- The port with a failure counted: a timeout, or an answer that fails its check. -/
def PortSt.failure (x : PortSt) (qual : Nat) : PortSt :=
  { x with timeouts := if qual = 0 then satU 32 (x.timeouts + 1) else x.timeouts,
           errors := if qual = 0 then x.errors else satU 32 (x.errors + 1) }

/-- The transaction with its frame to be sent again. -/
def Txn.again (t : Txn) : Txn := { t with tries := t.tries + 1, sent := false }

theorem frameFailed_of_retry (hk : t.kind ≠ .discovery) (hr : t.tries < d.rRetries p) :
    d.frameFailed p t qual = (d.upPort p fun x => x.failure qual).setTxn p (some t.again) := by
  unfold Dev.frameFailed
  dsimp only
  split
  next discovery => exact absurd discovery hk
  next => exact if_pos hr

theorem port_frameFailed (ht : (d.port p).txn = some t) (hk : t.kind ≠ .discovery) (hr : t.tries < d.rRetries p) :
    (d.frameFailed p t qual).port p = { (d.port p).failure qual with txn := some t.again } := by
  have runs : ((d.port p).failure qual).txn ≠ none := ne_of_eq_of_ne ht (Option.some_ne_none t)
  rw [frameFailed_of_retry hk hr, port_setTxn, port_upPort (port_ne_init_of_txn runs)]

/-! ### A valid answer -/

theorem replies_endBackoff (h : (d.port p).txn ≠ none) : ((d.endBackoff p).port p).replies = (d.port p).replies := by
  unfold Dev.endBackoff
  split
  · rw [port_upPort (port_ne_init_of_txn h)]
  · rfl

theorem replies_answered (h : (d.port p).txn ≠ none) :
    ((d.answered p t).port p).replies = min ((d.port p).replies + 1) (2 ^ 32 - 1) := by
  have counted := port_upPort (d := d) (p := p) (f := fun x => { x with replies := satU 32 (x.replies + 1) }) (port_ne_init_of_txn h)
  unfold Dev.answered
  dsimp only
  split
  · rw [counted]
    rfl
  · rw [replies_endBackoff (by rw [counted]; exact h), counted]
    rfl

theorem mbusAnswer_select (ht : t.step = .select) : d.mbusAnswer p t raw =
    if raw = [0xE5#8] then (d.answered p t).setTxn p (some (t.next .reqUd2)) else d.frameFailed p t 1 := by
  simp only [Dev.mbusAnswer, ht, decide_eq_true_eq]

/-- The echo of a coil write leads to the read back, whatever was gathered. -/
theorem modbusIn_coilWrite {data : List Byte} (ht : t.step = .coilWrite)
    (echo : modbusParse (d.partner (t.partner.getD 0)).primary raw = some (5, data)) (hl : data.length = 4) :
    ∃ y : Txn, y.partner = t.partner ∧ d.modbusIn p t raw = (d.answered p t).setTxn p (some (y.next .coilRead)) := by
  refine ⟨{ t with raw := (t.raw ++ raw).take 4096, missing := t.missing || false }, rfl, ?_⟩
  simp only [Dev.modbusIn, ht, echo, hl]
  rfl

theorem modbusIn_coilWrite_bad (ht : t.step = .coilWrite)
    (bad : modbusParse (d.partner (t.partner.getD 0)).primary raw = none) : d.modbusIn p t raw = d.frameFailed p t 1 := by
  simp only [Dev.modbusIn, ht, bad]

/-! ### The three commands of a receiver -/

theorem rspUd_leaves (hp : p < 32) (hh : s.dev.hears = true) (hm : s.dev.poModule p = 1) (ht : (s.dev.port p).txn = some t)
    (hs : t.sent = true) : leaves (.rspUd p raw) s (s.dev.mbusAnswer p t raw) :=
  leaves_of_onDev (onUnit_next (decide_eq_true hp)) (by simp only [ht, hh, hm, hs, and_self, if_true])

theorem modbusResponse_leaves (hp : p < 32) (hh : s.dev.hears = true) (hm : s.dev.portMaster p = true)
    (hv : s.dev.pwr.vdd5p = true) (ht : (s.dev.port p).txn = some t) (hs : t.sent = true) :
    leaves (.modbusResponse p raw) s (s.dev.modbusIn p t raw) :=
  leaves_of_onDev (onUnit_next (decide_eq_true hp)) (by simp only [ht, hh, hm, hv, hs, Bool.and_self, if_true])

theorem answerTimeout_leaves (hp : p < 32) (hh : s.dev.hears = true) (ht : (s.dev.port p).txn = some t) (hs : t.sent = true) :
    leaves (.answerTimeout p) s (if (s.dev.port p).dueAt ≤ s.dev.clk.runTick then s.dev.frameFailed p t 0 else s.dev) :=
  leaves_of_onDev (onUnit_next (decide_eq_true hp)) (by simp only [ht, hh, hs, Bool.and_self, Bool.true_and, decide_eq_true_eq])

theorem rspUd_deaf (hp : p < 32) (hh : s.dev.hears = false) : leaves (.rspUd p raw) s s.dev :=
  leaves_of_onDev (onUnit_next (decide_eq_true hp)) (by split <;> simp [hh])

theorem modbusResponse_deaf (hp : p < 32) (hh : s.dev.hears = false) : leaves (.modbusResponse p raw) s s.dev :=
  leaves_of_onDev (onUnit_next (decide_eq_true hp)) (by split <;> simp [hh])

theorem answerTimeout_deaf (hp : p < 32) (hh : s.dev.hears = false) : leaves (.answerTimeout p) s s.dev :=
  leaves_of_onDev (onUnit_next (decide_eq_true hp)) (by split <;> simp [hh])

/-- Settles O51: each command by what its receiver does with the frame, the port then read by `port_setTxn` after an answer and by
`port_frameFailed` after a failure. -/
theorem portAnswersMoveTheTransaction : Obligations.PortAnswersMoveTheTransaction := by
  refine ⟨fun s p t hp hh hm ht hs hstep hk => ?_, fun s p t raw hp hh hm ht hs hstep hk he hr => ?_,
    fun s p t hp hh ht hs hk => ⟨fun due hr => ?_, fun early => ?_⟩,
    fun s p i t raw data hp hh hm hv ht hs hstep hk hi echo hl => ?_,
    fun s p i t raw hp hh hm hv ht hs hstep hk hi bad hr => ?_,
    fun s p raw hp hh => ⟨rspUd_deaf hp hh, modbusResponse_deaf hp hh, answerTimeout_deaf hp hh⟩⟩
  · refine gives_of_leaves (rspUd_leaves hp hh hm ht hs) ?_
    rw [mbusAnswer_select hstep, if_pos rfl, port_setTxn]
    exact ⟨rfl, replies_answered (by simp [ht])⟩
  · refine gives_of_leaves (rspUd_leaves hp hh hm ht hs) ?_
    rw [mbusAnswer_select hstep, if_neg he, port_frameFailed ht hk hr]
    exact ⟨rfl, rfl, rfl⟩
  · have failed := answerTimeout_leaves hp hh ht hs
    rw [if_pos due] at failed
    refine gives_of_leaves failed ?_
    rw [port_frameFailed ht hk hr]
    exact ⟨rfl, rfl, rfl⟩
  · have waits := answerTimeout_leaves hp hh ht hs
    rwa [if_neg (Nat.not_le.mpr early)] at waits
  · obtain ⟨y, partner, moved⟩ := modbusIn_coilWrite hstep (by rwa [hi]) hl
    refine gives_of_leaves (modbusResponse_leaves hp hh hm hv ht hs) ⟨y.next .coilRead, ?_, rfl, rfl, rfl, partner.trans hi⟩
    rw [moved, port_setTxn]
  · refine gives_of_leaves (modbusResponse_leaves hp hh hm hv ht hs) ?_
    rw [modbusIn_coilWrite_bad hstep (by rwa [hi]), port_frameFailed ht hk hr]
    exact ⟨rfl, rfl⟩

end Sys2Proof.Machine
end

section
/-! What changes on a port by itself (05_utility_isles R110, 11_ports_partners R264, R277 to R280): pulses, the feedback of relay
outputs, the coils of relay partners and line faults. Reports and log records touch the event state alone, and filing for the draw
leaves a port's relay commands and mismatches as they stand. -/

open Sys2Proof Sys2Proof.Machine Sys2Proof.Safety

namespace Sys2Proof.Machine

variable {s : State} {d₀ d : Dev} {p i o : Nat}

/-! ### Reports touch the event state alone -/

/-- The device without what reports and records change. -/
def Dev.unlogged (d : Dev) : Dev := { d with run := Dev.reset.run, evt := Dev.reset.evt }

theorem unlogged_notify {n} (h : Keeps Dev.unlogged d₀ d) : Keeps Dev.unlogged d₀ (d.notify n) := h.mapEvt

theorem unlogged_logRec {r} (h : Keeps Dev.unlogged d₀ d) : Keeps Dev.unlogged d₀ (d.logRec r) := .ite h.mapEvt h.mapRun

theorem unlogged_logNow {code origin detail} (h : Keeps Dev.unlogged d₀ d) : Keeps Dev.unlogged d₀ (d.logNow code origin detail) :=
  (unlogged_logRec h).unless unlogged_notify

theorem unlogged_closeKnot {n early} (h : Keeps Dev.unlogged d₀ d) : Keeps Dev.unlogged d₀ (d.closeKnot n early) :=
  (unlogged_logRec h).setKnot.unless unlogged_notify

theorem unlogged_takeKnot (h : Keeps Dev.unlogged d₀ d) : Keeps Dev.unlogged d₀ d.takeKnot.2 := by
  unfold Dev.takeKnot
  split
  · exact h
  · split
    · split
      · exact unlogged_closeKnot h
      · exact h
    · exact h

theorem unlogged_reportKnot {code origin qual reporter secs tick detail extra} (h : Keeps Dev.unlogged d₀ d) :
    Keeps Dev.unlogged d₀ (d.reportKnot code origin qual reporter secs tick detail extra) := by
  unfold Dev.reportKnot
  split
  · exact h.setKnot
  · exact (unlogged_takeKnot h).setKnot.mapRun.unless unlogged_notify

theorem ports_of_unlogged (h : Keeps Dev.unlogged d₀ d) : d.ports = d₀.ports :=
  congrArg (a₁ := d.unlogged) (a₂ := d₀.unlogged) Dev.ports h.eq

theorem partners_of_unlogged (h : Keeps Dev.unlogged d₀ d) : d.partners = d₀.partners :=
  congrArg (a₁ := d.unlogged) (a₂ := d₀.unlogged) Dev.partners h.eq

theorem port_of_unlogged (h : Keeps Dev.unlogged d₀ d) (p : Nat) : d.port p = d₀.port p := by
  unfold Dev.port
  rw [ports_of_unlogged h]

/-! ### Filing leaves the relay commands of a port -/

/-- The relay commands that wait on a port, and its outputs with a mismatch. -/
def Dev.relaySide (p : Nat) (d : Dev) : List (Nat × Nat) × List Bool := ((d.port p).relayQ, (d.port p).mism)

theorem relaySide_of_ports {e : Dev} (h : Keeps (Dev.relaySide p) d₀ d) (he : e.ports = d.ports) :
    Keeps (Dev.relaySide p) d₀ e :=
  h.update (congrArg (fun x => ((tabGet PortSt.init x p).relayQ, (tabGet PortSt.init x p).mism)) he)

theorem relaySide_logNow {code origin detail} (h : Keeps (Dev.relaySide p) d₀ d) :
    Keeps (Dev.relaySide p) d₀ (d.logNow code origin detail) :=
  relaySide_of_ports h (ports_of_unlogged (unlogged_logNow (.refl d)))

theorem relaySide_relayWaits (h : Keeps (Dev.relaySide p) d₀ d) : Keeps (Dev.relaySide p) d₀ (d.relayWaits p) :=
  h.forEach fun _ _ he => .ite he (relaySide_logNow (he.update rfl))

theorem relayQ_of_relaySide (h : Keeps (Dev.relaySide p) d₀ d) : (d.port p).relayQ = (d₀.port p).relayQ :=
  congrArg (fun x => x.1) h.eq

theorem mism_of_relaySide (h : Keeps (Dev.relaySide p) d₀ d) : (d.port p).mism = (d₀.port p).mism := congrArg (fun x => x.2) h.eq

section
variable (waits : (d₀.port p).relayQ ≠ [])
include waits

/-- A port with a relay command waiting is listed: a change of what is none of its relay side leaves that side. -/
theorem relaySide_upPort {f : PortSt → PortSt} (h : Keeps (Dev.relaySide p) d₀ d)
    (hf : ∀ x, (f x).relayQ = x.relayQ ∧ (f x).mism = x.mism := by exact fun _ => ⟨rfl, rfl⟩) :
    Keeps (Dev.relaySide p) d₀ (d.upPort p f) := by
  obtain ⟨queue, mismatch⟩ := hf (d.port p)
  have listed : f (d.port p) ≠ .init := ne_of_apply_ne PortSt.relayQ (by rw [queue, relayQ_of_relaySide h]; exact waits)
  refine h.update ?_
  unfold Dev.relaySide
  rw [port_upPort listed, queue, mismatch]

theorem relaySide_formAnswer (h : Keeps (Dev.relaySide p) d₀ d) : Keeps (Dev.relaySide p) d₀ (d.formAnswer p) :=
  ((h.when (relaySide_upPort waits)).when (relaySide_upPort waits)).when (relaySide_upPort waits)

theorem relaySide_portFile (h : Keeps (Dev.relaySide p) d₀ d) : Keeps (Dev.relaySide p) d₀ (d.portFile p) := by
  have formed := relaySide_relayWaits (relaySide_formAnswer waits h)
  unfold Dev.portFile
  dsimp only
  split
  · exact formed.mapPwr.mapPwr
  · exact .ite formed.mapPwr.mapPwr (formed.mapPwr.unless (·.mapPwr))

end

/-! ### Pulses (R277, R110) -/

/-- The device with a pulse of an input counted. -/
def Dev.pulseCounted (d : Dev) (p i : Nat) : Dev :=
  d.upPort p fun x => { x with pulses := x.pulses.set i (satU 32 (x.pulses.getD i 0 + 1)), onOk := x.onOk.set i false }

theorem upNow_eq (d : Dev) (n : Nat) (f : Bank → Bank) : ∃ r, d.upNow n f = { d with run := r } := by
  unfold Dev.upNow
  dsimp only
  split <;> exact ⟨_, rfl⟩

/-- What keeps an input from counting a pulse in a tick. -/
def Dev.PulseRefused (d : Dev) (p i : Nat) : Prop :=
  d.pulseOn p i = false ∨ (d.port p).onOk.getD i false = false ∨ (d.port p).onRun.getD i 0 + 1 ≠ (d.pulseMin p i).1

theorem pulseRefused_iff : (!d.pulseOn p i || !(d.port p).onOk.getD i false ||
    decide ((d.port p).onRun.getD i 0 + 1 ≠ (d.pulseMin p i).1)) = true ↔ d.PulseRefused p i := by
  simp only [Dev.PulseRefused, Bool.or_eq_true, Bool.not_eq_true', decide_eq_true_eq, or_assoc]

theorem pulseAccepted_due (hp : p < 32) (hi : i < 4) (counts : ¬ s.dev.PulseRefused p i) :
    ∃ r, (s.dev.img.meter = false → r = s.dev.run) ∧ leaves (.pulseAccepted p i) s { s.dev.pulseCounted p i with run := r } := by
  have accepts := leaves_of_onDev (c := .pulseAccepted p i) (s := s) (onUnit_next (by simp [hp, hi]))
    (if_neg (pulseRefused_iff.not.mpr counts))
  dsimp only at accepts
  split at accepts
  next n _ =>
    split at accepts
    next => exact ⟨_, fun _ => rfl, accepts⟩
    next meter =>
      obtain ⟨r, weight⟩ := upNow_eq (s.dev.pulseCounted p i) n fun b => { b with vol := b.vol + (s.dev.pulseCounted p i).ilPulseW n }
      exact ⟨r, fun off => absurd (congrArg (!·) off) meter, weight ▸ accepts⟩
  next => exact ⟨_, fun _ => rfl, accepts⟩

theorem pulseAccepted_not_due (hp : p < 32) (hi : i < 4) (h : s.dev.PulseRefused p i) : leaves (.pulseAccepted p i) s s.dev :=
  leaves_of_onDev (onUnit_next (by simp [hp, hi])) (if_pos (pulseRefused_iff.mpr h))

theorem pulseGlitch_due (hp : p < 32) (hi : i < 4) (on : s.dev.pulseOn p i = true) (ran : 0 < (s.dev.port p).onRun.getD i 0)
    (short : (s.dev.port p).onRun.getD i 0 < (s.dev.pulseMin p i).1) :
    leaves (.pulseGlitch p i) s (s.dev.setPort p { s.dev.port p with
      glitch := (s.dev.port p).glitch.set i (min ((s.dev.port p).glitch.getD i 0 + 1) 255), onRun := (s.dev.port p).onRun.set i 0 }) := by
  refine leaves_of_onDev (onUnit_next (by simp [hp, hi])) (if_neg ?_)
  simp only [on, Bool.not_true, Bool.false_or, Bool.or_eq_true, decide_eq_true_eq]
  omega

theorem pulseGlitch_not_due (hp : p < 32) (hi : i < 4)
    (h : s.dev.pulseOn p i = false ∨ (s.dev.port p).onRun.getD i 0 = 0 ∨ (s.dev.pulseMin p i).1 ≤ (s.dev.port p).onRun.getD i 0) :
    leaves (.pulseGlitch p i) s s.dev := by
  refine leaves_of_onDev (onUnit_next (by simp [hp, hi])) (if_pos ?_)
  simpa only [Bool.or_eq_true, Bool.not_eq_true', decide_eq_true_eq, or_assoc] using h

/-! ### Relay feedback (R279) -/

/-- The device with an output's MISMATCH set. -/
def Dev.mismatched (d : Dev) (p o : Nat) : Dev := d.upPort p fun x => { x with mism := x.mism.set o true, fbAt := x.fbAt.set o 0 }

/-- The device with an output's change queued once more. -/
def Dev.changeRepeated (d : Dev) (p o : Nat) : Dev := d.upPort p fun x =>
  { x with again := x.again.set o true, relayQ := x.relayQ.filter (fun y => y.1 != 2 * p + o) ++ [(2 * p + o, 4)] }

theorem mism_set_of_lt {x : PortSt} (ho : o < 2) (hm : x.mism.length = 2) : (x.mism.set o true).getD o false = true := by
  simp [hm, ho]

theorem mism_init (o : Nat) : PortSt.init.mism.getD o false = false := by
  match o with
  | 0 | 1 | _ + 2 => rfl

theorem port_mismatched (ho : o < 2) (hm : (d.port p).mism.length = 2) :
    (d.mismatched p o).port p = { d.port p with mism := (d.port p).mism.set o true, fbAt := (d.port p).fbAt.set o 0 } := by
  refine port_upPort (ne_of_apply_ne (fun x => x.mism.getD o false) ?_)
  rw [mism_init, mism_set_of_lt ho hm]
  exact Bool.false_ne_true.symm

theorem port_changeRepeated (d : Dev) (p o : Nat) : (d.changeRepeated p o).port p = { d.port p with
    again := (d.port p).again.set o true, relayQ := (d.port p).relayQ.filter (fun y => y.1 != 2 * p + o) ++ [(2 * p + o, 4)] } :=
  port_upPort (ne_of_apply_ne PortSt.relayQ (List.concat_ne_nil _ _))

theorem mem_relayQ_changeRepeated (d : Dev) (p o : Nat) : (2 * p + o, 4) ∈ ((d.changeRepeated p o).port p).relayQ := by
  simp [port_changeRepeated]

/-- The report of a mismatch, and behind it the change to be repeated once. -/
theorem relayMismatch_due (hp : p < 32) (ho : o < 2) (due : s.dev.feedbackDue p o = true) (ha : awake s.dev) :
    ∃ e, Keeps Dev.unlogged (s.dev.mismatched p o) e ∧ leaves (.relayMismatch p o) s
      (if (s.dev.port p).again.getD o false = true then e else (e.changeRepeated p o).portFile p) := by
  refine ⟨_, unlogged_reportKnot (.refl _), leaves_of_onDev (onUnit_next (by simp [hp, ho])) (if_neg ?_)⟩
  simp [due, show s.dev.pwr.mode = .run ∨ s.dev.pwr.mode = .doze from ha]

theorem relayMismatch_not_due (hp : p < 32) (ho : o < 2) (h : s.dev.feedbackDue p o = false) :
    leaves (.relayMismatch p o) s s.dev :=
  leaves_of_onDev (onUnit_next (by simp [hp, ho])) (if_pos (by simp [h]))

theorem relayFeedback_matches (hp : p < 32) (ho : o < 2) (hh : s.dev.hears = true) (hm : s.dev.poModule p = 4)
    (enabled : bitOf (s.dev.poParam p 1) (2 + o) = true) (mismatch : (s.dev.port p).mism.getD o false = true) :
    leaves (.relayFeedback p o) s (s.dev.setPort p { s.dev.port p with
      mism := (s.dev.port p).mism.set o false, again := (s.dev.port p).again.set o false,
      fbAt := (s.dev.port p).fbAt.set o (max 1 s.dev.clk.runTick) }) :=
  leaves_of_onDev (onUnit_next (by simp [hp, ho])) (if_pos ⟨hh, hm, enabled, mismatch⟩)

/-! ### Coils and line faults (R264, R280) -/

theorem relayCoilRetry_due (hi : i < 4096) (kind : (s.dev.partner i).kind = 4) (state : (s.dev.partner i).state = .enrolled)
    (pair : (s.dev.partner i).coilAt ≠ 0) (due : (s.dev.partner i).coilAt + 160000 ≤ s.dev.clk.runTick)
    (idle : (s.dev.port (s.dev.partner i).port).txn = none) (ha : awake s.dev) :
    leaves (.relayCoilRetry i) s ((s.dev.relayUpdate (partnerTarget i) 4).portFile (s.dev.partner i).port) :=
  leaves_of_onDev (onUnit_next (decide_eq_true hi)) (if_pos ⟨kind, state, pair, due, by rw [idle]; rfl, ha⟩)

theorem relayCoilRetry_not_due (hi : i < 4096) (early : s.dev.clk.runTick < (s.dev.partner i).coilAt + 160000) :
    leaves (.relayCoilRetry i) s s.dev :=
  leaves_of_onDev (onUnit_next (decide_eq_true hi)) (if_neg fun ⟨_, _, _, due, _⟩ => Nat.not_le.mpr early due)

theorem lineFault_shown {on : Bool} (hp : p < 32) (live : s.dev.isLive = true) (hh : s.dev.hears = true) (hm : s.dev.poModule p = 2) :
    leaves (.lineFault p on) s (s.dev.setPort p { s.dev.port p with fault := on }) :=
  leaves_of_onDev (onUnit_next (decide_eq_true hp)) (if_pos ⟨live, hh, .inl hm⟩)

theorem lineFault_ignored {on : Bool} (hp : p < 32)
    (h : s.dev.isLive = false ∨ s.dev.hears = false ∨ (s.dev.poModule p ≠ 2 ∧ s.dev.poModule p ≠ 1)) :
    leaves (.lineFault p on) s s.dev := by
  refine leaves_of_onDev (onUnit_next (decide_eq_true hp)) (if_neg ?_)
  rintro ⟨live, hears, bus⟩
  rcases h with dead | deaf | other
  · exact Bool.false_ne_true (dead.symm.trans live)
  · exact Bool.false_ne_true (deaf.symm.trans hears)
  · exact bus.elim other.1 fun mbus => other.2 mbus.1

/-- Settles O53: what each command leaves, with `port_of_unlogged` for the report of a mismatch and `relaySide_portFile` for the
filing of the change repeated. -/
theorem pulsesAndRelayFeedbackAreSeen : Obligations.PulsesAndRelayFeedbackAreSeen := by
  refine ⟨fun s p i hp hi on => ⟨fun ok last => ?_, fun h => pulseAccepted_not_due hp hi (.inr h), pulseGlitch_due hp hi on,
      fun h => pulseGlitch_not_due hp hi (.inr h)⟩,
    fun s p i hp hi off => ⟨pulseAccepted_not_due hp hi (.inl off), pulseGlitch_not_due hp hi (.inl off)⟩,
    fun s p o hp ho due ha hm again => ?_, fun s p o hp ho due ha hm first => ?_,
    fun s p o hp ho => relayMismatch_not_due hp ho,
    fun s p o hp ho => relayFeedback_matches hp ho,
    fun s i hi => relayCoilRetry_due hi,
    fun s i hi => relayCoilRetry_not_due hi,
    fun s p on hp => ⟨lineFault_shown hp, lineFault_ignored hp⟩⟩
  · have counts : ¬ s.dev.PulseRefused p i := by simp only [Dev.PulseRefused, on, ok, last]; simp
    obtain ⟨r, idle, accepts⟩ := pulseAccepted_due hp hi counts
    exact gives_of_leaves accepts ⟨rfl, rfl, idle⟩
  · obtain ⟨e, reported, mismatch⟩ := relayMismatch_due hp ho due ha
    rw [if_pos again] at mismatch
    refine gives_of_leaves mismatch ?_
    rw [port_of_unlogged reported, port_mismatched ho hm]
    exact ⟨mism_set_of_lt ho hm, rfl⟩
  · obtain ⟨e, reported, mismatch⟩ := relayMismatch_due hp ho due ha
    rw [if_neg (by rw [first]; exact Bool.false_ne_true)] at mismatch
    have queued := mem_relayQ_changeRepeated e p o
    have filed := relaySide_portFile (List.ne_nil_of_mem queued) (.refl (e.changeRepeated p o))
    refine gives_of_leaves mismatch ?_
    rw [relayQ_of_relaySide filed, mism_of_relaySide filed]
    refine ⟨?_, queued⟩
    rw [port_changeRepeated, port_of_unlogged reported, port_mismatched ho hm]
    exact mism_set_of_lt ho hm

end Sys2Proof.Machine
end

section
/-! The partner table under the host's commands (05_utility_isles R112, 11_ports_partners R283, R284). What a command enters is no
free entry, so it reads back; every other entry stays, through state changes, dropped polls and unbound isles. -/

open Sys2Proof Sys2Proof.Machine Sys2Proof.Safety

namespace Sys2Proof.Machine

variable {s : State} {d₀ d e : Dev} {c : Instr} {l : Link} {i k n p : Nat} {a : List Byte} {x : Bool}

/-! ### Reading a partner -/

theorem partner_ne_free {y : Partner} (h : y.state ≠ .free) : y ≠ .free := ne_of_apply_ne Partner.state h

theorem partner_setPartner {y : Partner} (h : y ≠ .free) : (d.setPartner i y).partner i = y := tabGet_tabPut_of_ne_default _ _ _ h _

theorem partner_setPartner_of_ne {y : Partner} (h : k ≠ i) : (d.setPartner i y).partner k = d.partner k :=
  tabGet_tabPut_of_ne _ h _ _

theorem partner_upPartner {f : Partner → Partner} (h : (f (d.partner i)).state ≠ .free) :
    (d.upPartner i f).partner i = f (d.partner i) := partner_setPartner (partner_ne_free h)

theorem partner_upPartner_of_ne {f : Partner → Partner} (h : k ≠ i) : (d.upPartner i f).partner k = d.partner k :=
  partner_setPartner_of_ne h

theorem partner_of_partners (h : Keeps Dev.partners d e) (k : Nat) : e.partner k = d.partner k := by
  unfold Dev.partner
  rw [h.eq]

/-! ### State changes (R283, R286) -/

/-- An entry in a new state. -/
def Partner.enters (y : Partner) (st : PtState) (now : Nat) : Partner :=
  { y with state := st, enrolled := if st = .enrolled then now else y.enrolled,
           first := y.first || decide (st = .lost) || (decide (st = .enrolled) && !y.state.polled),
           unreach := y.unreach && decide (st ≠ .enrolled) }

theorem partners_reportKnot {code origin qual reporter secs tick detail extra} (h : Keeps Dev.partners d₀ d) :
    Keeps Dev.partners d₀ (d.reportKnot code origin qual reporter secs tick detail extra) :=
  h.update (partners_of_unlogged (unlogged_reportKnot (.refl d)))

/-- A state change is written and reported; of the partner table it changes the one entry. -/
theorem partners_ptState {st : PtState} (h : (d.partner i).state ≠ st) :
    Keeps Dev.partners (d.upPartner i fun y => y.enters st d.clk.secs) (d.ptState i st) := by
  rw [show d.ptState i st = _ from if_neg h]
  exact partners_reportKnot (Keeps.refl (d.upPartner i fun y => y.enters st d.clk.secs)).mapStore

theorem partner_ptState {st : PtState} (h : (d.partner i).state ≠ st) (hs : st ≠ .free) :
    (d.ptState i st).partner i = (d.partner i).enters st d.clk.secs := by
  rw [partner_of_partners (partners_ptState h), partner_upPartner hs]

theorem partner_ptState_of_ne {st : PtState} (h : k ≠ i) : (d.ptState i st).partner k = d.partner k := by
  by_cases same : (d.partner i).state = st
  · rw [show d.ptState i st = d from if_pos same]
  · rw [partner_of_partners (partners_ptState same), partner_upPartner_of_ne h]

theorem partner_ptEnrol (h : (d.partner i).state ≠ .enrolled) : (d.ptEnrol i).partner i =
    { (d.partner i).enters .enrolled d.clk.secs with due := d.clk.secs + 1, missed := 0 } := by
  have enrolled := partner_ptState h (by simp)
  unfold Dev.ptEnrol
  rw [partner_upPartner (by rw [enrolled]; simp [Partner.enters]), enrolled]

theorem partner_ptEnrol_of_ne (h : k ≠ i) : (d.ptEnrol i).partner k = d.partner k :=
  (partner_upPartner_of_ne h).trans (partner_ptState_of_ne h)

theorem partners_dropPolls : Keeps Dev.partners d (d.dropPolls i) :=
  Keeps.foldl (.update (.refl d) rfl) fun _ _ he => he.update rfl

theorem partners_forgetBound : Keeps Dev.partners d (d.forgetBound i) :=
  Keeps.forEach (.refl d) fun _ _ he => he.upIsle

/-! ### What an admitted command leaves -/

/-- An admitted mailbox command of the right length answers what its access gives. -/
theorem command_leaves {op : Nat} {lenOk hostRow needLive : Bool} {body : Bool → Dev → Status × List Byte × Dev} {st : Status}
    {q : List Byte} (he : exec c s = .next (s.onDev fun d => d.exec l op a lenOk hostRow needLive body))
    (ha : admitCmd s.dev l op a hostRow needLive = some (x, e)) (hl : lenOk = true) (hb : body x e = (st, q, d)) :
    leaves c s (answered d l st q) := by
  subst hl
  refine leaves_of_onDev he ?_
  rw [exec_of_admitCmd ha, hb]

theorem partner_answered {st : Status} {q : List Byte} : (answered d l st q).partner k = d.partner k := rfl

theorem isle_answered {st : Status} {q : List Byte} : (answered d l st q).isle n = d.isle n := rfl

theorem resp_answered {st : Status} {q : List Byte} : (answered d l st q).link.resp = some { status := st, payload := q } := rfl

theorem partner_ptWrite : (d.ptWrite i).partner k = d.partner k := rfl

/-! ### PARTNER_ADD and PARTNER_ENROL -/

/-- The entry that PARTNER_ADD makes of its arguments, before it is enrolled. -/
def Partner.added (a : List Byte) : Partner :=
  let b := sliceB a 1 9
  let y : Partner := { Partner.free with port := u8 a 0, kind := u8 a 10, period := u32 a 11, second := u8 b 0 == 1 }
  if u8 b 0 == 1 then { y with ident := u32 b 1, man := u16 b 5, ver := u8 b 7, medium := u8 b 8 } else { y with primary := u8 b 1 }

theorem added_fields (a : List Byte) : (Partner.added a).state = .free ∧ (Partner.added a).port = u8 a 0 ∧
    (Partner.added a).kind = u8 a 10 ∧ (Partner.added a).period = u32 a 11 := by
  unfold Partner.added
  dsimp only
  split <;> exact ⟨rfl, rfl, rfl, rfl⟩

/-- A primary address of a partner is none of a free entry's; a secondary address marks the entry. -/
theorem added_ne_free (h : d.addrOk p (sliceB a 1 9) = true) : Partner.added a ≠ .free := by
  unfold Partner.added
  dsimp only
  split
  next second => exact ne_of_apply_ne Partner.second (by simp [second, Partner.free])
  next primary =>
    unfold Dev.addrOk at h
    split at h
    · simp only [Bool.and_eq_true, decide_eq_true_eq] at h
      obtain ⟨⟨-, top⟩, -⟩ := h
      refine ne_of_apply_ne Partner.primary (ne_of_lt (lt_of_le_of_lt top ?_))
      split <;> decide
    · simp only [Bool.and_eq_true] at h
      obtain ⟨second, -⟩ := h
      exact absurd second primary

theorem partnerAdd_leaves (ha : admitCmd s.dev l 0x41 a true true = some (x, e)) (len : a.length = 15) (hp : u8 a 0 < 32)
    (bus : e.portBus (u8 a 0) = true) (kind : u8 a 10 ≤ 4) (relay : u8 a 10 = 4 → e.portMaster (u8 a 0) = true)
    (address : e.addrOk (u8 a 0) (sliceB a 1 9) = true) (period : u32 a 11 = 0 ∨ (10 ≤ u32 a 11 ∧ u32 a 11 ≤ 86400))
    (new : e.atAddress (u8 a 0) (u8 (sliceB a 1 9) 0 == 1) (u8 (sliceB a 1 9) 1) (u32 (sliceB a 1 9) 1) (u16 (sliceB a 1 9) 5)
      (u8 (sliceB a 1 9) 7) (u8 (sliceB a 1 9) 8) = none) (room : e.freePartner (u8 a 0) = some i) :
    leaves (.partnerAdd l a) s (answered ((e.setPartner i (.added a)).ptEnrol i) l .done (leBytes 2 i)) := by
  refine command_leaves rfl ha (by simp [len]) ?_
  dsimp only
  rw [if_neg (Nat.not_le.mpr hp), if_neg (by simpa [bus, kind] using relay),
    if_neg (by simpa [address] using or_iff_not_imp_left.mp period), if_neg (by simp [new]), room]
  rfl

theorem partnerEnrol_leaves {a b : Byte} (ha : admitCmd s.dev l 0x42 [a, b] true true = some (x, e)) (hi : a.toNat + 256 * b.toNat = i)
    (lt : i < 4096) (state : (e.partner i).state = .candidate ∨ (e.partner i).state = .retired)
    (new : e.atAddress (e.partner i).port (e.partner i).second (e.partner i).primary (e.partner i).ident (e.partner i).man
      (e.partner i).ver (e.partner i).medium = none) :
    leaves (.partnerEnrol l [a, b]) s (answered (e.ptEnrol i) l .done []) := by
  refine command_leaves rfl ha rfl ?_
  dsimp only
  rw [u16_pair, hi, if_neg (by simp [lt, state]), new]

/-! ### PARTNER_RETIRE and PARTNER_DELETE -/

/-- A partner out of service: its polls go, its binding and its state. -/
def Dev.ptRetired (d : Dev) (i : Nat) : Dev := ((d.dropPolls i).upPartner i fun y => { y with isle := 0xFF }).ptState i .retired

theorem partner_ptRetired (used : (d.partner i).state ≠ .free) :
    ((d.ptRetired i).partner i).state = .retired ∧ ((d.ptRetired i).partner i).isle = 0xFF := by
  have kept : (d.dropPolls i).partner i = d.partner i := partner_of_partners partners_dropPolls i
  have unbound := partner_upPartner (d := d.dropPolls i) (i := i) (f := fun y => { y with isle := 0xFF }) (by rwa [kept])
  unfold Dev.ptRetired
  by_cases retired : (((d.dropPolls i).upPartner i fun y => { y with isle := 0xFF }).partner i).state = .retired
  · rw [show Dev.ptState _ i .retired = _ from if_pos retired]
    exact ⟨retired, congrArg Partner.isle unbound⟩
  · rw [partner_ptState retired (by simp), unbound]
    exact ⟨rfl, rfl⟩

theorem partner_ptRetired_of_ne (h : k ≠ i) : (d.ptRetired i).partner k = d.partner k := by
  unfold Dev.ptRetired
  rw [partner_ptState_of_ne h, partner_upPartner_of_ne h, partner_of_partners partners_dropPolls]

theorem partnerRetire_leaves {a b : Byte} (ha : admitCmd s.dev l 0x43 [a, b] true true = some (x, e))
    (hi : a.toNat + 256 * b.toNat = i) (lt : i < 4096) (used : (e.partner i).state ≠ .free) :
    leaves (.partnerRetire l [a, b]) s (answered ((e.ptRetired i).ptWrite i) l .done []) := by
  refine command_leaves rfl ha rfl ?_
  dsimp only
  rw [u16_pair, hi, if_neg (by simp [lt, used])]
  rfl

theorem partnerDelete_named {a b : Byte} (ha : admitCmd s.dev l 0x44 [a, b] true true = some (x, e))
    (hi : a.toNat + 256 * b.toNat = i) (lt : i < 4096) (state : (e.partner i).state = .candidate ∨ (e.partner i).state = .retired)
    (named : e.partnerNamed i = true) : leaves (.partnerDelete l [a, b]) s (answered e l .denied []) := by
  refine command_leaves rfl ha rfl ?_
  dsimp only
  rw [u16_pair, hi, if_neg (by simp [lt, state]), if_pos named]

theorem partnerDelete_leaves {a b : Byte} (ha : admitCmd s.dev l 0x44 [a, b] true true = some (x, e))
    (hi : a.toNat + 256 * b.toNat = i) (lt : i < 4096) (state : (e.partner i).state = .candidate ∨ (e.partner i).state = .retired)
    (named : e.partnerNamed i = false) :
    leaves (.partnerDelete l [a, b]) s (answered (((e.ptState i .free).setPartner i .free).forgetBound i) l .done []) := by
  refine command_leaves rfl ha rfl ?_
  dsimp only
  rw [u16_pair, hi, if_neg (by simp [lt, state]), if_neg (by simp [named])]

/-! ### PARTNER_BIND and PARTNER_SET -/

/-- An entry bound to an isle, or to none with 0xFF. -/
def Dev.boundTo (d : Dev) (i n : Nat) : Dev := (d.upPartner i fun y => { y with isle := n }).ptWrite i

theorem partner_boundTo (h : (d.partner i).state ≠ .free) : (d.boundTo i n).partner i = { d.partner i with isle := n } :=
  partner_upPartner (f := fun y => { y with isle := n }) h

theorem partner_boundTo_of_ne (h : k ≠ i) : (d.boundTo i n).partner k = d.partner k :=
  partner_upPartner_of_ne (f := fun y => { y with isle := n }) h

theorem isle_boundTo {m : Nat} : (d.boundTo i n).isle m = d.isle m := rfl

/-- An isle is given up by the entry bound to it, unless that is the one to be bound. -/
def Dev.givenUp (d : Dev) (n i : Nat) : Dev :=
  match d.boundPartner n with
  | some k => if k = i then d else d.boundTo k 0xFF
  | none => d

theorem givenUp_keeps (d : Dev) (n i : Nat) : (d.givenUp n i).partner i = d.partner i ∧ (d.givenUp n i).isle n = d.isle n := by
  unfold Dev.givenUp
  split
  next k _ =>
    split
    next => exact ⟨rfl, rfl⟩
    next other => exact ⟨partner_boundTo_of_ne (Ne.symm other), rfl⟩
  next => exact ⟨rfl, rfl⟩

/-- An isle takes its volume from an entry; from another one than before it starts with a new baseline (R112). -/
def Dev.takesFrom (d : Dev) (n i : Nat) : Dev :=
  if (d.isle n).util.bound = some i then d
  else (d.rebase n).upIsle n fun y => { y with util := { y.util with bound := some i } }

theorem partners_upNow {f : Bank → Bank} : Keeps Dev.partners d (d.upNow n f) := .ite (Keeps.refl d).upIsle (Keeps.refl d).upIsle

theorem partners_rebase : Keeps Dev.partners d (d.rebase n) := by
  unfold Dev.rebase
  exact ((Keeps.refl d).when fun _ => partners_upNow).upIsle

theorem partners_takesFrom : Keeps Dev.partners d (d.takesFrom n i) := (Keeps.refl d).unless fun _ => partners_rebase.upIsle

theorem insertNat_ne_nil (h : Nat) (hours : List Nat) : insertNat h hours ≠ [] := by
  cases hours with
  | nil => exact List.cons_ne_nil _ _
  | cons y t =>
    unfold insertNat
    split_ifs <;> exact List.cons_ne_nil _ _

/-- The running hour does not qualify, so the isle is listed and the mark of its new baseline reads back. -/
theorem rebase_rebase (d : Dev) (n : Nat) : ((d.rebase n).isle n).util.rebase = true := by
  unfold Dev.rebase
  rw [isle_upIsle (ne_of_apply_ne (fun y => y.util.badHours) (insertNat_ne_nil _ _))]

theorem bound_takesFrom (d : Dev) (n i : Nat) : ((d.takesFrom n i).isle n).util.bound = some i := by
  unfold Dev.takesFrom
  split
  next same => exact same
  next => rw [isle_upIsle (ne_of_apply_ne (fun y => y.util.bound) (Option.some_ne_none i))]

theorem rebase_takesFrom (h : (d.isle n).util.bound ≠ some i) : ((d.takesFrom n i).isle n).util.rebase = true := by
  unfold Dev.takesFrom
  rw [if_neg h, isle_upIsle (ne_of_apply_ne (fun y => y.util.bound) (Option.some_ne_none i))]
  exact rebase_rebase d n

theorem partnerBind_none {a b n : Byte} (ha : admitCmd s.dev l 0x45 [a, b, n] true true = some (x, e))
    (hi : a.toNat + 256 * b.toNat = i) (lt : i < 4096) (used : (e.partner i).state ≠ .free) (hn : n.toNat = 0xFF) :
    leaves (.partnerBind l [a, b, n]) s (answered (e.boundTo i 0xFF) l .done []) := by
  refine command_leaves rfl ha rfl ?_
  dsimp only
  rw [show u16 [a, b, n] 0 = i from hi, show u8 [a, b, n] 2 = 0xFF from hn, if_neg (by simp [lt, used]), if_pos rfl]
  rfl

theorem partnerBind_leaves {a b n : Byte} (ha : admitCmd s.dev l 0x45 [a, b, n] true true = some (x, e))
    (hi : a.toNat + 256 * b.toNat = i) (lt : i < 4096) (used : (e.partner i).state ≠ .free) (hn : n.toNat < 128)
    (own : (e.partner i).isle = 0xFF ∨ (e.partner i).isle = n.toNat) (src : e.ilVolSrc n.toNat = 2)
    (kind : e.ilType n.toNat = 5 ∨ e.ilType n.toNat = 6) :
    leaves (.partnerBind l [a, b, n]) s
      (answered (((e.givenUp n.toNat i).boundTo i n.toNat).takesFrom n.toNat i) l .done []) := by
  refine command_leaves rfl ha rfl ?_
  dsimp only
  rw [show u16 [a, b, n] 0 = i from hi, show u8 [a, b, n] 2 = n.toNat from rfl, if_neg, if_neg (by omega), if_neg]
  · rfl
  · rintro (⟨bound, other⟩ | wrong | wrong)
    · exact own.elim bound other
    · exact wrong src
    · exact wrong kind
  · rintro (h | h | ⟨h, -⟩)
    · omega
    · exact used h
    · omega

theorem partnerSet_leaves (ha : admitCmd s.dev l 0x46 a true true = some (x, e)) (len : a.length = 7) (hi : u16 a 0 = i)
    (lt : i < 4096) (used : (e.partner i).state ≠ .free) (period : u32 a 2 = 0 ∨ (10 ≤ u32 a 2 ∧ u32 a 2 ≤ 86400))
    (kind : u8 a 6 ≤ 4) (relay : u8 a 6 = 4 → e.portMaster (e.partner i).port = true) :
    leaves (.partnerSet l a) s
      (answered ((e.upPartner i fun y => { y with period := u32 a 2, kind := u8 a 6 }).ptWrite i) l .done []) := by
  refine command_leaves rfl ha (by simp [len]) ?_
  dsimp only
  rw [hi, if_neg]
  rintro (h | h | h | h | ⟨h, k⟩)
  · omega
  · exact used h
  · exact h period
  · omega
  · exact Bool.false_ne_true (k.symm.trans (relay h))

/-- Settles O29: what each command leaves by its own lemma, the entries then read one by one. -/
theorem partnerCommandsTakeEffect : Obligations.PartnerCommandsTakeEffect := by
  refine ⟨fun s l a x e i len ha hp bus kind relay address period new room => ?_, fun s l a b x e ha lt state new => ?_,
    fun s l a b x e ha lt used => ?_,
    fun s l a b x e ha lt state => ⟨partnerDelete_named ha rfl lt state, fun named => ?_⟩,
    fun s l a b n x e ha lt used => ⟨fun hn => ?_, fun hn own src kind => ?_⟩,
    fun s l a x e len ha lt used period kind relay => ?_⟩
  · obtain ⟨state, port, kindOf, periodOf⟩ := added_fields a
    have entered : (e.setPartner i (.added a)).partner i = .added a := partner_setPartner (added_ne_free address)
    have enrolled := partner_ptEnrol (by rw [entered, state]; simp)
    rw [entered] at enrolled
    refine gives_of_leaves (partnerAdd_leaves ha len hp bus kind relay address period new room) ?_
    simp only [partner_answered, enrolled]
    exact ⟨rfl, port, kindOf, periodOf, rfl, fun k hk => (partner_ptEnrol_of_ne hk).trans (partner_setPartner_of_ne hk), resp_answered⟩
  · have enrolled := partner_ptEnrol (d := e) (i := a.toNat + 256 * b.toNat) (by rcases state with h | h <;> simp [h])
    refine gives_of_leaves (partnerEnrol_leaves ha rfl lt state new) ?_
    simp only [partner_answered, enrolled, Partner.enters, true_and]
    exact ⟨fun k => partner_ptEnrol_of_ne, resp_answered⟩
  · obtain ⟨retired, unbound⟩ := partner_ptRetired used
    refine gives_of_leaves (partnerRetire_leaves ha rfl lt used) ?_
    simp only [partner_answered, partner_ptWrite]
    exact ⟨retired, unbound, fun k => partner_ptRetired_of_ne, resp_answered⟩
  · refine gives_of_leaves (partnerDelete_leaves ha rfl lt state named) ?_
    simp only [partner_answered, partner_of_partners partners_forgetBound]
    exact ⟨partners_forgetBound.eq, fun k hk => (partner_setPartner_of_ne hk).trans (partner_ptState_of_ne hk), resp_answered⟩
  · refine gives_of_leaves (partnerBind_none ha rfl lt used hn) ?_
    simp only [partner_answered, partner_boundTo used, true_and]
    exact ⟨fun k => partner_boundTo_of_ne, resp_answered⟩
  · obtain ⟨entry, isle⟩ := givenUp_keeps e n.toNat (a.toNat + 256 * b.toNat)
    have bound := partner_boundTo (d := e.givenUp n.toNat (a.toNat + 256 * b.toNat)) (n := n.toNat) (by rwa [entry])
    refine gives_of_leaves (partnerBind_leaves ha rfl lt used hn own src kind) ?_
    simp only [partner_answered, isle_answered, partner_of_partners partners_takesFrom, bound, true_and]
    exact ⟨bound_takesFrom _ _ _, fun other => rebase_takesFrom (by rwa [isle_boundTo, isle]), resp_answered⟩
  · refine gives_of_leaves (partnerSet_leaves ha len rfl lt used period kind relay) ?_
    simp only [partner_answered, partner_ptWrite]
    exact ⟨partner_upPartner (f := fun y => { y with period := u32 a 2, kind := u8 a 6 }) used, fun k => partner_upPartner_of_ne,
      resp_answered⟩

end Sys2Proof.Machine
end

section
/-! Billing registers and demand (06_billing R126, R127, R137). A demand entered into the maximum table raises the entry of its key
to itself at least and leaves every other key, so no entry falls, however many are entered. -/

open Sys2Proof Sys2Proof.Machine Sys2Proof.Safety

namespace Sys2Proof.Machine

/-! ### Adding to a register (R126, R127) -/

section
variable {m c : Nat} {x : BReg}

theorem BReg.add_of_wrap (h : m ≤ x.r + c) : x.add m c = ({ r := x.r + c - m, w := (x.w + 1) % 65536 }, true) := if_pos h

theorem BReg.add_of_room (h : x.r + c < m) : x.add m c = ({ x with r := x.r + c }, false) := if_neg (Nat.not_le.mpr h)

/-- Settles O39: with room the register rises alone; at a wrap the modulus it gives up is the wrap counted, and the count's own
wrap is the full turn of both. -/
theorem registerAdditionWraps : Obligations.RegisterAdditionWraps := by
  intro m c x hr hc hw y
  rcases Nat.lt_or_ge (x.r + c) m with room | wrap
  · have hy : y = ({ x with r := x.r + c }, false) := BReg.add_of_room room
    have turn : (x.w + 65536 - x.w) % 65536 = 0 := by omega
    rw [hy]
    simp only [turn]
    exact ⟨room, hw, by simpa using room, by rw [Nat.add_assoc], by omega⟩
  · have hy : y = ({ r := x.r + c - m, w := (x.w + 1) % 65536 }, true) := BReg.add_of_wrap wrap
    have turn : ((x.w + 1) % 65536 + 65536 - x.w) % 65536 = 1 := by omega
    rw [hy]
    simp only [turn]
    refine ⟨by omega, by omega, by simpa using wrap, ?_, by omega⟩
    rcases Nat.lt_or_ge (x.w + 1) 65536 with small | full
    · rw [Nat.mod_eq_of_lt small, Nat.add_mul]
      congr 1
      omega
    · have last : x.w = 65535 := by omega
      have total : x.w * m + x.r + c = (x.r + c - m) + 65536 * m := by
        rw [last]
        omega
      rw [total, Nat.add_mod_right, last]
      simp

end

/-! ### The maximum table (R137) -/

section
variable {secs x j k : Nat} {t : Tab (Nat × Nat)} {ds : List Nat}

/-- The maximum held at a key. -/
def maxAt (t : Tab (Nat × Nat)) (k : Nat) : Nat := (tabGet (0, 0) t k).1

/-- A maximum table with a demand entered at a key, when it is above what is held there. -/
def raiseMax (secs k x : Nat) (t : Tab (Nat × Nat)) : Tab (Nat × Nat) := if maxAt t k < x then tabPut (0, 0) k (x, secs) t else t

/-- A demand above a maximum is not 0, so it reads back in any table. -/
theorem maxAt_raiseMax_self : maxAt (raiseMax secs k x t) k = max (maxAt t k) x := by
  unfold raiseMax
  split
  next above =>
    have entry : (x, secs) ≠ (0, 0) := ne_of_apply_ne Prod.fst (Nat.ne_zero_of_lt above)
    rw [show maxAt _ k = x from congrArg Prod.fst (tabGet_tabPut_of_ne_default _ k _ entry t), Nat.max_eq_right above.le]
  next below => rw [Nat.max_eq_left (Nat.not_lt.mp below)]

theorem maxAt_raiseMax_of_ne (h : j ≠ k) : maxAt (raiseMax secs k x t) j = maxAt t j := by
  unfold raiseMax
  split
  · exact congrArg Prod.fst (tabGet_tabPut_of_ne _ h _ t)
  · rfl

theorem maxAt_le_raiseMax (j : Nat) : maxAt t j ≤ maxAt (raiseMax secs k x t) j := by
  by_cases h : j = k
  · rw [h, maxAt_raiseMax_self]
    exact Nat.le_max_left _ _
  · rw [maxAt_raiseMax_of_ne h]

/-- The demand of a slot entered for its tariff and for the total. -/
def enterDemand (secs tariff : Nat) (ds : List Nat) (t : Tab (Nat × Nat)) (j : Nat) : Tab (Nat × Nat) :=
  raiseMax secs j (ds.getD j 0) (raiseMax secs (4 * (1 + tariff) + j) (ds.getD j 0) t)

theorem maxAt_le_enterDemand {tariff : Nat} (k : Nat) : maxAt t k ≤ maxAt (enterDemand secs tariff ds t j) k :=
  (maxAt_le_raiseMax k).trans (maxAt_le_raiseMax k)

theorem maxAt_le_foldl_enterDemand {tariff : Nat} (slots : List Nat) (k : Nat) :
    maxAt t k ≤ maxAt (slots.foldl (enterDemand secs tariff ds) t) k :=
  List.foldlRecOn slots _ (motive := fun u => maxAt t k ≤ maxAt u k) le_rfl fun _ hu _ _ => hu.trans (maxAt_le_enterDemand k)

theorem le_maxAt_enterDemand {tariff : Nat} : ds.getD j 0 ≤ maxAt (enterDemand secs tariff ds t j) j := by
  rw [enterDemand, maxAt_raiseMax_self]
  exact Nat.le_max_right _ _

/-- Slot 0 is a demand slot of every isle, and the first. -/
theorem demSlots_eq_cons (elec : Bool) (type : Nat) : ∃ slots, demSlots elec type = 0 :: slots := by
  unfold demSlots
  split_ifs <;> exact ⟨_, rfl⟩

end

/-! ### The end of a sub-interval (R137) -/

section
variable {d : Dev} {n k : Nat} {due : DemEnd}

/-- In a canonical table of isles every write reads back. -/
theorem isle_upIsle_of_tabWf {f : IsleSt → IsleSt} (h : tabWf IsleSt.init d.run.isles = true) :
    (d.upIsle n f).isle n = f (d.isle n) := tabGet_tabPut_self n _ h

theorem isle_upIsle_of_ne {f : IsleSt → IsleSt} (h : k ≠ n) : (d.upIsle n f).isle k = d.isle k := tabGet_tabPut_of_ne _ h _ _

/-- The energies of the running interval, slot by slot: its sub-intervals with the one that ends. -/
def Dev.intervalEnergy (d : Dev) (n : Nat) : List Int :=
  (((d.isle n).dem.cur :: (d.isle n).dem.subs).take (d.isle n).cfgF.subint).foldl addSlots [0, 0, 0]

/-- The demands of those energies. -/
def Dev.intervalDemands (d : Dev) (n : Nat) : List Nat :=
  (List.range 3).map fun j => demandOf (d.isle n).cfgF.mins ((d.intervalEnergy n).getD j 0)

theorem getD_map_range_three (f : Nat → Nat) : ((List.range 3).map f).getD 0 0 = f 0 := rfl

theorem getD_intervalDemands_zero (d : Dev) (n : Nat) :
    (d.intervalDemands n).getD 0 0 = demandOf (d.isle n).cfgF.mins ((d.intervalEnergy n).getD 0 0) :=
  getD_map_range_three _

/-- A sub-interval's end is one update of its isle, with the last demands and the maximum table as named. -/
theorem closeDemand_eq (d : Dev) (n : Nat) (due : DemEnd) : ∃ f : IsleSt → IsleSt, d.closeDemand n due = d.upIsle n f ∧
    (f (d.isle n)).dem.last = d.intervalDemands n ∧
    (f (d.isle n)).dem.max = (demSlots (d.ilElec n) (d.ilType n)).foldl
      (enterDemand due.secs (d.isle n).cfgF.tariff (d.intervalDemands n)) (d.isle n).dem.max := by
  unfold Dev.closeDemand
  extract_lets
  exact ⟨_, rfl, rfl, rfl⟩

/-- Settles O40: the isle reads back what `closeDemand_eq` says, its table by `maxAt_le_foldl_enterDemand`. -/
theorem maximumDemandNeverFalls : Obligations.MaximumDemandNeverFalls := by
  intro d n due wf
  obtain ⟨f, closed, last, table⟩ := closeDemand_eq d n due
  have isle : (d.closeDemand n due).isle n = f (d.isle n) := by rw [closed, isle_upIsle_of_tabWf wf]
  refine ⟨fun k => ?_, ⟨?_, ?_⟩, fun k hk => ?_⟩
  · rw [isle, table]
    exact maxAt_le_foldl_enterDemand _ k
  · rw [isle, last, Dev.intervalDemands, Dev.intervalEnergy]
  · obtain ⟨slots, first⟩ := demSlots_eq_cons (d.ilElec n) (d.ilType n)
    rw [isle, table, first, List.foldl_cons]
    refine (getD_intervalDemands_zero d n).symm.trans_le ?_
    exact (le_maxAt_enterDemand (ds := d.intervalDemands n)).trans (maxAt_le_foldl_enterDemand slots 0)
  · rw [closed, isle_upIsle_of_ne hk]

end

end Sys2Proof.Machine
end

section
/-! Commands on time and calendars (06_billing R132, R148, R152, 09_store R226, 10_power R249). The role of a plan's passive tile is
written to one copy of its record, a single tile of 1,024 bytes. -/

open Sys2Proof Sys2Proof.Machine Sys2Proof.Safety

namespace Sys2Proof.Machine

variable {s : State} {d e : Dev} {l : Link} {a : List Byte} {x : Bool}

/-! ### SAVE_NOW (R226), WAKE_AT and WAKE_CLEAR (R249) -/

theorem saveNow_leaves (ha : admitCmd s.dev l 0x04 [] false true = some (x, e)) :
    leaves (.saveNow l []) s (answered { e with store := { e.store with saveAsk := true } } l .done []) :=
  command_leaves rfl ha rfl rfl

theorem wakeClear_leaves (ha : admitCmd s.dev l 0x13 [] false true = some (x, e)) :
    leaves (.wakeClear l []) s (answered { e with pwr := { e.pwr with wakes := [] } } l .done []) :=
  command_leaves rfl ha rfl rfl

theorem wakeAt_leaves (ha : admitCmd s.dev l 0x12 a false true = some (x, e)) (len : a.length = 4) (room : e.pwr.wakes.length < 16) :
    leaves (.wakeAt l a) s (answered { e with pwr := { e.pwr with wakes := e.pwr.wakes ++ [u32 a 0] } } l .done []) :=
  command_leaves rfl ha (by simp [len]) (if_neg (Nat.not_le.mpr room))

theorem wakeAt_full (ha : admitCmd s.dev l 0x12 a false true = some (x, e)) (len : a.length = 4) (full : 16 ≤ e.pwr.wakes.length) :
    leaves (.wakeAt l a) s (answered e l .busy []) :=
  command_leaves rfl ha (by simp [len]) (if_pos full)

/-! ### CLOSE_NOW (R148) -/

theorem closeNow_leaves (ha : admitCmd s.dev l 0x1B a true true = some (x, e)) (len : a.length = 16) :
    leaves (.closeNow l a) s (answered { e with link := { e.link with closeNow := e.link.closeNow ||| leVal a } } l .done []) :=
  command_leaves rfl ha (by simp [len]) rfl

/-! ### OFFSET_SET (R152) -/

/-- A local offset in minutes that R152 allows. -/
abbrev OffsetOk (o : Int) : Prop := -720 ≤ o ∧ o ≤ 840 ∧ o % 15 = 0

/-- The new current offset of the arguments. -/
def currentOffset (a : List Byte) : Int := sext 16 (u16 a 0)

/-- The changes that the arguments schedule, each a time and an offset. -/
def offsetChanges (a : List Byte) : List (Nat × Int) :=
  (List.range (u8 a 2)).map fun i => (u32 a (3 + 6 * i), sext 16 (u16 a (7 + 6 * i)))

theorem offsetSet_leaves (ha : admitCmd s.dev l 0x11 a true true = some (x, e)) (head : 3 ≤ a.length)
    (len : a.length = 3 + 6 * u8 a 2) (count : u8 a 2 ≤ 4) (current : OffsetOk (currentOffset a))
    (changes : ∀ y ∈ offsetChanges a, OffsetOk y.2)
    (order : ascending (e.clk.secs :: (offsetChanges a).map fun y => y.1) = true) :
    leaves (.offsetSet l a) s (answered
      (e.mapClk fun c => { c with newOff := some (currentOffset a), sched := offsetChanges a }).saveTimeRec l .done []) :=
  command_leaves rfl ha (by simpa [head] using len) (if_pos ⟨count, decide_eq_true current,
    List.all_eq_true.mpr fun y hy => decide_eq_true (changes y hy), order⟩)

theorem offsetSet_refused (ha : admitCmd s.dev l 0x11 a true true = some (x, e)) (head : 3 ≤ a.length)
    (len : a.length = 3 + 6 * u8 a 2) (bad : 4 < u8 a 2 ∨ ¬ OffsetOk (currentOffset a)) :
    leaves (.offsetSet l a) s (answered e l .range []) := by
  refine command_leaves rfl ha (by simpa [head] using len) (if_neg ?_)
  rintro ⟨count, current, -⟩
  exact bad.elim (Nat.not_lt.mpr count) (· (of_decide_eq_true current))

theorem clk_answered {st : Status} {q : List Byte} : (answered d l st q).clk = d.clk := rfl

theorem clk_saveTimeRec : Keeps Dev.clk d d.saveTimeRec := by
  unfold Dev.saveTimeRec Dev.putTimeRecord Dev.putRecord Dev.putCopy Dev.putTiles
  exact (Keeps.refl d).mapStore.mapStore

/-- Settles O25: each command by what its access gives, in the tick of its acceptance as the model chose (log 58). -/
theorem timeCommandsTakeEffect : Obligations.TimeCommandsTakeEffect := by
  refine ⟨fun s l x e ha => saveNow_leaves ha,
    fun s l a x e len ha => ⟨wakeAt_leaves ha len, wakeAt_full ha len⟩,
    fun s l x e ha => wakeClear_leaves ha,
    fun s l a x e len ha => gives_of_leaves (closeNow_leaves ha len) ⟨rfl, fun n => Nat.testBit_or _ _ n⟩,
    fun s l a x e head len ha => ⟨fun count current changes order => ?_, offsetSet_refused ha head len⟩⟩
  refine gives_of_leaves (offsetSet_leaves ha head len count current changes order) ⟨?_, resp_answered⟩
  rw [clk_answered, clk_saveTimeRec.eq]
  rfl

/-! ### One tile of a twin record (R215) -/

theorem length_leBytes (k n : Nat) : (leBytes k n).length = k := by
  induction k generalizing n with
  | zero => rfl
  | succ k ih => rw [leBytes, List.length_cons, ih]

theorem length_sliceB (b : List Byte) (o n : Nat) : (sliceB b o n).length = n := by
  simp [sliceB]

theorem length_twTile (part parts seq record : Nat) (payload : List Byte) : (twTile part parts seq record payload).length = 1024 := by
  simp only [twTile, List.length_append, length_leBytes, length_sliceB]
  rfl

theorem mram_putTiles_tile (d : Dev) (t : Nat) (data : List Byte) :
    (d.putTiles [(t, data)]).store.mram = memWrite d.store.mram (1024 * t) data := rfl

theorem putCopy_tile (d : Dev) (code tile0 record : Nat) (dst : Nat × Bool) (payload : List Byte) :
    d.putCopy code tile0 record dst [payload] = d.putTiles
      [(if dst.2 then (d.copyTiles code tile0).1 else (d.copyTiles code tile0).2, twTile 0 1 dst.1 record payload)] := rfl

/-- A record of one tile is written within the tile of copy A or of copy B. -/
theorem memGet_putCopy_of_not_mem {code tile0 record b : Nat} {dst : Nat × Bool} {payload : List Byte}
    (hA : b / 1024 ≠ (d.copyTiles code tile0).1) (hB : b / 1024 ≠ (d.copyTiles code tile0).2) :
    memGet (d.putCopy code tile0 record dst [payload]).store.mram b = memGet d.store.mram b := by
  rw [putCopy_tile, mram_putTiles_tile]
  refine memGet_memWrite_of_not_mem _ _ _ _ ?_
  rw [length_twTile]
  split <;> omega

/-! ### Calendars (R132) -/

/-- Writing the calendar record leaves the SRAM, and of the store only the two copies of that record are written. -/
theorem putCalRecord_keeps (d : Dev) (r : List (Bool × Bool × Bool)) : (d.putCalRecord r).store.sram = d.store.sram ∧
    ∀ b, b / 1024 ≠ (d.copyTiles 6 2).1 → b / 1024 ≠ (d.copyTiles 6 2).2 →
      memGet (d.putCalRecord r).store.mram b = memGet d.store.mram b :=
  ⟨rfl, fun _ hA hB => memGet_putCopy_of_not_mem (d := d.mapStore _) hA hB⟩

theorem calCancel_leaves {p : Byte} (ha : admitCmd s.dev l 0x19 [p] true true = some (x, e)) (hp : p.toNat ≤ 3) :
    leaves (.calCancel l [p]) s (answered (e.holdPassive p.toNat false) l .done []) :=
  command_leaves rfl ha rfl (if_neg (Nat.not_lt.mpr hp))

theorem calRead_leaves {p w : Byte} (ha : admitCmd s.dev l 0x1A [p, w] false true = some (x, e)) (hp : p.toNat ≤ 3)
    (hw : w.toNat ≤ 1) :
    leaves (.calRead l [p, w]) s (answered e l .done ((e.calendar p.toNat (decide (w.toNat = 1))).getD [])) :=
  command_leaves rfl ha rfl (if_neg (not_or.mpr ⟨Nat.not_lt.mpr hp, Nat.not_lt.mpr hw⟩))

/-- Settles O26: the answers by what their access gives (CAL_CANCEL at acceptance, log 58), the record alone by
`putCalRecord_keeps`. -/
theorem calendarCommandsTakeEffect : Obligations.CalendarCommandsTakeEffect :=
  ⟨fun _ _ _ _ _ ha => ⟨fun hp => ⟨calCancel_leaves ha hp, putCalRecord_keeps _ _⟩, fun hp => command_leaves rfl ha rfl (if_pos hp)⟩,
    fun _ _ _ _ _ _ ha => ⟨calRead_leaves ha, fun bad => command_leaves rfl ha rfl (if_pos bad)⟩⟩

end Sys2Proof.Machine
end

section
/-! Relay holds (06_billing R143, 11_ports_partners R280, 12_events_tamper R314, 15_host_link R379). The two commands wait for the
tick boundary; there the holds change as a list, and neither the command queued for the relay nor a record logged touches them. -/

open Sys2Proof Sys2Proof.Machine Sys2Proof.Safety

namespace Sys2Proof.Machine

variable {s : State} {d₀ d e : Dev} {l : Link} {a b k : Byte} {t : Nat} {x : Bool}

/-! ### RELAY_HOLD and RELAY_RELEASE -/

theorem relayHold_leaves (ha : admitCmd s.dev l 0x48 [a, b, k] true true = some (x, e)) (ht : a.toNat + 256 * b.toNat = t)
    (kind : k.toNat ≤ 1) (target : e.targetExists t = true) :
    leaves (.relayHold l [a, b, k]) s (answered (e.relayLater t k.toNat false) l .done []) := by
  subst ht
  exact command_leaves rfl ha rfl (if_neg (not_or.mpr ⟨Nat.not_lt.mpr kind, ne_false_of_eq_true target⟩))

/-- A source that is RAISED holds a target with a tamper hold. -/
def Dev.raisedHolds (d : Dev) (t : Nat) : Bool :=
  d.bak.holds.any fun h => h.target == t && h.kind == 2 && (d.ledger h.source).raised

theorem raisedHolds_iff : d.raisedHolds t = true ↔ ∃ h ∈ d.bak.holds, h.target = t ∧ h.kind = 2 ∧ (d.ledger h.source).raised = true := by
  simp [Dev.raisedHolds, and_assoc]

theorem relayRelease_leaves (ha : admitCmd s.dev l 0x49 [a, b, k] (decide (k.toNat < 2)) true = some (x, e))
    (ht : a.toNat + 256 * b.toNat = t) (kind : k.toNat ≤ 2) (target : e.targetExists t = true)
    (tamper : k.toNat = 2 → e.roleOf x = 0 ∧ e.raisedHolds t = false) :
    leaves (.relayRelease l [a, b, k]) s (answered (e.relayLater t k.toNat true) l .done []) := by
  subst ht
  refine command_leaves rfl ha rfl ((if_neg (not_or.mpr ⟨Nat.not_lt.mpr kind, ne_false_of_eq_true target⟩)).trans (if_neg ?_))
  rintro ⟨two, stranger | raised⟩
  · exact stranger (tamper two).1
  · exact Bool.false_ne_true ((tamper two).2.symm.trans raised)

theorem relayRelease_denied (ha : admitCmd s.dev l 0x49 [a, b, k] (decide (k.toNat < 2)) true = some (x, e))
    (ht : a.toNat + 256 * b.toNat = t) (target : e.targetExists t = true) (two : k.toNat = 2)
    (denied : e.roleOf x ≠ 0 ∨ e.raisedHolds t = true) : leaves (.relayRelease l [a, b, k]) s (answered e l .denied []) := by
  subst ht
  exact command_leaves rfl ha rfl ((if_neg (not_or.mpr ⟨Nat.not_lt.mpr two.le, ne_false_of_eq_true target⟩)).trans
    (if_pos ⟨two, denied⟩))

/-! ### Holds at the tick boundary -/

theorem bak_relayUpdate {cls : Nat} : (d.relayUpdate t cls).bak = d.bak := by
  unfold Dev.relayUpdate
  dsimp only
  split_ifs <;> rfl

/-- A hold that is placed stands once, behind those that stood. -/
theorem holds_placeHold (h : Hold) (cls : Nat) :
    (d.placeHold h cls).bak.holds = if h ∈ d.bak.holds then d.bak.holds else d.bak.holds ++ [h] := by
  unfold Dev.placeHold
  split
  · rfl
  · rw [bak_relayUpdate]
    rfl

theorem mem_holds_placeHold {h g : Hold} {cls : Nat} : g ∈ (d.placeHold h cls).bak.holds ↔ g ∈ d.bak.holds ∨ g = h := by
  rw [holds_placeHold]
  split
  next held => exact ⟨.inl, fun hg => hg.elim id fun same => same ▸ held⟩
  next => simp

theorem relayOpen_of_mem {h : Hold} (mem : h ∈ d.bak.holds) : d.relayOpen h.target = true :=
  List.any_eq_true.mpr ⟨h, mem, beq_self_eq_true _⟩

theorem mem_holds_releaseHolds {f : Hold → Bool} {h : Hold} :
    h ∈ (d.releaseHolds t f).bak.holds ↔ h ∈ d.bak.holds ∧ ¬ (h.target = t ∧ f h = true) := by
  unfold Dev.releaseHolds
  rw [bak_relayUpdate]
  simp [imp_iff_not_or]

theorem bak_logNow {code origin detail} (h : Keeps Dev.bak d₀ d) : Keeps Dev.bak d₀ (d.logNow code origin detail) :=
  h.update (congrArg (a₁ := (d.logNow code origin detail).unlogged) (a₂ := d.unlogged) Dev.bak (unlogged_logNow (.refl d)).eq)

/-- What a release of demand holds clears and logs is none of the backup register file. -/
theorem bak_releaseDemand : Keeps Dev.bak (d.releaseHolds t fun h => h.kind == 1) (d.releaseDemand t) :=
  Keeps.foldl (.refl _) fun _ _ he => .ite (bak_logNow he.upIsle) (bak_logNow he)

/-- A release of any kind leaves the holds of other kinds and on other targets. -/
theorem mem_holds_released {kind : Nat} {h : Hold} :
    h ∈ (d.relayNow (t, kind, true)).bak.holds ↔ h ∈ d.bak.holds ∧ ¬ (h.target = t ∧ h.kind = kind) := by
  have listed : (d.relayNow (t, kind, true)).bak = (d.releaseHolds t fun h => h.kind == kind).bak := by
    by_cases demand : kind = 1
    · subst demand
      exact bak_releaseDemand.eq
    · exact congrArg Dev.bak (if_neg demand)
  rw [listed, mem_holds_releaseHolds, beq_iff_eq]

/-- Settles O30: the commands by what their access gives, the holds by `mem_holds_placeHold` and `mem_holds_released`. That a hold
of the host carries source 128 is the model's choice (log 50). -/
theorem relayHoldsOpenAndRelease : Obligations.RelayHoldsOpenAndRelease := by
  refine ⟨fun s l a b k x e ha kind target => relayHold_leaves ha rfl kind target,
    fun s l a b k x e ha target => ⟨fun kind tamper => relayRelease_leaves ha rfl kind target tamper,
      fun two denied => relayRelease_denied ha rfl target two (denied.imp_right raisedHolds_iff.mpr)⟩,
    fun d t k _ => ⟨fun _ => ?_, fun _ h => mem_holds_released⟩⟩
  have placed : ({ target := t, kind := k, source := 128 } : Hold) ∈ (d.relayNow (t, k, false)).bak.holds :=
    mem_holds_placeHold.mpr (.inr rfl)
  exact ⟨relayOpen_of_mem placed, placed, fun h held => mem_holds_placeHold.mpr (.inl held)⟩

end Sys2Proof.Machine
end

section
/-! Writes of a register word that a rule refuses (07_legal_readout R162, 15_host_link R376, R377). -/

open Sys2Proof Sys2Proof.Machine Sys2Proof.Safety

namespace Sys2Proof.Machine

variable {c : Instr} {s : State} {d e : Dev} {l : Link} {a n : Nat} {v : Word} {x : Bool} {st : Status}

theorem writeRegs_refused (h : d.wordRefusal x a n = some st) : d.writeRegs x a [n] = (st, [], d) := by
  simp [Dev.writeRegs, h]

/-- An admitted write of one register word that a rule refuses answers that rule's status alone. -/
theorem wordWrite_refused (hc : wordWrite c = some (l, a, v)) (ha : a < 0x40000)
    (had : admitted s.dev l 1 a 4 (leBytes 4 v.toNat) = some (x, e)) (hr : e.wordRefusal x a v.toNat = some st) :
    leaves c s (e.respond (linkCmd l 1) st []) := by
  obtain ⟨aligned, mapped⟩ := wordWrite_addr hc ha
  have len : (leBytes 4 v.toNat).length = 4 := rfl
  refine leaves_of_onDev (exec_of_wordWrite hc s) ?_
  rw [Dev.wr, if_pos ha, Dev.wrRegs, len, decide_eq_true ⟨aligned, rfl⟩, mapped, transact_of_admit had, if_pos rfl,
    wordsOf_leBytes_word, writeRegs_refused hr]

theorem wordRefusal_sealed (lk : (regAcc a).1 = .lk) (h : d.sealOpen = false ∨ d.tam.freeze = true) :
    d.wordRefusal x a n = some .sealed := by
  have shut : (!d.sealOpen || d.tam.freeze) = true := by simpa using h
  simp only [Dev.wordRefusal, lk, if_pos shut]

theorem wordRefusal_denied (lk : (regAcc a).1 = .lk) (isOpen : d.sealOpen = true) (free : d.tam.freeze = false)
    (role : d.roleOf x ≠ 1) : d.wordRefusal x a n = some .denied := by
  simp [Dev.wordRefusal, lk, isOpen, free, role]

/-- Settles O21: the seal and the session refuse an LK word, and every refusal leaves the device but for its response. -/
theorem refusedWordWriteChangesNothing : Obligations.RefusedWordWriteChangesNothing :=
  fun _ _ _ _ _ _ _ _ hc ha had =>
    ⟨fun lk shut => wordWrite_refused hc ha had (wordRefusal_sealed lk shut),
      fun lk isOpen free role => wordWrite_refused hc ha had (wordRefusal_denied lk isOpen free role),
      fun refused => wordWrite_refused hc ha had refused⟩

end Sys2Proof.Machine
end

section
/-! Tick boundaries outside RUN and DOZE (07_legal_readout R161, 10_power R246, R250, R252, 11_ports_partners R277) and the test
access port (17_electrical_package R412). Asleep a tick counts its frame; NAP samples the pads before, which writes the ports of
PULSE inputs and nothing else of any port; a wake that is due and can take effect ends the rest. That the clock goes on asleep, in
HOLD and in reset is log 38, the count of the frames log 36, the controller log 77. -/

open Sys2Proof Sys2Proof.Machine Sys2Proof.Safety

namespace Sys2Proof.Machine

variable {s : State} {d₀ d : Dev} {inp : TickInput} {low : List Nat} {tck : List (Bool × Bool)} {t : Tap} {cells : List Bool}

/-! ### The test access port -/

theorem Tap.at_fall : t.fall.at_ = t.at_ := by
  unfold Tap.fall
  split <;> rfl

theorem Tap.at_clock {tms tdi : Bool} : (t.clock cells tms tdi).at_ = t.at_.next tms := Tap.at_fall

/-- A falling edge in reset selects IDCODE. -/
theorem Tap.instr_fall_of_reset (h : t.at_ = .testLogicReset) : t.fall.instr = .idcode := by
  simp only [Tap.fall, h]

/-- The controller after cycles of TCK, each with its levels of TMS and TDI. -/
def Tap.cycles (t : Tap) (cells : List Bool) (tck : List (Bool × Bool)) : Tap := tck.foldl (fun t e => t.clock cells e.1 e.2) t

theorem Tap.at_cycles_high (tdi : List Bool) (t : Tap) :
    (t.cycles cells (tdi.map fun b => (true, b))).at_ = (fun a => TapState.next a true)^[tdi.length] t.at_ := by
  induction tdi generalizing t with
  | nil => rfl
  | cons b tdi ih => exact (ih (t.clock cells true b)).trans (congrArg _ Tap.at_clock)

/-- From every state five cycles with TMS high reach reset (R412). -/
theorem TapState.five_high (a : TapState) : (fun a => TapState.next a true)^[5] a = .testLogicReset := by
  cases a <;> rfl

/-- Cycles of TCK that end in reset leave IDCODE selected. -/
theorem Tap.instr_cycles_of_reset (edges : tck ≠ []) (h : (t.cycles cells tck).at_ = .testLogicReset) :
    (t.cycles cells tck).instr = .idcode := by
  obtain ⟨init, last, rfl⟩ := (List.eq_nil_or_concat tck).resolve_left edges
  rw [List.concat_eq_append, Tap.cycles, List.foldl_append] at h ⊢
  exact Tap.instr_fall_of_reset (Tap.at_fall.symm.trans h)

theorem testAccess_hold (h : d.pwr.mode = .hold) : d.testAccess tck = { d with tap := .reset } := if_pos h

theorem testAccess_powered (h : d.pwr.mode ≠ .hold) :
    d.testAccess tck = { d with tap := d.tap.cycles d.boundary tck } := if_neg h

theorem testAccess_eq (d : Dev) (tck : List (Bool × Bool)) : d.testAccess tck = { d with tap := (d.testAccess tck).tap } := by
  by_cases h : d.pwr.mode = .hold
  · rw [testAccess_hold h]
  · rw [testAccess_powered h]

theorem pwr_testAccess : (d.testAccess tck).pwr = d.pwr := by
  rw [testAccess_eq]

theorem testAccess_five_high {tdi : List Bool} (powered : d.pwr.mode ≠ .hold) (five : tdi.length = 5) :
    let t := (d.testAccess (tdi.map fun b => (true, b))).tap
    t.at_ = .testLogicReset ∧ t.instr = .idcode := by
  rw [testAccess_powered powered]
  have reset : (d.tap.cycles d.boundary (tdi.map fun b => (true, b))).at_ = .testLogicReset := by
    rw [Tap.at_cycles_high, five, TapState.five_high]
  have edges : tdi.map (fun b => (true, b)) ≠ [] := List.ne_nil_of_length_eq_add_one (by rw [List.length_map, five])
  exact ⟨reset, Tap.instr_cycles_of_reset edges reset⟩

/-! ### The pads sampled in NAP -/

theorem sampleScroll_eq (d : Dev) (low : List Nat) :
    ∃ c r, d.sampleScroll low = { d with dsp := { d.dsp with scroll := c, scrollRun := r } } := by
  by_cases same : (decide (4 ∈ low) == d.dsp.scroll.isSome) = true
  · exact ⟨_, _, congrArg (fun x => { d with dsp := x }) (if_pos same)⟩
  · by_cases few : d.dsp.scrollRun < 159
    · exact ⟨_, _, congrArg (fun x => { d with dsp := x }) ((if_neg same).trans (if_pos few))⟩
    · exact ⟨_, _, congrArg (fun x => { d with dsp := x }) ((if_neg same).trans (if_neg few))⟩

theorem samplePads_eq (d : Dev) (low : List Nat) : ∃ q c r, d.samplePads low =
    { d with tam := { d.tam with pinRun := q }, dsp := { d.dsp with scroll := c, scrollRun := r } } := by
  obtain ⟨c, r, scroll⟩ := sampleScroll_eq (d.samplePins low) low
  exact ⟨_, c, r, scroll⟩

/-- The device without its ports. -/
def Dev.unported (d : Dev) : Dev := { d with ports := Dev.reset.ports }

theorem eq_of_unported (h : Keeps Dev.unported d₀ d) : d = { d₀ with ports := d.ports } :=
  congrArg (fun x => { x with ports := d.ports }) h.eq

theorem samplePulses_eq (d : Dev) (low : List Nat) : d.samplePulses low = { d with ports := (d.samplePulses low).ports } :=
  eq_of_unported ((Keeps.refl d).forEach fun _ _ he => he.forEach fun _ _ he => he.update rfl)

theorem port_upPort_of_ne {p k : Nat} {f : PortSt → PortSt} (h : p ≠ k) : (d.upPort k f).port p = d.port p :=
  tabGet_tabPut_of_ne _ h _ _

/-- `Keeps.forEach` for a change of the listed units alone. -/
theorem Keeps.forEachMem {β : Type} {p : Dev → β} {l : List Nat} {f : Nat → Dev → Dev} (h : Keeps p d₀ d)
    (hf : ∀ n ∈ l, ∀ e, Keeps p d₀ e → Keeps p d₀ (f n e)) : Keeps p d₀ (d.forEach l f) :=
  List.foldlRecOn l (fun e n => f n e) (motive := Keeps p d₀) h fun e he n hn => hf n hn e he

/-- Only the ports of PULSE inputs change with their samples (R277). -/
theorem port_samplePulses {p : Nat} (h : d.poModule p ≠ 3) : (d.samplePulses low).port p = d.port p := by
  refine (Keeps.forEachMem (p := fun e => e.port p) (.refl d) fun k hk e he => ?_).eq
  have other : p ≠ k := by
    rintro rfl
    simp [h] at hk
  exact he.forEach fun i x hx => hx.update (port_upPort_of_ne other)

/-! ### A tick asleep -/

/-- The device a tick later, the frame that starts with it counted until the voltage check (R250). -/
def Dev.restTick (d : Dev) : Dev :=
  { d with clk := d.clk.advance,
           pwr := { d.pwr with idle := if d.clk.advance.tick % 3200 = 0 then d.pwr.idle + 1 else d.pwr.idle } }

theorem countFrame_eq_restTick (d : Dev) :
    (if (d.mapClk Clock.advance).off = 0 then (d.mapClk Clock.advance).mapPwr fun p => { p with idle := p.idle + 1 }
      else d.mapClk Clock.advance) = d.restTick := by
  have counts : (d.mapClk Clock.advance).off = d.clk.advance.tick % 3200 := rfl
  rw [counts, Dev.restTick]
  split_ifs <;> rfl

theorem tickAsleep_eq (d : Dev) (inp : TickInput) :
    let e := (if d.pwr.mode = .nap then (d.samplePads inp.low).samplePulses inp.low else d).restTick
    d.tickAsleep inp = if e.pwr.waking && e.canWake then e.wakeUp else e := by
  unfold Dev.tickAsleep
  simp only [countFrame_eq_restTick]

theorem tick_nap (nap : d.pwr.mode = .nap) (rests : d.pwr.waking = false) :
    d.tick inp = ((d.samplePads inp.low).samplePulses inp.low).restTick := by
  have stays : ((d.samplePads inp.low).samplePulses inp.low).restTick.pwr.waking = false := by
    obtain ⟨q, c, r, pads⟩ := samplePads_eq d inp.low
    rw [samplePulses_eq, pads]
    exact rests
  rw [Dev.tick, nap]
  dsimp only
  rw [tickAsleep_eq, if_pos nap, stays]
  rfl

theorem tick_sleep (sleep : d.pwr.mode = .sleep) :
    d.tick inp = if d.restTick.pwr.waking && d.restTick.canWake then d.restTick.wakeUp else d.restTick := by
  have quiet : ¬ d.pwr.mode = .nap := by simp [sleep]
  rw [Dev.tick, sleep]
  dsimp only
  rw [tickAsleep_eq, if_neg quiet]

/-- SLEEP resumes at a multiple of 125 ticks (R252). -/
theorem canWake_sleep (sleep : d.pwr.mode = .sleep) : d.canWake = true ↔ d.clk.tick % 125 = 0 := by
  simp [Dev.canWake, sleep]

theorem tick_sleep_rests (sleep : d.pwr.mode = .sleep) (h : d.pwr.waking = false ∨ d.clk.advance.tick % 125 ≠ 0) :
    d.tick inp = d.restTick := by
  have resumes : d.restTick.canWake = true ↔ d.clk.advance.tick % 125 = 0 := canWake_sleep sleep
  rw [tick_sleep sleep, if_neg]
  rw [Bool.and_eq_true, resumes]
  rintro ⟨waking, resume⟩
  exact h.elim (fun rests => Bool.false_ne_true (rests.symm.trans waking)) fun inside => inside resume

theorem tick_sleep_wakes (sleep : d.pwr.mode = .sleep) (waking : d.pwr.waking = true) (h : d.clk.advance.tick % 125 = 0) :
    d.tick inp = d.restTick.wakeUp := by
  have resumes : d.restTick.canWake = true := (canWake_sleep (d := d.restTick) sleep).mpr h
  rw [tick_sleep sleep, resumes, Bool.and_true]
  exact if_pos waking

theorem wakeUp_awake (d : Dev) : d.wakeUp.pwr.mode = .doze ∧ d.wakeUp.pwr.waking = false := ⟨rfl, rfl⟩

/-! ### The boundary in each power state -/

theorem tick_hold (h : d.pwr.mode = .hold) : d.tick inp = { d with clk := d.clk.advance } := by
  rw [Dev.tick, h]
  rfl

theorem tick_reset (h : d.pwr.mode = .reset) : d.tick inp = { d with clk := d.clk.advance } := by
  rw [Dev.tick, h]
  rfl

theorem tickBoundary_gives {p : Dev → Prop} (h : p ((s.dev.tick inp).testAccess inp.tck)) : gives (.tickBoundary inp) s p :=
  ⟨_, rfl, rfl, h⟩

theorem tickBoundary_hold (h : s.dev.pwr.mode = .hold) :
    gives (.tickBoundary inp) s fun d => d = { s.dev with clk := s.dev.clk.advance, tap := Tap.reset } :=
  tickBoundary_gives (by rw [tick_hold h]; exact testAccess_hold h)

theorem tickBoundary_reset (h : s.dev.pwr.mode = .reset) :
    gives (.tickBoundary inp) s fun d => d = { s.dev with clk := s.dev.clk.advance, tap := d.tap } :=
  tickBoundary_gives (by rw [tick_reset h]; exact testAccess_eq _ _)

theorem napTick_eq (d : Dev) (low : List Nat) :
    let e := ((d.samplePads low).samplePulses low).restTick
    e = { d.restTick with tam := { d.tam with pinRun := e.tam.pinRun },
                          dsp := { d.dsp with scroll := e.dsp.scroll, scrollRun := e.dsp.scrollRun }, ports := e.ports } := by
  obtain ⟨q, c, r, pads⟩ := samplePads_eq d low
  rw [samplePulses_eq, pads]
  rfl

theorem tickBoundary_nap (nap : s.dev.pwr.mode = .nap) (rests : s.dev.pwr.waking = false) :
    gives (.tickBoundary inp) s fun d =>
      d = { s.dev.restTick with tam := { s.dev.tam with pinRun := d.tam.pinRun },
                                dsp := { s.dev.dsp with scroll := d.dsp.scroll, scrollRun := d.dsp.scrollRun },
                                ports := d.ports, tap := d.tap } ∧
      ∀ p, s.dev.poModule p ≠ 3 → d.port p = s.dev.port p := by
  have sampled := napTick_eq s.dev inp.low
  have powered : ((s.dev.samplePads inp.low).samplePulses inp.low).restTick.pwr.mode ≠ .hold := by
    rw [sampled]
    exact ne_of_eq_of_ne nap PMode.noConfusion
  refine tickBoundary_gives ?_
  rw [tick_nap nap rests, testAccess_powered powered]
  generalize Tap.cycles _ _ _ = tap
  exact ⟨congrArg (fun x => { x with tap := tap }) sampled, fun p other => port_samplePulses (d := s.dev.samplePads inp.low) other⟩

theorem tickBoundary_sleep_rests (sleep : s.dev.pwr.mode = .sleep)
    (h : s.dev.pwr.waking = false ∨ s.dev.clk.advance.tick % 125 ≠ 0) :
    gives (.tickBoundary inp) s fun d => d = { s.dev.restTick with tap := d.tap } :=
  tickBoundary_gives (by rw [tick_sleep_rests sleep h]; exact testAccess_eq _ _)

theorem tickBoundary_sleep_wakes (sleep : s.dev.pwr.mode = .sleep) (waking : s.dev.pwr.waking = true)
    (h : s.dev.clk.advance.tick % 125 = 0) :
    gives (.tickBoundary inp) s fun d => d.pwr.mode = .doze ∧ d.pwr.waking = false :=
  tickBoundary_gives (by rw [tick_sleep_wakes sleep waking h, pwr_testAccess]; exact wakeUp_awake s.dev.restTick)

/-- Settles O8: one lemma for each power state, and test access writes its own port alone. -/
theorem tickOutsideRunChangesOnlyTime : Obligations.TickOutsideRunChangesOnlyTime := by
  refine ⟨fun inp s => ⟨tickBoundary_hold, tickBoundary_reset, tickBoundary_nap, tickBoundary_sleep_rests,
    tickBoundary_sleep_wakes⟩, testAccess_eq, fun d tdi powered five => ?_⟩
  obtain ⟨reset, idcode⟩ := testAccess_five_high powered five
  exact ⟨reset, idcode, by rw [idcode]; rfl⟩

end Sys2Proof.Machine
end

section
/-! Tamper pins, supply glitches and monitor tests (07_legal_readout R161, R163, 12_events_tamper R306, R316, 16_startup R396).
Awake a pin's change counts after 159 samples at its new level (log 57); a source raised or cleared touches its ledger entry and
the event state, and none of the seal. -/

open Sys2Proof Sys2Proof.Machine Sys2Proof.Safety

namespace Sys2Proof.Machine

variable {c : Instr} {s : State} {d₀ d : Dev} {k j t : Nat}

/-! ### Pins awake (R161) -/

theorem canWake_of_awake (h : awake d) : d.canWake = false := by
  rcases h with h | h <;> simp [Dev.canWake, h]

theorem tamperWake_of_awake (h : awake d) : d.tamperWake = d := by
  have noSleep : ¬ d.pwr.mode = .sleep := by
    rcases h with h | h <;> simp [h]
  simp [Dev.tamperWake, canWake_of_awake h, noSleep]

theorem watching_of_awake (h : awake d) : d.watching = true := by
  rcases h with h | h <;> simp [Dev.watching, h]

theorem pinCounts_of_awake (h : awake d) (k : Nat) (high : Bool) :
    d.pinCounts k high = true ↔ d.tam.counted k ≠ high ∧ 159 ≤ d.tam.pinRun.getD k 0 := by
  have noSleep : ¬ d.pwr.mode = .sleep := by
    rcases h with h | h <;> simp [h]
  simp [Dev.pinCounts, watching_of_awake h, noSleep]

/-- The device with the samples of a pin counted anew. -/
def Dev.pinAnew (d : Dev) (k : Nat) : Dev := d.mapTam fun t => { t with pinRun := t.pinRun.set k 0 }

theorem pinChange_of_awake (h : awake d) (k : Nat) : d.pinChange k = d.pinAnew k := by
  rw [Dev.pinChange, tamperWake_of_awake h]
  rfl

/-- A change of a pin that counts in this tick: its samples are counted anew, and its own effect follows. -/
theorem pin_counts {high : Bool} {f : Dev → Dev} (ha : awake s.dev)
    (he : exec c s = .next (s.onDev fun d => if !d.pinCounts k high then d else f (d.pinChange k)))
    (level : s.dev.tam.counted k ≠ high) (run : 159 ≤ s.dev.tam.pinRun.getD k 0) : leaves c s (f (s.dev.pinAnew k)) := by
  refine leaves_of_onDev he ?_
  rw [(pinCounts_of_awake ha k high).mpr ⟨level, run⟩, pinChange_of_awake ha]
  rfl

/-- A change of a pin that does not count yet, or to the level it has, is no change. -/
theorem pin_waits {high : Bool} {f : Dev → Dev} (ha : awake s.dev)
    (he : exec c s = .next (s.onDev fun d => if !d.pinCounts k high then d else f d))
    (h : s.dev.tam.counted k = high ∨ s.dev.tam.pinRun.getD k 0 < 159) : leaves c s s.dev := by
  refine leaves_of_onDev he (if_pos ?_)
  rw [Bool.not_eq_true', ← Bool.not_eq_true, pinCounts_of_awake ha]
  rintro ⟨level, run⟩
  exact h.elim level fun few => absurd run (Nat.not_le.mpr few)

theorem coverN_counts {high : Bool} (ha : awake s.dev) (level : s.dev.tam.cover ≠ high) (run : 159 ≤ s.dev.tam.pinRun.getD 1 0) :
    leaves (.coverN high) s (((s.dev.pinAnew 1).mapTam fun t => { t with cover := high }).setSrc 0x01 (!high)) :=
  pin_counts (k := 1) (f := fun d => (d.mapTam fun t => { t with cover := high }).setSrc 0x01 (!high)) ha rfl level run

theorem tcoverN_counts {high : Bool} (ha : awake s.dev) (level : s.dev.tam.tcover ≠ high)
    (run : 159 ≤ s.dev.tam.pinRun.getD 2 0) :
    leaves (.tcoverN high) s (((s.dev.pinAnew 2).mapTam fun t => { t with tcover := high }).setSrc 0x02 (!high)) :=
  pin_counts (k := 2) (f := fun d => (d.mapTam fun t => { t with tcover := high }).setSrc 0x02 (!high)) ha rfl level run

theorem magN_counts {high : Bool} (ha : awake s.dev) (level : s.dev.tam.mag ≠ high) (run : 159 ≤ s.dev.tam.pinRun.getD 3 0) :
    leaves (.magN high) s (((s.dev.pinAnew 3).mapTam fun t => { t with mag := high }).setSrc 0x04 (!high)) :=
  pin_counts (k := 3) (f := fun d => (d.mapTam fun t => { t with mag := high }).setSrc 0x04 (!high)) ha rfl level run

/-! ### What a source leaves of the seal -/

/-- The counted seal level, the count of its openings, and the link. -/
def Dev.sealSide (d : Dev) : Bool × Nat × HostLink := (d.tam.sealPin, d.tam.opens, d.link)

theorem sealSide_of_unlogged (h : Keeps Dev.unlogged d₀ d) : Keeps Dev.sealSide d₀ d := 
  ⟨congrArg (a₁ := d.unlogged) (a₂ := d₀.unlogged) Dev.sealSide h.eq⟩

theorem unlogged_reportTamper {key state ex su dur secs tick : Nat} (h : Keeps Dev.unlogged d₀ d) :
    Keeps Dev.unlogged d₀ (d.reportTamper key state ex su dur secs tick) := unlogged_reportKnot h

theorem unlogged_logAt {secs tick code origin flags : Nat} {detail : List Byte} (h : Keeps Dev.unlogged d₀ d) :
    Keeps Dev.unlogged d₀ (d.logAt secs tick code origin detail flags) := (unlogged_logRec h).unless unlogged_notify

theorem sealSide_reportTamper {key state ex su dur secs tick : Nat} (h : Keeps Dev.sealSide d₀ d) :
    Keeps Dev.sealSide d₀ (d.reportTamper key state ex su dur secs tick) :=
  h.trans (sealSide_of_unlogged (unlogged_reportTamper (.refl d)))

theorem sealSide_raiseAt {key secs tick : Nat} (h : Keeps Dev.sealSide d₀ d) : Keeps Dev.sealSide d₀ (d.raiseAt key secs tick) := by
  have counted : Keeps Dev.sealSide d₀ (d.upLedger key fun l => l.raise secs d.clk.runTick) := h.update rfl
  unfold Dev.raiseAt
  exact (sealSide_reportTamper counted).update rfl

theorem sealSide_setSrc {key : Nat} {cond : Bool} (h : Keeps Dev.sealSide d₀ d) : Keeps Dev.sealSide d₀ (d.setSrc key cond) :=
  .ite (.ite h (.ite h.mapTam (sealSide_raiseAt h))) (.ite (sealSide_reportTamper (h.update rfl)) h)

theorem file_eq (d : Dev) (w : Requester) (cls n dur : Nat) : ∃ p, d.file w cls n dur = { d with pwr := p } := by
  unfold Dev.file
  split <;> exact ⟨_, rfl⟩

theorem guarded_eq (d : Dev) (w : RgWrite) :
    ∃ p, d.guarded w = { d with store := { d.store with rgq := d.store.rgq ++ [w] }, pwr := p } :=
  file_eq (d.mapStore fun s => { s with rgq := s.rgq ++ [w] }) .reserveWrite 0 40 _

/-! ### The seal (R161, R163) -/

/-- A seal state that counts has its record asked for, and moves no more than the count of openings. -/
theorem sealCounted_gives (d : Dev) :
    d.sealCounted.sealSide = (d.tam.sealPin, if d.sealOpen then satU 32 (d.tam.opens + 1) else d.tam.opens, d.link) ∧
    RgWrite.sealRec ∈ d.sealCounted.store.rgq := by
  unfold Dev.sealCounted
  extract_lets e
  obtain ⟨p, asked⟩ := guarded_eq (e.setSrc 0x03 e.sealOpen) .sealRec
  have logged : e.sealSide = (d.tam.sealPin, if d.sealOpen then satU 32 (d.tam.opens + 1) else d.tam.opens, d.link) := by
    unfold e
    split <;> exact (sealSide_of_unlogged (unlogged_logNow (.refl _))).eq
  rw [asked]
  exact ⟨(sealSide_setSrc (.refl e)).eq.trans logged, List.mem_append_right _ (List.mem_singleton_self _)⟩

/-- The device with a counted level of CALSEAL_N, before its event. -/
def Dev.sealMoved (d : Dev) (high : Bool) : Dev := ((d.pinAnew 0).mapTam fun t => { t with sealPin := high }).dropLk

theorem calsealN_counts {high : Bool} (ha : awake s.dev) (level : s.dev.tam.sealPin ≠ high)
    (run : 159 ≤ s.dev.tam.pinRun.getD 0 0) :
    leaves (.calsealN high) s
      (if (s.dev.sealMoved high).isLive then (s.dev.sealMoved high).sealCounted else s.dev.sealMoved high) :=
  pin_counts (k := 0) (f := fun d =>
    let e := (d.mapTam fun t => { t with sealPin := high }).dropLk
    if e.isLive then e.sealCounted else e) ha rfl level run

theorem sealMoved_open (d : Dev) :
    d.sealMoved false = { d with tam := { d.tam with pinRun := d.tam.pinRun.set 0 0, sealPin := false } } := rfl

theorem sealMoved_closed (d : Dev) :
    d.sealMoved true = { d with
      tam := { d.tam with pinRun := d.tam.pinRun.set 0 0, sealPin := true },
      link := { d.link with shadow := d.link.shadow.filter fun y => !isLk y.1 } } := rfl

/-- A seal that opens is counted, and its record asked for. -/
theorem calsealN_opens (ha : awake s.dev) (live : s.dev.isLive = true) (shut : s.dev.tam.sealPin = true)
    (run : 159 ≤ s.dev.tam.pinRun.getD 0 0) :
    gives (.calsealN false) s fun d => d.sealOpen = true ∧ d.tam.opens = min (s.dev.tam.opens + 1) (2 ^ 32 - 1) ∧
      RgWrite.sealRec ∈ d.store.rgq := by
  have moved := calsealN_counts (high := false) ha (by simp [shut]) run
  have live' : (s.dev.sealMoved false).isLive = true := live
  rw [if_pos live'] at moved
  obtain ⟨side, asked⟩ := sealCounted_gives (s.dev.sealMoved false)
  have pin := congrArg (fun x => x.1) side
  have opens := congrArg (fun x => x.2.1) side
  exact gives_of_leaves moved ⟨congrArg not pin, opens, asked⟩

/-- Until an image is live a seal that opens leaves no event, ledger entry or record (R396). -/
theorem calsealN_opens_unrecorded (ha : awake s.dev) (unlive : s.dev.isLive = false) (shut : s.dev.tam.sealPin = true)
    (run : 159 ≤ s.dev.tam.pinRun.getD 0 0) :
    leaves (.calsealN false) s
      { s.dev with tam := { s.dev.tam with pinRun := s.dev.tam.pinRun.set 0 0, sealPin := false } } := by
  have moved := calsealN_counts (high := false) ha (by simp [shut]) run
  have unlive' : ¬ (s.dev.sealMoved false).isLive = true := ne_of_eq_of_ne unlive Bool.false_ne_true
  rwa [if_neg unlive', sealMoved_open] at moved

/-- A seal that closes drops the LK values not yet frozen, and its record is asked for. -/
theorem calsealN_closes (ha : awake s.dev) (live : s.dev.isLive = true) (isOpen : s.dev.tam.sealPin = false)
    (run : 159 ≤ s.dev.tam.pinRun.getD 0 0) :
    gives (.calsealN true) s fun d => d.sealOpen = false ∧ d.tam.opens = s.dev.tam.opens ∧ RgWrite.sealRec ∈ d.store.rgq ∧
      ∀ y ∈ d.link.shadow, (regAcc y.1).1 ≠ .lk := by
  have moved := calsealN_counts (high := true) ha (by simp [isOpen]) run
  have live' : (s.dev.sealMoved true).isLive = true := live
  rw [if_pos live'] at moved
  obtain ⟨side, asked⟩ := sealCounted_gives (s.dev.sealMoved true)
  have pin := congrArg (fun x => x.1) side
  have opens := congrArg (fun x => x.2.1) side
  have link : (s.dev.sealMoved true).sealCounted.link = (s.dev.sealMoved true).link := congrArg (fun x => x.2.2) side
  refine gives_of_leaves moved ⟨congrArg not pin, opens, asked, fun y hy => ?_⟩
  rw [link] at hy
  have kept : y ∈ s.dev.link.shadow.filter fun y => !isLk y.1 := hy
  simpa [isLk] using (List.mem_filter.mp kept).2

/-! ### Supply glitches (R306) -/

theorem supplyGlitch_raises {rail ns : Nat} (hr : rail < 4) (ha : awake s.dev)
    (h : (s.dev.srcThresh (glitchSource rail) none 100 0).1 ≤ ns) :
    leaves (.supplyGlitch rail ns) s (s.dev.raiseSrc (glitchSource rail)) := by
  refine leaves_of_onDev (onUnit_next (decide_eq_true hr)) ?_
  dsimp only
  rw [watching_of_awake ha, decide_eq_true h, tamperWake_of_awake ha]
  rfl

theorem supplyGlitch_short {rail ns : Nat} (hr : rail < 4)
    (h : ns < (s.dev.srcThresh (glitchSource rail) none 100 0).1) :
    leaves (.supplyGlitch rail ns) s s.dev := by
  refine leaves_of_onDev (onUnit_next (decide_eq_true hr)) ?_
  dsimp only
  rw [decide_eq_false (Nat.not_le.mpr h), Bool.and_false]
  rfl

/-! ### Monitor tests (R316) -/

theorem ledger_upLedger {f : Ledger → Ledger} (h : f (d.ledger k) ≠ .init) : (d.upLedger k f).ledger k = f (d.ledger k) :=
  tabGet_tabPut_of_ne_default _ _ _ h _

theorem tam_of_unlogged (h : Keeps Dev.unlogged d₀ d) : d.tam = d₀.tam :=
  congrArg (a₁ := d.unlogged) (a₂ := d₀.unlogged) Dev.tam h.eq

/-- The test of a source whose result stands ends, with no real raise to report. -/
theorem endTest_ends (real : d.tam.testReal = none) (result : (d.ledger k).test ≠ 0) :
    (d.endTest k).tam.test = none ∧ (d.endTest k).ledger k = { d.ledger k with testing := false } := by
  have ends : d.endTest k =
      (d.mapTam fun t => { t with test := none, testReal := none }).upLedger k fun l => { l with testing := false } := by
    simp only [Dev.endTest, real]
  rw [ends]
  exact ⟨rfl, ledger_upLedger (ne_of_apply_ne Ledger.test result)⟩

/-- What a monitor did under the stimulus: 1 pass, 2 no raise, 3 no clear. -/
def testResult (raised cleared : Bool) : Nat := if raised then (if cleared then 1 else 3) else 2

theorem testResult_ne_zero (raised cleared : Bool) : testResult raised cleared ≠ 0 := by
  cases raised <;> cases cleared <;> decide

theorem testResult_eq (raised cleared : Bool) : (if !raised then 2 else if !cleared then 3 else 1) = testResult raised cleared := by
  cases raised <;> cases cleared <;> rfl

/-- The device with a test's result in the ledger, logged, and its job done. -/
def Dev.testRecorded (d : Dev) (k j res : Nat) : Dev :=
  ((d.upLedger k fun l => { l with test := res, testAt := d.clk.secs }).logAt d.clk.secs d.clk.tick 0x091 (keyOrigin k)
    [byteOf (keySource k), byteOf ((keyIsle k).getD 0xFF), byteOf res] 2).finish j .done res []

theorem tam_testRecorded (res : Nat) :
    (d.testRecorded k j res).tam = (d.upLedger k fun l => { l with test := res, testAt := d.clk.secs }).tam :=
  (tam_of_unlogged (d := (d.upLedger k _).logAt _ _ _ _ _ _) (unlogged_logAt (.refl _)))

theorem ledger_testRecorded {res : Nat} (h : res ≠ 0) :
    (d.testRecorded k j res).ledger k = { d.ledger k with test := res, testAt := d.clk.secs } := by
  rw [Dev.ledger, tam_testRecorded]
  exact ledger_upLedger (ne_of_apply_ne Ledger.test h)

section
variable {raised cleared : Bool} (ht : s.dev.tam.test = some (k, j, t)) (hk : k < 256)
include ht hk

theorem monitorTestEnd_leaves (granted : t ≠ 0) (past : t + 16 ≤ s.dev.clk.runTick + 1) :
    leaves (.monitorTestEnd raised cleared) s ((s.dev.testRecorded k j (testResult raised cleared)).endTest k) := by
  have device : keyIsle k = none := if_pos hk
  refine leaves_of_onDev rfl ?_
  simp only [ht, device, testResult_eq]
  rw [if_pos ⟨granted, decide_eq_true past⟩, Dev.testRecorded, device]
  rfl

theorem monitorTestEnd_ends (granted : t ≠ 0) (past : t + 16 ≤ s.dev.clk.runTick + 1) (real : s.dev.tam.testReal = none) :
    gives (.monitorTestEnd raised cleared) s fun d => d.tam.test = none ∧ (d.ledger k).testing = false ∧
      (d.ledger k).test = testResult raised cleared ∧ (d.ledger k).testAt = s.dev.clk.secs := by
  have recorded := ledger_testRecorded (d := s.dev) (k := k) (j := j) (testResult_ne_zero raised cleared)
  have unraised : (s.dev.testRecorded k j (testResult raised cleared)).tam.testReal = none := by
    rw [tam_testRecorded]
    exact real
  obtain ⟨ended, entry⟩ := endTest_ends unraised (by rw [recorded]; exact testResult_ne_zero raised cleared)
  rw [recorded] at entry
  refine gives_of_leaves (monitorTestEnd_leaves ht hk granted past) ⟨ended, ?_⟩
  rw [entry]
  exact ⟨rfl, rfl, rfl⟩

theorem monitorTestEnd_early (early : s.dev.clk.runTick + 1 < t + 16) : leaves (.monitorTestEnd raised cleared) s s.dev := by
  have device : keyIsle k = none := if_pos hk
  refine leaves_of_onDev rfl ?_
  simp only [ht, device]
  exact if_neg fun h => absurd (of_decide_eq_true h.2) (Nat.not_le.mpr early)

end

/-- Settles O55: a pin's change counts or waits by its samples; what follows a counted one is its own source or the seal. -/
theorem tamperPinsAndTestsTakeEffect : Obligations.TamperPinsAndTestsTakeEffect :=
  ⟨fun s h ha => ⟨coverN_counts ha, pin_waits (c := .coverN h) (s := s) (k := 1) ha rfl,
      tcoverN_counts ha, pin_waits (c := .tcoverN h) (s := s) (k := 2) ha rfl,
      magN_counts ha, pin_waits (c := .magN h) (s := s) (k := 3) ha rfl,
      pin_waits (c := .calsealN h) (s := s) (k := 0) ha rfl⟩,
    fun _ => calsealN_opens, fun _ => calsealN_closes, fun _ => calsealN_opens_unrecorded,
    fun _ _ _ hr ha => ⟨supplyGlitch_raises hr ha, supplyGlitch_short hr⟩,
    fun _ _ _ _ _ _ ht hk granted => ⟨monitorTestEnd_ends ht hk granted, monitorTestEnd_early ht hk⟩⟩

end Sys2Proof.Machine
end

section
/-! Power-up and reload (08_structure_image R190, 16_startup R389, R393, R394). `LinkUp` holds from step 6 of the power-up order on:
no work of steps 7 to 10 takes the host link down. Each operation has one lemma that follows its definition; an update of another part
of the device keeps `LinkUp` by definition, and reports and tamper sources by what `Dev.unlogged` and `Dev.sealSide` keep. -/

open Sys2Proof Sys2Proof.Machine Sys2Proof.Safety

namespace Sys2Proof.Machine

variable {s : State} {d e : Dev} {α γ : Type}

/-- The host link is up. -/
def LinkUp (d : Dev) : Prop := d.link.up = true

/-! ### How work composes -/

theorem LinkUp.ite {b : Prop} [Decidable b] {x y : Dev} (hx : LinkUp x) (hy : LinkUp y) : LinkUp (if b then x else y) := by
  split
  · exact hx
  · exact hy

theorem LinkUp.when {b : Prop} [Decidable b] (h : LinkUp d) (k : LinkUp d → LinkUp e) : LinkUp (if b then e else d) := .ite (k h) h

theorem LinkUp.unless {b : Prop} [Decidable b] (h : LinkUp d) (k : LinkUp d → LinkUp e) : LinkUp (if b then d else e) := .ite h (k h)

theorem LinkUp.foldlOn {q : γ → Dev} {f : γ → α → γ} {b : γ} {l : List α} (h : LinkUp (q b))
    (hf : ∀ b x, LinkUp (q b) → LinkUp (q (f b x))) : LinkUp (q (l.foldl f b)) :=
  List.foldlRecOn l f (motive := fun b => LinkUp (q b)) h fun b hb x _ => hf b x hb

theorem LinkUp.foldl {f : Dev → α → Dev} {l : List α} (h : LinkUp d) (hf : ∀ e x, LinkUp e → LinkUp (f e x)) :
    LinkUp (l.foldl f d) := .foldlOn (q := id) h hf

theorem LinkUp.forEach {l : List Nat} {f : Nat → Dev → Dev} (h : LinkUp d) (hf : ∀ n e, LinkUp e → LinkUp (f n e)) :
    LinkUp (d.forEach l f) := .foldl h fun e n => hf n e

theorem LinkUp.of_unlogged (h : LinkUp d) (k : Keeps Dev.unlogged d e) : LinkUp e :=
  (congrArg (a₁ := e.unlogged) (a₂ := d.unlogged) (fun x => x.link.up) k.eq).trans h

theorem LinkUp.of_sealSide (h : LinkUp d) (k : Keeps Dev.sealSide d e) : LinkUp e :=
  (congrArg (fun x : Bool × Nat × HostLink => x.2.2.up) k.eq).trans h

/-! ### Updates of other parts of the device -/

theorem LinkUp.mapBak {f} (h : LinkUp d) : LinkUp (d.mapBak f) := h

theorem LinkUp.mapClk {f} (h : LinkUp d) : LinkUp (d.mapClk f) := h

theorem LinkUp.mapEvt {f} (h : LinkUp d) : LinkUp (d.mapEvt f) := h

theorem LinkUp.mapImg {f} (h : LinkUp d) : LinkUp (d.mapImg f) := h

theorem LinkUp.mapLink {f} (h : LinkUp d) (hf : ∀ k, (f k).up = k.up := by intro; rfl) : LinkUp (d.mapLink f) := (hf _).trans h

theorem LinkUp.mapPwr {f} (h : LinkUp d) : LinkUp (d.mapPwr f) := h

theorem LinkUp.mapRun {f} (h : LinkUp d) : LinkUp (d.mapRun f) := h

theorem LinkUp.mapStore {f} (h : LinkUp d) : LinkUp (d.mapStore f) := h

theorem LinkUp.mapTam {f} (h : LinkUp d) : LinkUp (d.mapTam f) := h

theorem LinkUp.setIsle {n x} (h : LinkUp d) : LinkUp (d.setIsle n x) := h

theorem LinkUp.setKnot {i x} (h : LinkUp d) : LinkUp (d.setKnot i x) := h

theorem LinkUp.setPartner {i x} (h : LinkUp d) : LinkUp (d.setPartner i x) := h

theorem LinkUp.upElem {n f} (h : LinkUp d) : LinkUp (d.upElem n f) := h

theorem LinkUp.upIsle {n f} (h : LinkUp d) : LinkUp (d.upIsle n f) := h

theorem LinkUp.upLane {n f} (h : LinkUp d) : LinkUp (d.upLane n f) := h

theorem LinkUp.upLedger {k f} (h : LinkUp d) : LinkUp (d.upLedger k f) := h

theorem LinkUp.upPartner {i f} (h : LinkUp d) : LinkUp (d.upPartner i f) := h

theorem LinkUp.upPort {p f} (h : LinkUp d) : LinkUp (d.upPort p f) := h

theorem LinkUp.upSlot {k f} (h : LinkUp d) : LinkUp (d.upSlot k f) := h

theorem LinkUp.upStrait {n f} (h : LinkUp d) : LinkUp (d.upStrait n f) := h

theorem LinkUp.putTiles {l} (h : LinkUp d) : LinkUp (d.putTiles l) := h

/-! ### Reports, tamper sources and reserve-guarded writes -/

theorem LinkUp.logRec {r} (h : LinkUp d) : LinkUp (d.logRec r) := h.of_unlogged (unlogged_logRec (.refl d))

theorem LinkUp.logAt {secs tick code origin detail flags} (h : LinkUp d) : LinkUp (d.logAt secs tick code origin detail flags) :=
  h.of_unlogged (unlogged_logAt (.refl d))

theorem LinkUp.logNow {code origin detail} (h : LinkUp d) : LinkUp (d.logNow code origin detail) :=
  h.of_unlogged (unlogged_logNow (.refl d))

theorem LinkUp.closeKnot {i early} (h : LinkUp d) : LinkUp (d.closeKnot i early) := h.of_unlogged (unlogged_closeKnot (.refl d))

theorem LinkUp.takeKnot (h : LinkUp d) : LinkUp d.takeKnot.2 := h.of_unlogged (unlogged_takeKnot (.refl d))

theorem LinkUp.setSrc {key cond} (h : LinkUp d) : LinkUp (d.setSrc key cond) := h.of_sealSide (sealSide_setSrc (.refl d))

theorem LinkUp.clearSrc {key} (h : LinkUp d) : LinkUp (d.clearSrc key) :=
  .ite (.of_unlogged (d := d.setLedger _ _) h (unlogged_reportTamper (.refl _))) h

theorem LinkUp.guarded {w} (h : LinkUp d) : LinkUp (d.guarded w) := .ite h h

theorem LinkUp.sealCounted (h : LinkUp d) : LinkUp d.sealCounted := .guarded (.setSrc (.ite (.logNow h) (.logNow h)))

theorem LinkUp.updSubscr (h : LinkUp d) : LinkUp d.updSubscr := .ite h h

/-! ### Tiles and twin records -/

theorem LinkUp.tileFailed {addr region consumer flags torn origin} (h : LinkUp d) :
    LinkUp (d.tileFailed addr region consumer flags torn origin) := .ite (.logNow h) h

theorem LinkUp.verifyTile {t consumer flags origin} (h : LinkUp d) : LinkUp (d.verifyTile t consumer flags origin).2 := by
  unfold Dev.verifyTile
  split
  · exact LinkUp.ite (x := d.setSide _ _) h h
  · exact h.tileFailed

theorem LinkUp.verifySram {t consumer flags origin} (h : LinkUp d) : LinkUp (d.verifySram t consumer flags origin).2 := by
  unfold Dev.verifySram
  simp only [apply_ite Prod.snd]
  exact .ite h h.tileFailed

theorem LinkUp.readRecord {code tile0 record parts origin} (h : LinkUp d) : LinkUp (d.readRecord code tile0 record parts origin) := by
  have verified : LinkUp (d.verifyRecord code tile0 record parts origin) :=
    (h.foldl fun _ _ he => he.verifyTile).foldl fun _ _ he => he.verifyTile
  unfold Dev.readRecord Dev.settleRecord
  dsimp only
  split
  · exact .ite (.logNow verified) verified
  · exact verified

/-! ### The vault's slots -/

theorem LinkUp.deriveSlot {k gen cause} (h : LinkUp d) : LinkUp (d.deriveSlot k gen cause) := by
  unfold Dev.deriveSlot
  dsimp only
  split
  · exact .ite (LinkUp.ite (y := (d.makeLive _ _ _ _).useSlot _) h h) h
  · exact h

theorem LinkUp.endSession {reason} (h : LinkUp d) : LinkUp (d.endSession reason) := by
  unfold Dev.endSession
  split
  · exact h
  · exact .logNow (.ite h h)

theorem LinkUp.invalidate {k cause} (h : LinkUp d) : LinkUp (d.invalidate k cause) := by
  unfold Dev.invalidate
  extract_lets old ds new d₁ d₂
  have h₂ : LinkUp d₂ := .forEach h fun _ _ he => he
  split
  next n d₃ ended =>
  extract_lets d₄ d₅
  have h₃ : LinkUp (n, d₃).2 := ended ▸ h₂
  have h₅ : LinkUp d₅ := by
    unfold d₅
    split
    · exact h₃.logNow.when (·.endSession)
    · exact h₃.logNow
  exact h₅.unless (.guarded ·)

theorem LinkUp.reconcileKeys {oldLegal} (h : LinkUp d) : LinkUp (d.reconcileKeys oldLegal) :=
  ((h.forEach fun _ _ he => .ite (he.invalidate.when (·.upSlot)) he).when fun hk => hk.forEach fun _ _ he =>
    .ite he.deriveSlot he).forEach fun _ _ he => .ite he.deriveSlot he

/-! ### The isle close -/

theorem LinkUp.restoreTile {n} (h : LinkUp d) : LinkUp (d.restoreTile n) :=
  .ite h (h.foldl fun _ _ he => he.verifySram).setIsle.mapStore

theorem LinkUp.addReg {n r q k} (h : LinkUp d) : LinkUp (d.addReg n r q k) := .ite (.logNow h) h

theorem LinkUp.carryQty {n q b} (h : LinkUp d) : LinkUp (d.carryQty n q b) := .ite h (.addReg (.ite (.addReg h) h))

theorem LinkUp.judgeHour {n hour} (h : LinkUp d) : LinkUp (d.judgeHour n hour) := by
  unfold Dev.judgeHour
  exact .ite (.ite (.logNow h) h) (.ite (.logNow h) h)

theorem LinkUp.utilityFrame {n b hourEnds} (h : LinkUp d) : LinkUp (d.utilityFrame n b hourEnds).2 := by
  unfold Dev.utilityFrame
  extract_lets u unm scale lpq jpq heat bad endT hour m quanta d₁
  have h₁ : LinkUp d₁ := .ite h.logNow h
  clear_value d₁
  split
  extract_lets
  split
  exact LinkUp.ite (.judgeHour h₁) h₁

theorem LinkUp.closeElec {n} (h : LinkUp d) : LinkUp (d.closeElec n) :=
  (h.upIsle.foldl fun _ _ he => he.carryQty).upIsle.upIsle

theorem LinkUp.closeUtil {n} (h : LinkUp d) : LinkUp (d.closeUtil n) :=
  (h.utilityFrame.upIsle.foldl fun _ _ he => he.carryQty).upIsle.upIsle

theorem LinkUp.putHour {n hour next} (h : LinkUp d) : LinkUp (d.putHour n hour next) := h

theorem LinkUp.rollHour {n} (h : LinkUp d) : LinkUp (d.rollHour n) := h.putHour

theorem LinkUp.closeIsle {n} (h : LinkUp d) : LinkUp (d.closeIsle n) :=
  .unless (.ite (h.restoreTile.closeElec.when (·.rollHour)) (h.restoreTile.when (·.closeUtil))) (·.upIsle)

theorem LinkUp.closeStraits (h : LinkUp d) : LinkUp d.closeStraits :=
  ((h.forEach fun _ _ he => he.upStrait).forEach fun _ _ he => .forEach he fun _ _ hx => hx.upElem).forEach fun _ _ he => he.upElem

/-! ### The events, demand, profile and billing slices -/

theorem LinkUp.isleEvents {n} (h : LinkUp d) : LinkUp (d.isleEvents n) := by
  unfold Dev.isleEvents
  extract_lets es t i d₁ big d₂ d₃ odd d₄ d₅ d₆ d₇
  have h₃ : LinkUp d₃ := (h.setSrc.when (·.setSrc)).when (·.setSrc)
  have h₆ : LinkUp d₆ := (h₃.setSrc.when (·.setSrc)).when (·.setSrc)
  have h₇ : LinkUp d₇ := h.when (·.setSrc)
  exact .ite h₆.setSrc (.ite (h₇.when (·.setSrc)) h)

theorem LinkUp.expireKnots (h : LinkUp d) : LinkUp d.expireKnots :=
  h.forEach fun _ _ he => .ite he (.ite he.closeKnot (.ite he.closeKnot he))

theorem LinkUp.releaseNotices (h : LinkUp d) : LinkUp d.releaseNotices := h

theorem LinkUp.relayUpdate {t cls} (h : LinkUp d) : LinkUp (d.relayUpdate t cls) := .ite (.ite h h) h

theorem LinkUp.demandLimits {n mins subint warn trip} (h : LinkUp d) : LinkUp (d.demandLimits n mins subint warn trip) := by
  unfold Dev.demandLimits
  extract_lets m e run e0 reached det d₁ d₂ hits d₃ t supp d₄ d₅
  have h₂ : LinkUp d₂ := .ite (.logNow h) (.ite (.logNow h) h)
  have h₅ : LinkUp d₅ := .logNow h₂
  exact .ite h (.ite (.ite (.ite h₅ (.ite h₅ (.relayUpdate h₅))) h₂) h₂)

theorem LinkUp.demandSlice {n warn trip} (h : LinkUp d) : LinkUp (d.demandSlice n warn trip) := by
  unfold Dev.demandSlice
  refine .ite h (LinkUp.demandLimits ?_)
  split <;> exact h

theorem LinkUp.profileSlice {n} (h : LinkUp d) : LinkUp (d.profileSlice n) := by
  unfold Dev.profileSlice
  refine .ite h (.foldl (.foldlOn (q := Prod.snd) h fun _ _ he => ?_) fun _ _ he => he)
  unfold Dev.putProfile
  simp only [apply_ite Prod.snd]
  exact .ite he he

theorem LinkUp.billingSlice {n late} (h : LinkUp d) : LinkUp (d.billingSlice n late) :=
  .foldl (.ite h h) fun _ _ he => he

theorem LinkUp.runSlices {start events late} (h : LinkUp d) : LinkUp (d.runSlices start events late) := by
  unfold Dev.runSlices
  extract_lets isles from_ d₁ d₂ d₃ d₄ d₅ d₆ d₇
  have h₂ : LinkUp d₂ := (h.when (·.closeStraits)).forEach fun _ _ he => he.closeIsle
  have h₄ : LinkUp d₄ := (h₂.forEach fun _ _ he => he.demandSlice).when (·.forEach fun _ _ he => he.isleEvents)
  have h₆ : LinkUp d₆ := (h₄.when (·.expireKnots.releaseNotices)).forEach fun _ _ he => he.profileSlice
  exact (h₆.forEach fun _ _ he => he.billingSlice).mapRun

/-! ### Time, calendars and the boundary -/

theorem LinkUp.setCalRoles {p r} (h : LinkUp d) : LinkUp (d.setCalRoles p r) := h.mapStore.putTiles

theorem LinkUp.upJob {n f} (h : LinkUp d) : LinkUp (d.upJob n f) := h

theorem LinkUp.activateCal {p} (h : LinkUp d) : LinkUp (d.activateCal p) := h.setCalRoles.logNow

theorem LinkUp.activateLoading {p j} (h : LinkUp d) : LinkUp (d.activateLoading p j) := h.upJob.setCalRoles.logNow

theorem LinkUp.activations {loc} (h : LinkUp d) : LinkUp (d.activations loc) :=
  .ite h (.forEach h fun _ _ he => by
    split
    · exact .ite he.activateLoading he
    · split
      · exact .ite he.activateCal he
      · exact he)

theorem LinkUp.recordClose {n secs tick loc manual late} (h : LinkUp d) : LinkUp (d.recordClose n secs tick loc manual late) :=
  .ite h h

theorem LinkUp.calendarCloses {secs loc late} (h : LinkUp d) : LinkUp (d.calendarCloses secs loc late) :=
  .ite h (.ite h (h.forEach fun _ _ he => he.recordClose))

theorem LinkUp.skippedMinute {secs loc late} (h : LinkUp d) : LinkUp (d.skippedMinute secs loc late) :=
  h.activations.calendarCloses.activations

theorem LinkUp.walkLocal {secs late} {f t b : Nat} (h : LinkUp d) : LinkUp (d.walkLocal secs late f t b) := by
  induction f generalizing d t with
  | zero => exact h
  | succ f ih => exact .ite h (ih h.skippedMinute)

theorem LinkUp.applyOffset {secs o late} (h : LinkUp d) : LinkUp (d.applyOffset secs o late).2 := by
  unfold Dev.applyOffset
  simp only [apply_ite Prod.snd]
  exact .ite h (.ite (.walkLocal h) h)

theorem LinkUp.dueOffset {secs late} (h : LinkUp d) : LinkUp (d.dueOffset secs late) := by
  unfold Dev.dueOffset
  split
  · exact .ite (.applyOffset h) h
  · exact h

theorem LinkUp.boundaryOffsets {late} (h : LinkUp d) : LinkUp (d.boundaryOffsets late).2 := by
  unfold Dev.boundaryOffsets
  refine .foldlOn (q := Prod.snd) ?_ fun x _ he => ?_
  · split
    · exact .applyOffset h
    · exact h
  · dsimp only
    split
    · rw [apply_ite Prod.snd]
      exact .ite (.applyOffset he) he
    · exact he

theorem LinkUp.gapMinute {secs loc} (h : LinkUp d) : LinkUp (d.gapMinute secs loc) :=
  (h.forEach fun _ _ he => he.upIsle).forEach fun _ _ he => he.upIsle

theorem LinkUp.walkDevice {late gaps} {f t b : Nat} (h : LinkUp d) : LinkUp (d.walkDevice late gaps f t b) := by
  induction f generalizing d t with
  | zero => exact h
  | succ f ih => exact .ite h (ih (h.dueOffset.dueOffset.dueOffset.dueOffset.activations.when (·.gapMinute)).skippedMinute)

theorem LinkUp.walkSpan {a b late gaps} (h : LinkUp d) : LinkUp (d.walkSpan a b late gaps) := .ite h h.walkDevice.activations

theorem LinkUp.endTimeJob {n st} (h : LinkUp d) : LinkUp (d.endTimeJob n st) := h

theorem LinkUp.applyStep {gaps} (h : LinkUp d) : LinkUp (d.applyStep gaps).2 := by
  unfold Dev.applyStep
  split
  · exact h
  · extract_lets q rest first t0 old
    split
    next secs tick _ =>
    extract_lets d₁ d₂ d₃
    have h₁ : LinkUp d₁ := h
    have h₂ : LinkUp d₂ := by
      refine .ite ?_ h₁
      split
      · exact h₁.endTimeJob
      · exact h₁
    have h₃ : LinkUp d₃ := .ite h₂.logNow (.ite h₂ h₂.walkSpan)
    rw [apply_ite Prod.snd]
    exact .ite h₂ (h₃.forEach fun _ _ he => he.upIsle)

theorem LinkUp.checkCals (h : LinkUp d) : LinkUp d.checkCals := h.forEach fun _ _ he => .ite he.verifyTile he

theorem LinkUp.markDemand {n short interrupted endS} (h : LinkUp d) : LinkUp (d.markDemand n short interrupted endS) :=
  .ite h.upIsle (.ite h.upIsle h)

theorem LinkUp.markProfile {n short interrupted stepped endS skipFrom} (h : LinkUp d) :
    LinkUp (d.markProfile n short interrupted stepped endS skipFrom) := .ite h h.upIsle

theorem LinkUp.idleEnds {back endS} (h : LinkUp d) : LinkUp (d.idleEnds back endS) :=
  (h.when (·.gapMinute)).when (·.forEach fun _ _ he => he.upIsle)

theorem LinkUp.recordFrame {loc} (h : LinkUp d) : LinkUp (d.recordFrame loc) := h.forEach fun _ _ he => he.upIsle

theorem LinkUp.evalBoundary {interrupted} (h : LinkUp d) : LinkUp (d.evalBoundary interrupted) := by
  have stepped : LinkUp (if interrupted = true then (false, d) else d.applyStep (d.resuming && !interrupted)).2 := by
    rw [apply_ite Prod.snd]
    exact .ite h h.applyStep
  unfold Dev.evalBoundary
  extract_lets endS idle
  split
  next moved d₁ eq₁ =>
  rw [eq₁] at stepped
  have offset : LinkUp (d₁.checkCals.boundaryOffsets interrupted).2 := (LinkUp.checkCals stepped).boundaryOffsets
  split
  next offs d₂ eq₂ =>
  rw [eq₂] at offset
  extract_lets isles offShort d₃ loc d₄ manual secs tick d₅ d₆ d₇ d₈
  have h₃ : LinkUp d₃ := .ite (.idleEnds offset) (.forEach offset fun _ _ he => he.markDemand.markProfile)
  have h₅ : LinkUp d₅ := (h₃.when (·.calendarCloses)).forEach fun _ _ he => he.recordClose
  have h₇ : LinkUp d₇ := LinkUp.activations (d := d₆) h₅
  exact (h₇.when (·.forEach fun _ _ he => he.upIsle)).recordFrame

theorem LinkUp.latchViews (h : LinkUp d) : LinkUp d.latchViews := h.forEach fun _ _ he => he.upIsle

theorem LinkUp.closeAt {frame t interrupted events} (h : LinkUp d) : LinkUp (d.closeAt frame t interrupted events) := by
  unfold Dev.closeAt
  split
  exact h.mapClk.evalBoundary.latchViews.mapRun.runSlices.mapClk.mapRun

/-! ### Steps 7 and 8: the running state and the outage -/

theorem LinkUp.numberHeld (h : LinkUp d) : LinkUp d.numberHeld := h.mapEvt.foldl fun _ _ he => he.logRec.mapEvt

theorem LinkUp.placeKnot {k} (h : LinkUp d) : LinkUp (d.placeKnot k) := by
  unfold Dev.placeKnot
  split
  · exact h
  · exact h.takeKnot.setKnot.when (·.mapEvt)

theorem LinkUp.takeSave {img bad kept} (h : LinkUp d) : LinkUp (d.takeSave img bad kept) :=
  .forEach (.mapStore (.mapLink (.mapClk (.forEach h fun _ _ he => he.upLane)))) fun _ _ he => he.placeKnot

theorem LinkUp.gaspTilesBad {n} (h : LinkUp d) : LinkUp (d.gaspTilesBad n) := h.tileFailed.tileFailed

theorem LinkUp.saveTilesBad {p} (h : LinkUp d) : LinkUp (d.saveTilesBad p) :=
  ((h.when (·.tileFailed)).when (·.tileFailed)).when (·.tileFailed)

theorem LinkUp.restoreRun {p kept} (h : LinkUp d) : LinkUp (d.restoreRun p kept) := by
  unfold Dev.restoreRun
  extract_lets b gasp latch live d₁ d₂ lost d₃ out told d₄
  have h₂ : LinkUp d₂ := (h.when (·.mapRun.numberHeld)).saveTilesBad
  have h₃ : LinkUp d₃ := by
    unfold d₃
    clear_value d₂
    split
    · exact h₂.mapStore.logNow.when (·.logNow)
    · exact ((h₂.takeSave.forEach fun _ _ he => he.gaspTilesBad).mapStore).when (·.logNow)
  exact (h₃.unless fun hk => hk.logNow.forEach fun _ _ he => he.upIsle).mapBak

theorem LinkUp.outageHours {n a b} (h : LinkUp d) : LinkUp (d.outageHours n a b) := h.upIsle.foldl fun _ _ he => he.putHour

theorem LinkUp.outageLeaks {n a b} (h : LinkUp d) : LinkUp (d.outageLeaks n a b) :=
  .ite (h.upIsle.foldl fun _ _ he => he.judgeHour) h.upIsle

theorem LinkUp.outageBounds {a} (h : LinkUp d) : LinkUp (d.outageBounds a) :=
  .ite h (h.walkSpan.forEach fun _ _ he => .ite he.billingSlice.outageHours he.billingSlice.outageLeaks)

theorem LinkUp.rollMeans (h : LinkUp d) : LinkUp d.rollMeans :=
  have shown := ((h.forEach fun _ _ he => he.upElem).forEach fun _ _ he => he.upElem).forEach fun _ _ he => he.upStrait
  shown

theorem LinkUp.cutFrame (h : LinkUp d) : LinkUp d.cutFrame := by
  unfold Dev.cutFrame Dev.temperaturesKept
  exact (h.rollMeans.forEach fun _ _ he => he.upIsle).mapRun.mapClk

theorem LinkUp.closedUp (h : LinkUp d) : LinkUp d.closedUp := h

theorem LinkUp.catchUp {saved kept from_} (h : LinkUp d) : LinkUp (d.catchUp saved kept from_) := by
  unfold Dev.catchUp
  extract_lets b d₁ d₂ start d₃
  have h₂ : LinkUp d₂ := .ite h (.closedUp (.closeAt (.cutFrame (.ite h.runSlices h))))
  refine .mapRun ?_
  unfold d₃
  clear d₃
  clear_value start
  split
  · exact .ite h₂.outageBounds h₂
  · exact h₂

theorem LinkUp.loadPartners (h : LinkUp d) : LinkUp d.loadPartners :=
  .foldl (.foldl h fun _ _ he => .ite he.readRecord he) fun _ _ he => by
    split
    · exact he
    · exact he.foldl fun _ _ he => he.setPartner

theorem LinkUp.loadRecords (h : LinkUp d) : LinkUp d.loadRecords := by
  unfold Dev.loadRecords
  extract_lets n d₁
  have h₁ : LinkUp d₁ := h.forEach fun _ _ he => he.readRecord.unless (·.mapStore)
  exact h₁.forEach fun _ _ he => .forEach (.ite he (he.readRecord.unless (·.upIsle))) fun _ _ hk => hk.readRecord.unless (·.upIsle)

/-! ### Step 9: the image goes live -/

theorem LinkUp.sramPut {a l} (h : LinkUp d) : LinkUp (d.sramPut a l) := h

theorem LinkUp.mapDsp {f} (h : LinkUp d) : LinkUp (d.mapDsp f) := h

theorem LinkUp.activate {slot x y w height mode job} (h : LinkUp d) : LinkUp (d.activate slot x y w height mode job) :=
  .ite (h.mapDsp.foldl fun _ _ he => .ite he he.sramPut) h.mapDsp

theorem LinkUp.drawField {f} (h : LinkUp d) : LinkUp (d.drawField f).2 := by
  unfold Dev.drawField
  refine .foldlOn (q := Prod.snd) h fun _ _ he => ?_
  simp only [apply_ite Prod.snd]
  exact .ite he he.sramPut

theorem LinkUp.renderStrip (h : LinkUp d) : LinkUp d.renderStrip := by
  unfold Dev.renderStrip
  extract_lets fs
  have drawn : LinkUp (fs.foldl (fun (acc : Bool × Dev) f => let (c, d) := acc.2.drawField f; (acc.1 || c, d)) (false, d)).2 :=
    .foldlOn (q := Prod.snd) h fun _ _ he => he.drawField
  exact .ite drawn.mapDsp.activate drawn.mapDsp

theorem LinkUp.setUpDisplay (h : LinkUp d) : LinkUp d.setUpDisplay := by
  unfold Dev.setUpDisplay
  exact h.mapDsp.sramPut.sramPut.sramPut.renderStrip.mapDsp.activate

theorem LinkUp.checkAttrs (h : LinkUp d) : LinkUp d.checkAttrs := h.forEach fun _ _ he => .ite he he.upIsle

theorem LinkUp.raiseBudget (h : LinkUp d) : LinkUp d.raiseBudget := .ite h h

theorem LinkUp.writeLive (h : LinkUp d) : LinkUp d.writeLive := h.mapStore.putTiles

theorem LinkUp.restartPulses (h : LinkUp d) : LinkUp d.restartPulses := h

theorem LinkUp.spreadDues (h : LinkUp d) : LinkUp d.spreadDues := h.foldl fun _ _ he => he.foldl fun _ _ he => he.upPartner

theorem LinkUp.holdAlarms (h : LinkUp d) : LinkUp d.holdAlarms := by
  unfold Dev.holdAlarms
  exact ((h.foldl fun _ _ he => .ite he he.upLedger.logAt.mapTam).when fun hk => hk.foldl fun _ _ he =>
    .ite he he.clearSrc).mapTam.mapBak

theorem LinkUp.coldRelays (h : LinkUp d) : LinkUp d.coldRelays := h

theorem LinkUp.reconcileSeal (h : LinkUp d) : LinkUp d.reconcileSeal := by
  unfold Dev.reconcileSeal
  split
  · exact h.guarded
  · exact .ite h.sealCounted (.ite h.guarded h)

theorem LinkUp.pinSources (h : LinkUp d) : LinkUp d.pinSources := h.setSrc.setSrc.setSrc.setSrc

theorem LinkUp.writePolicy (h : LinkUp d) : LinkUp d.writePolicy := h

theorem LinkUp.startRelays (h : LinkUp d) : LinkUp d.startRelays :=
  (h.forEach fun _ _ he => he.upPort).foldl fun _ _ he => he.relayUpdate

theorem LinkUp.nominalQcorr (h : LinkUp d) : LinkUp d.nominalQcorr := h.forEach fun _ _ he => he.upStrait

theorem LinkUp.syncLeaks (h : LinkUp d) : LinkUp d.syncLeaks := h.forEach fun _ _ he => he.upIsle

theorem LinkUp.goLive {boot} (h : LinkUp d) : LinkUp (d.goLive boot) := by
  unfold Dev.goLive
  extract_lets oldLegal d₁ d₂ d₃ d₄ d₅ d₆ d₇ d₈ d₉ d₁₀
  have h₂ : LinkUp d₂ := h.checkAttrs.recordFrame.raiseBudget.recordFrame.writeLive.reconcileKeys
  have h₄ : LinkUp d₄ := h₂.mapStore.restartPulses
  have h₆ : LinkUp d₆ := h₄.spreadDues.holdAlarms.when (·.coldRelays)
  have h₇ : LinkUp d₇ := .ite h₆.reconcileSeal.pinSources h₄
  have h₈ : LinkUp d₈ := h₇.mapBak.writePolicy.startRelays
  have h₁₀ : LinkUp d₁₀ := h₈.setUpDisplay.mapImg.nominalQcorr.syncLeaks
  exact .ite h₁₀.mapPwr h₁₀.updSubscr

/-! ### The power-up order -/

theorem LinkUp.bringUp {p kept} (h : LinkUp d) : LinkUp (d.bringUp p kept) := by
  unfold Dev.bringUp
  exact h.loadRecords.restoreRun.catchUp.loadPartners.goLive

theorem LinkUp.stopNoImage (h : LinkUp d) : LinkUp d.stopNoImage :=
  (h.mapRun.numberHeld.forEach fun _ _ he => he.mapEvt).logNow

theorem linkUp_linkUp (d : Dev) : LinkUp d.linkUp := rfl

theorem LinkUp.holdPowerUp {lost root} (h : LinkUp d) : LinkUp (d.holdPowerUp lost root) := h

theorem linkUp_powerUp (d : Dev) (p : PowerUpInput) : LinkUp (d.powerUp p) := by
  unfold Dev.powerUp
  extract_lets kept debug unlock roots d₁ d₂ root d₃ d₄
  have h₄ : LinkUp d₄ := (linkUp_linkUp d₂.bootImage).holdPowerUp
  exact .ite h₄.bringUp h₄.stopNoImage

/-! ### POWER_UP and IMAGE_RELOAD -/

/-- Reset is released from reset, from HOLD and after a power-fail sequence that is complete (R389). -/
def Dev.releasesReset (d : Dev) : Prop := d.pwr.mode = .reset ∨ d.pwr.mode = .hold ∨ (d.pwr.mode = .failing ∧ d.pwr.gaspDone = true)

theorem powerUp_released {p} (h : s.dev.releasesReset) :
    exec (.powerUp p) s = .next { s with dev := s.dev.powerUp p, seen := s.dev.powerUp p } := if_pos h

theorem powerUp_unreleased {p} (h : ¬ s.dev.releasesReset) : exec (.powerUp p) s = .next s := if_neg h

theorem not_releasesReset (h : powered d ∨ (d.pwr.mode = .failing ∧ d.pwr.gaspDone = false)) : ¬ d.releasesReset := by
  rcases h with ((run | doze) | nap | sleep) | ⟨failing, unfinished⟩
  all_goals simp [Dev.releasesReset, *]

/-- What a reload leaves: over a live image by the reload's steps, else by the power-up's (R190). -/
def Dev.reloaded (d : Dev) (k : Nat) (p : PowerUpInput) : Dev :=
  if d.isLive then d.reloadLive k p
  else ((((d.reloadVault p).loadSlot k).loadRegs.loadStandins).bringUp p (decide (d.pwr.cause ≠ 1))).startRetest

theorem reloaded_live {k p} (live : d.isLive = true) : d.reloaded k p = d.reloadLive k p := if_pos live

theorem reloaded_bare {k p} (bare : d.isLive = false) : d.reloaded k p =
    ((((d.reloadVault p).loadSlot k).loadRegs.loadStandins).bringUp p (decide (d.pwr.cause ≠ 1))).startRetest :=
  if_neg (ne_true_of_eq_false bare)

theorem imageReload_runs {p k} (waits : s.dev.img.reload = some k) (boundary : s.dev.off = 0) (ha : awake s.dev) :
    exec (.imageReload p) s = .next { s with dev := s.dev.reloaded k p, seen := s.dev.reloaded k p } := by
  change execImageReload p s = _
  simp only [execImageReload, waits]
  exact if_pos ⟨boundary, ha⟩

theorem imageReload_waits {p} (h : s.dev.img.reload = none ∨ s.dev.off ≠ 0 ∨ ¬ awake s.dev) : exec (.imageReload p) s = .next s := by
  change execImageReload p s = _
  unfold execImageReload
  dsimp only
  split
  next k waits =>
    have unmet : ¬ (s.dev.off = 0 ∧ awake s.dev) := by simpa [waits, imp_iff_not_or] using h
    exact if_neg unmet
  · rfl

theorem reloaded_reloadLive (k : Nat) (p : PowerUpInput) : (d.reloadLive k p).img.reloaded = true := rfl

/-- Settles O47, as the model has both orders done at once (log 31, log 56): the link by `linkUp_powerUp`. -/
theorem powerUpBringsTheLinkUp : Obligations.PowerUpBringsTheLinkUp := by
  refine ⟨fun s p h => ⟨powerUp_released h, linkUp_powerUp s.dev p⟩, fun s p h => powerUp_unreleased (not_releasesReset h),
    fun s p k waits boundary ha => ⟨fun live => ?_, fun bare => ?_⟩, fun s p => imageReload_waits⟩
  · rw [imageReload_runs waits boundary ha, reloaded_live live]
    exact ⟨rfl, reloaded_reloadLive k p⟩
  · rw [imageReload_runs waits boundary ha, reloaded_bare bare]

end Sys2Proof.Machine
end

section
/-! The image authorities (08_structure_image R186, R191): the loader's checks run in their order, and a slot passes only when each of
them does, the owner's signature of the image and the metrology authority's of the legal statement among them. -/

open Sys2Proof Sys2Proof.Machine Sys2Proof.Safety

namespace Sys2Proof.Machine

variable {d : Dev} {k : Nat}

theorem badUnless_eq_none {reason sec : Nat} {ok : Bool} : badUnless reason sec ok = none ↔ ok = true := by
  cases ok <;> simp [badUnless]

theorem firstOf_cons_eq_none {x : Option Reject} {l : List (Option Reject)} :
    firstOf (x :: l) = none ↔ x = none ∧ firstOf l = none := by
  cases x <;> simp [firstOf]

/-- A signature passes only under an installed key. -/
theorem signedBy_iff {key : Option (List Byte)} {verify : List Byte → Bool} :
    (key.map verify).getD false = true ↔ ∃ pk, key = some pk ∧ verify pk = true := by
  cases key <;> simp

/-- Checks 4 and 5 of R191: both authorities have signed what the slot holds. -/
theorem signatures_of_slotBad_eq_none (valid : d.slotBad k = none) :
    ∃ m o, d.vault.authM = some m ∧ d.vault.authO = some o ∧
      Config.ecdsaVerify o (baseDigestOf (d.slotBytes k)) (sliceB (d.slotBytes k) (u32 (d.slotBytes k) 8 - 64) 64) = true ∧
      Config.ecdsaVerify m (Config.sha256 (legalStatement (d.slotBytes k)))
        (sliceB (d.slotBytes k) (u32 (d.slotBytes k) 8 - 128) 64) = true := by
  unfold Dev.slotBad at valid
  dsimp only at valid
  split at valid
  · cases valid
  · simp only [firstOf_cons_eq_none, badUnless_eq_none, Bool.and_eq_true, signedBy_iff] at valid
    obtain ⟨-, -, ⟨⟨o, owner, image⟩, -⟩, ⟨-, m, metrology, legal⟩, -⟩ := valid
    exact ⟨m, o, metrology, owner, image, legal⟩

/-- Settles O59: what the checks let pass, both authorities have signed. -/
theorem noImageIsValidWithoutBothAuthorities : Obligations.NoImageIsValidWithoutBothAuthorities := by
  refine fun d k => ⟨fun absent valid => ?_, ?_⟩
  · obtain ⟨m, o, metrology, owner, -, -⟩ := signatures_of_slotBad_eq_none valid
    rcases absent with absent | absent
    · cases metrology.symm.trans absent
    · cases owner.symm.trans absent
  · by_cases valid : d.slotBad k = none
    · exact .inr (signatures_of_slotBad_eq_none valid)
    · exact .inl valid

end Sys2Proof.Machine
end

section
/-! Serial order and reset (09_store R200, R216, 15_host_link R383, 16_startup R392). -/

open Sys2Proof Sys2Proof.Machine Sys2Proof.Safety

namespace Sys2Proof.Machine

/-- A SEQ is newer by its distance in serial order, within half the range. -/
theorem serialNewer_iff (x y : Nat) :
    serialNewer x y = true ↔ 1 ≤ (x + 2 ^ 32 - y % 2 ^ 32) % 2 ^ 32 ∧ (x + 2 ^ 32 - y % 2 ^ 32) % 2 ^ 32 ≤ 2 ^ 31 - 1 := by
  simp [serialNewer]

/-- Settles O58: the distance is the same counted in integers, and the two distances of a pair add up to 0 or 2^32. -/
theorem serialOrderOfSequenceNumbers : Obligations.SerialOrderOfSequenceNumbers := by
  intro x y hx hy
  rw [serialNewer_iff, serialNewer_iff]
  constructor <;> omega

theorem memRead_nil (a n : Nat) : memRead [] a n = List.replicate n 0#8 := by
  rw [memRead_eq a n rfl]
  simp [memGet, tabGet, tabFind]

/-- The table of registers holds what differs from the reset values. -/
theorem reg_of_regs_nil {d : Dev} (h : d.regs = []) (a : Nat) : d.reg a = regReset a := by
  rw [Dev.reg, h]
  exact BitVec.zero_xor

/-- Every port is enabled at reset. -/
theorem regReset_portEnable {p : Nat} (h : p < 32) : regReset (0x30000 + 0x40 * p) = 0x10000 := by
  unfold regReset
  repeat rw [if_neg (by omega)]
  rw [if_pos (by omega), if_pos (by omega)]

/-- Settles O9: memory and register tables are empty at reset. -/
theorem resetGivesTheStatedValues : Obligations.ResetGivesTheStatedValues := by
  have reg : ∀ a, State.reset.dev.reg a = regReset a := reg_of_regs_nil rfl
  refine ⟨memRead_nil, rfl, rfl, rfl, rfl, reg _, reg _, reg _, reg _, reg _, fun p hp => ?_, rfl, rfl, rfl, rfl⟩
  rw [reg, regReset_portEnable hp]

end Sys2Proof.Machine
end

section
/-! Page writes (09_store R201, R205). A page write puts its words at addresses within one page, ascending from its own and going on at
the page's start; where it does not pass the page's end, its words together are one byte string. -/

open Sys2Proof Sys2Proof.Machine Sys2Proof.Safety

namespace Sys2Proof.Machine

variable {d : Dev} {a b i k n page : Nat} {data : List Byte} {m : Tab Byte}

/-! ### Words and their addresses -/

/-- Words written one after another. -/
def putWords (m : Tab Byte) (ws : List (Nat × List Byte)) : Tab Byte := ws.foldl (fun m x => memWrite m x.1 x.2) m

theorem memGet_putWords_of_not_mem {ws : List (Nat × List Byte)} (h : ∀ x ∈ ws, b < x.1 ∨ x.1 + x.2.length ≤ b) :
    memGet (putWords m ws) b = memGet m b :=
  List.foldlRecOn ws _ (motive := fun m' => memGet m' b = memGet m b) rfl fun m' hm x hx =>
    (memGet_memWrite_of_not_mem x.2 x.1 b m' (h x hx)).trans hm

theorem length_of_mem_words8 {w : List Byte} (h : w ∈ words8 data) : w.length = 8 := by
  induction data using words8.induct with
  | case1 a b c e f g h i t ih =>
    rcases List.mem_cons.mp h with rfl | h
    · rfl
    · exact ih h
  | case2 l short =>
    rw [words8.eq_2 l short] at h
    cases h

/-- The words of a byte string, written from one address on, are the byte string written there. -/
theorem putWords_words8 (h : data.length = 8 * k) : putWords m ((List.range' a k 8).zip (words8 data)) = memWrite m a data := by
  induction k generalizing a data m with
  | zero =>
    obtain rfl := List.length_eq_zero_iff.mp h
    rfl
  | succ k ih =>
    match data, h with
    | _ :: _ :: _ :: _ :: _ :: _ :: _ :: _ :: rest, h =>
      have whole : rest.length = 8 * k := by
        simp only [List.length_cons] at h
        omega
      exact ih whole

/-- Up to the page's end the addresses ascend from the first. -/
theorem pageAddrs_of_le (h : a % page + 8 * k ≤ page) : pageAddrs page a k = List.range' a k 8 := by
  refine List.ext_getElem (by simp [pageAddrs]) fun i hi _ => ?_
  have inside : a % page + 8 * i < page := by
    rw [pageAddrs, List.length_map, List.length_range] at hi
    omega
  have split := Nat.div_add_mod' a page
  simp only [pageAddrs, List.getElem_map, List.getElem_range, List.getElem_range', Nat.mod_eq_of_lt inside]
  omega

theorem exists_of_mem_pageAddrs (h : b ∈ pageAddrs page a k) : ∃ i, b = a / page * page + (a % page + 8 * i) % page := by
  obtain ⟨i, -, rfl⟩ := List.mem_map.mp h
  exact ⟨i, rfl⟩

/-! ### The page write -/

/-- The bytes of the page of an address: 32 in the TN3003 area, 256 elsewhere (R201, R213). -/
def Dev.pageSize (d : Dev) (a : Nat) : Nat := if d.inTn a then 32 else 256

theorem pageSize_eq (d : Dev) (a : Nat) : d.pageSize a = 32 ∨ d.pageSize a = 256 := by
  unfold Dev.pageSize
  split
  · exact .inl rfl
  · exact .inr rfl

/-- The words of a page write with their addresses. -/
def Dev.pageWords (d : Dev) (a : Nat) (data : List Byte) : List (Nat × List Byte) :=
  (pageAddrs (d.pageSize a) a (data.length / 8)).zip (words8 data)

theorem mram_foldl_putWord (tn : Bool) (ws : List (Nat × List Byte)) (d : Dev) :
    (ws.foldl (fun d x => d.putWord tn x.1 x.2) d).store.mram = putWords d.store.mram ws :=
  (List.foldl_hom (fun d : Dev => d.store.mram) fun _ _ => rfl).symm

/-- A page write puts its words into memory. -/
theorem mram_pageWrite (d : Dev) (a : Nat) (data : List Byte) :
    (d.pageWrite a data).store.mram = putWords d.store.mram (d.pageWords a data) :=
  have kept : Keeps (fun e => e.store.mram) ((d.pageWords a data).foldl (fun e x => e.putWord (d.inTn a) x.1 x.2) d) (d.pageWrite a data) :=
    .ite (Keeps.refl _).mapStore ((Keeps.refl _).update rfl)
  kept.eq.trans (mram_foldl_putWord ..)

/-- The SRAM and the registers. -/
def Dev.sramAndRegs (d : Dev) : Tab Byte × Tab Word := (d.store.sram, d.regs)

theorem sramAndRegs_pageWrite (d : Dev) (a : Nat) (data : List Byte) : Keeps Dev.sramAndRegs d (d.pageWrite a data) :=
  have words (ws : List (Nat × List Byte)) (tn : Bool) : Keeps Dev.sramAndRegs d (ws.foldl (fun d x => d.putWord tn x.1 x.2) d) :=
    .foldl (.refl d) fun _ _ he => he.mapStore
  .ite (words _ _).mapStore ((words _ _).update rfl)

/-- Where it does not pass the page's end, a page write writes one byte string. -/
theorem mram_pageWrite_of_le (whole : data.length % 8 = 0) (fits : a % d.pageSize a + data.length ≤ d.pageSize a) :
    (d.pageWrite a data).store.mram = memWrite d.store.mram a data := by
  have length : data.length = 8 * (data.length / 8) := by omega
  rw [mram_pageWrite, Dev.pageWords, pageAddrs_of_le (by omega), putWords_words8 length]

/-- A word of a page write lies within the page. -/
theorem pageWords_within {x : Nat × List Byte} (aligned : a % 8 = 0) (h : x ∈ d.pageWords a data) :
    a / d.pageSize a * d.pageSize a ≤ x.1 ∧ x.1 + x.2.length ≤ a / d.pageSize a * d.pageSize a + d.pageSize a := by
  obtain ⟨addr, word⟩ := List.of_mem_zip h
  obtain ⟨i, hi⟩ := exists_of_mem_pageAddrs addr
  rw [length_of_mem_words8 word, hi]
  rcases pageSize_eq d a with size | size <;> rw [size] <;> omega

theorem memGet_pageWrite_of_other_page (aligned : a % 8 = 0) (other : b / d.pageSize a ≠ a / d.pageSize a) :
    memGet (d.pageWrite a data).store.mram b = memGet d.store.mram b := by
  rw [mram_pageWrite]
  refine memGet_putWords_of_not_mem fun x hx => ?_
  obtain ⟨low, high⟩ := pageWords_within aligned hx
  rcases pageSize_eq d a with size | size <;> rw [size] at low high other <;> omega

/-- Settles O36: within its page a page write is one write of its bytes (`mram_pageWrite_of_le`), and its words stay within the page
(`pageWords_within`). -/
theorem pageWriteStoresItsBytes : Obligations.PageWriteStoresItsBytes := by
  intro d a data aligned whole page _
  have rest := (sramAndRegs_pageWrite d a data).eq
  refine ⟨fun fits wf => ?_, fun b other => memGet_pageWrite_of_other_page aligned other, congrArg Prod.fst rest, congrArg Prod.snd rest⟩
  rw [mram_pageWrite_of_le whole fits, memRead_memWrite data a wf]

end Sys2Proof.Machine
end

section
/-! Writes of the host's windows (09_store R203, R205, R207, 14_display R352). An admitted window write is one access: a page write of
the MRAM where the region lets the host write, and in the working SRAM a write that waits in the link for the tick boundary unless the
rows of the display region refuse it. -/

open Sys2Proof Sys2Proof.Machine Sys2Proof.Safety

namespace Sys2Proof.Machine

variable {s : State} {d e : Dev} {l : Link} {x : Bool} {addr off n c f : Nat} {data : List Byte} {st : Status}

/-! ### The MRAM window -/

/-- An admitted page write answers by the region's HOST_WRITE. -/
theorem wrMram_admitted (had : admitted d l 1 (0x10000000 + addr) data.length data = some (x, e))
    (shape : addr % 8 = 0 ∧ data.length % 8 = 0 ∧ 8 ≤ data.length ∧ data.length ≤ 256) (inside : addr < 0x4000000)
    (region : e.regionAt false addr = some (c, f)) (short : c = 18 → data.length ≤ 32) :
    d.wrMram l addr data = if bitOf f 4 then (e.pageWrite addr data).respond (linkCmd l 1) .done []
      else e.respond (linkCmd l 1) .denied [] := by
  have fits : ¬ (c = 18 ∧ 32 < data.length) := fun h => absurd (short h.1) (Nat.not_le.mpr h.2)
  rw [Dev.wrMram, decide_eq_true shape, transact_of_admit had, if_pos (decide_eq_true inside), region]
  dsimp only
  rw [if_neg fits]
  cases bitOf f 4 <;> rfl

/-! ### The SRAM window -/

/-- The bytes wait in the link for the tick boundary (15_host_link R376). -/
def Dev.awaitBytes (d : Dev) (addr : Nat) (data : List Byte) : Dev :=
  { d with link := { d.link with plain := d.link.plain ++ [PlainWrite.bytes addr data] } }

/-- Whether a span of the SRAM touches the DISPLAY region. -/
def Dev.touchesDisplay (d : Dev) (addr n : Nat) : Bool :=
  (tilesOf addr n).any (fun t => (d.regionAt true (1024 * t)).any (fun r => r.1 == 34))

/-- What the display region says of a write of the SRAM window. -/
def Dev.displayRule (d : Dev) (addr n : Nat) : Option Status :=
  if d.touchesDisplay addr n then displayRefusal (addr - d.dspBase) (addr + n - d.dspBase - (addr - d.dspBase)) else none

theorem displayRule_outside (h : d.touchesDisplay addr n = false) : d.displayRule addr n = none :=
  if_neg (by rw [h]; exact Bool.false_ne_true)

theorem displayRule_inside (h : d.touchesDisplay (d.dspBase + off) n = true) :
    d.displayRule (d.dspBase + off) n = displayRefusal off n := by
  rw [Dev.displayRule, if_pos h, Nat.add_sub_cancel_left, Nat.add_assoc, Nat.add_sub_cancel_left, Nat.add_sub_cancel_left]

theorem displayRefusal_strip (h : off < 0x4B00) : displayRefusal off n = some .sealed := if_pos h

theorem displayRefusal_planes (rows : 0x4B00 ≤ off) (h : 0x17700 < off + n) : displayRefusal off n = some .denied := by
  rw [displayRefusal, if_neg (Nat.not_lt.mpr rows), if_pos h]

theorem displayRefusal_target (rows : 0x4B00 ≤ off) (h : off + n ≤ 0x17700) : displayRefusal off n = none := by
  rw [displayRefusal, if_neg (Nat.not_lt.mpr rows), if_neg (Nat.not_lt.mpr h)]

/-- An admitted write of the SRAM window that the regions allow. -/
structure SramWrite (d : Dev) (l : Link) (addr : Nat) (data : List Byte) (x : Bool) (e : Dev) : Prop where
  passes : admitted d l 1 (0x01000000 + addr) data.length data = some (x, e)
  shape : addr % 4 = 0 ∧ data.length % 4 = 0 ∧ 0 < data.length
  inside : addr + data.length ≤ 0x800000
  allowed : e.sramRefusal addr data.length 4 = none

/-- The display region's rule decides: what it lets pass waits for the tick boundary, what it refuses leaves the device but for the
response. -/
theorem SramWrite.answers (w : SramWrite d l addr data x e) : d.wrSram l addr data = (e.displayRule addr data.length).elim
    ((e.awaitBytes addr data).respond (linkCmd l 1) .done []) fun st => e.respond (linkCmd l 1) st [] := by
  obtain ⟨passes, shape, inside, allowed⟩ := w
  have mapped : addr < 0x800000 ∧ addr + data.length ≤ 0x800000 := ⟨by omega, inside⟩
  rw [Dev.wrSram, decide_eq_true shape, transact_of_admit passes, if_pos (decide_eq_true mapped)]
  dsimp only
  rw [allowed]
  dsimp only
  rcases rule : e.displayRule addr data.length with _ | st
  all_goals
    unfold Dev.displayRule Dev.touchesDisplay at rule
    rw [rule]
    rfl

theorem SramWrite.waits (w : SramWrite d l addr data x e) (rule : e.displayRule addr data.length = none) :
    d.wrSram l addr data = (e.awaitBytes addr data).respond (linkCmd l 1) .done [] := by
  rw [w.answers, rule, Option.elim_none]

theorem SramWrite.refused (w : SramWrite d l addr data x e) (rule : e.displayRule addr data.length = some st) :
    d.wrSram l addr data = e.respond (linkCmd l 1) st [] := by
  rw [w.answers, rule, Option.elim_some]

/-- Admission leaves the display region where it is. -/
theorem dspBase_of_admitted {op a len : Nat} {p : List Byte} (had : admitted d l op a len p = some (x, e)) : e.dspBase = d.dspBase := by
  obtain ⟨v, rfl⟩ := eq_of_admitted had
  rfl

/-- Settles O35: a page write by the region's flag, and a write of the SRAM by the rule of the display region. -/
theorem windowWritesReachTheStore : Obligations.WindowWritesReachTheStore := by
  refine ⟨fun s l addr data x e c f had aligned whole low high inside region short => ?_,
    fun s l addr data x e had aligned whole low inside allowed outside => ?_,
    fun s l off data x e had aligned whole low inside allowed touches => ?_⟩
  · have written := wrMram_admitted had ⟨aligned, whole, low, high⟩ inside region short
    exact ⟨fun may => leaves_of_onDev rfl (written.trans (if_pos may)),
      fun may => leaves_of_onDev rfl (written.trans (if_neg (by rw [may]; exact Bool.false_ne_true)))⟩
  · have w : SramWrite s.dev l addr data x e := ⟨had, ⟨aligned, whole, low⟩, inside, allowed⟩
    exact leaves_of_onDev rfl (w.waits (displayRule_outside outside))
  · have w : SramWrite s.dev l (s.dev.dspBase + off) data x e := ⟨had, ⟨aligned, whole, low⟩, inside, allowed⟩
    have rule : e.displayRule (s.dev.dspBase + off) data.length = displayRefusal off data.length := by
      rw [← dspBase_of_admitted had] at touches ⊢
      exact displayRule_inside touches
    exact ⟨fun strip => leaves_of_onDev rfl (w.refused (rule.trans (displayRefusal_strip strip))),
      fun rows planes => leaves_of_onDev rfl (w.refused (rule.trans (displayRefusal_planes rows planes))),
      fun rows target => leaves_of_onDev rfl (w.waits (rule.trans (displayRefusal_target rows target)))⟩

end Sys2Proof.Machine
end

section
/-! The store's own work (09_store R208, R219, R221, R226): the periodic save, the journal, reserve-guarded writes and the scrubber. Each
command is tied to the device it leaves where it is due; a refused write is followed by what its writer does, which touches neither the
store nor the reservoir. -/

open Sys2Proof Sys2Proof.Machine Sys2Proof.Safety

namespace Sys2Proof.Machine

variable {s : State} {d₀ d : Dev} {img : SaveImg} {w : RgWrite} {rest : List RgWrite} {t v : Nat}

/-! ### The periodic save (R226) -/

/-- A requester with nothing outstanding has its request filed; one of class 0 to 2 leaves the power state. -/
theorem file_of_free {who : Requester} {cls k dur : Nat} (free : d.outstanding who = false) (low : cls < 3) :
    d.file who cls k dur = { d with pwr := { d.pwr with reqs := d.pwr.reqs ++
      [{ who := who, cls := cls, k := k, d := dur, filed := d.clk.runTick, seen := 0, until_ := 0 }] } } := by
  have calm : decide (3 ≤ cls ∧ cls ≤ 5) = false := decide_eq_false (by omega)
  rw [Dev.file, free, calm]
  rfl

/-- A working SRAM without a tag difference passes its verification. -/
theorem verifyWork_of_intact (h : d.store.sramBad = []) : d.verifyWork = d := by
  rw [Dev.verifyWork, h]
  rfl

/-- The save that is captured at offset 736. -/
def Dev.periodicImg (d : Dev) : SaveImg := { seq := d.nextSave, kind := 0, run := d.captureNow, latch := 0, live := [] }

/-- The device with a save captured and its request filed. -/
def Dev.captured (d : Dev) (img : SaveImg) : Dev :=
  { d with
    store := { d.store with saveCap := some img }
    pwr := { d.pwr with reqs := d.pwr.reqs ++
      [{ who := .save, cls := 2, k := 36, d := 12, filed := d.clk.runTick, seen := 0, until_ := 0 }] } }

theorem storeFile_captured (free : d.outstanding .save = false) :
    (d.mapStore fun x => { x with saveCap := some img }).storeFile = d.captured img := by
  have files : ((some img).isSome && !d.outstanding .save) = true := by rw [free]; rfl
  exact (if_pos files).trans (file_of_free free (by omega))

theorem periodicSave_due (due : s.dev.store.saveDue = true) (idle : s.dev.store.saveCap = none) (off : s.dev.off = 736)
    (ha : awake s.dev) (intact : s.dev.store.sramBad = []) (free : s.dev.outstanding .save = false) :
    leaves .periodicSave s (s.dev.captured s.dev.periodicImg) := by
  refine leaves_of_onDev rfl ((if_pos ?_).trans ?_)
  · simp [due, idle, off, show s.dev.pwr.mode = .run ∨ s.dev.pwr.mode = .doze from ha]
  · rw [verifyWork_of_intact intact]
    exact storeFile_captured free

/-- A save cut at offset 3,199: with its write begun, its copy is invalid. -/
theorem saveAbandon_late (captured : s.dev.store.saveCap = some img) (late : s.dev.off = 3199) :
    leaves .saveAbandon s (((if (s.dev.grantOf .save).isSome then s.dev.cutSave img else s.dev).mapStore fun x =>
      { x with saveCap := none, late := true }).withdraw .save) := by
  refine leaves_of_onDev rfl ?_
  dsimp only
  rw [captured]
  exact if_pos late

theorem saveAbandon_early (early : s.dev.off ≠ 3199) : leaves .saveAbandon s s.dev := by
  refine leaves_of_onDev rfl ?_
  dsimp only
  split
  · exact if_neg early
  · rfl

theorem saveDue_cutSave : Keeps (fun d => d.store.saveDue) d (d.cutSave img) := Keeps.mapStore (.refl d)

/-! ### The journal (R221) -/

/-- A page of a transaction with its old and its new image. -/
def Dev.pageImages (d : Dev) (x : Nat × List Byte) : Nat × List Byte × List Byte × Bool :=
  let old := memRead d.store.mram (x.1 / 256 * 256) 256
  (x.1 / 256 * 256, old, patch old (x.1 % 256) x.2, true)

/-- The ring entry of a transaction that is prepared. -/
def Dev.prepared (d : Dev) (t : JTxn) : JEntry :=
  { seq := (d.store.txnSeq + 1) % 2 ^ 32, pos := d.store.jpos, state := 1, pages := t.pages.map d.pageImages }

/-- The transaction stands in the ring, and the ring's position is past it. -/
def Dev.prepares (d : Dev) (t : JTxn) : Dev :=
  let e := d.prepared t
  ({ d with store := { d.store with
    ring := [e], txnSeq := e.seq, jpos := (e.pos + 1 + cdiv e.pages.length 2) % d.ringTiles } } : Dev).putJournal e

theorem journalTransaction_granted {t : JTxn} {rest : List JTxn} (queued : s.dev.store.jqueue = t :: rest)
    (granted : s.dev.grantedNow .journal = true) (free : s.dev.store.ring = []) :
    leaves .journalTransaction s (s.dev.prepares t) := by
  refine leaves_of_onDev rfl ?_
  dsimp only
  split
  next head =>
    cases head.symm.trans queued
    exact if_pos (Bool.and_eq_true_iff.mpr ⟨granted, List.isEmpty_iff.mpr free⟩)
  next empty => cases empty.symm.trans queued

theorem journalTransaction_waits (h : s.dev.grantedNow .journal = false) : leaves .journalTransaction s s.dev := by
  refine leaves_of_onDev rfl ?_
  dsimp only
  split
  · exact if_neg (by rw [h]; exact Bool.false_ne_true)
  · rfl

/-! ### Reserve-guarded writes (R219) -/

theorem unlogged_report {code origin qual : Nat} {detail : List Byte} (h : Keeps Dev.unlogged d₀ d) :
    Keeps Dev.unlogged d₀ (d.report code origin qual detail) := .ite (unlogged_reportKnot h) (unlogged_logNow h)

theorem reserveOk_iff : reserveOk v = true ↔ 35000000 ≤ v * v := decide_eq_true_iff

/-- The store and the reservoir. -/
def Dev.reserveSide (d : Dev) : Store × Nat := (d.store, d.pwr.vres)

theorem reserveSide_report {code origin qual : Nat} {detail : List Byte} (h : Keeps Dev.reserveSide d₀ d) :
    Keeps Dev.reserveSide d₀ (d.report code origin qual detail) :=
  h.update (congrArg (a₁ := (d.report code origin qual detail).unlogged) (a₂ := d.unlogged) Dev.reserveSide
    (unlogged_report (.refl d)).eq)

/-- What a refusal makes its writer do leaves the store and the reservoir. -/
theorem reserveSide_rgRefused (h : Keeps Dev.reserveSide d₀ d) : Keeps Dev.reserveSide d₀ (d.rgRefused w) := by
  cases w with
  | resplit => exact reserveSide_report (h.update rfl)
  | sealRec | sleepSave | counter | authority | keys => exact h.update rfl
  | slots => exact h

/-- The write at the head of the queue is dropped and counted, and its grant ends with the tick. -/
def Dev.dropGuarded (d : Dev) (rest : List RgWrite) : Dev :=
  (d.mapStore fun x => { x with rgq := rest, nRef := satU 32 (x.nRef + 1) }).mapPwr fun p => { p with grants := p.grants.map fun g =>
    if g.who = .reserveWrite then { g with until_ := d.clk.runTick + 1 } else g }

/-- A refused write: dropped, reported as EV_RESERVE_REFUSED, and followed by what its writer does. -/
def Dev.guardedRefused (d : Dev) (w : RgWrite) (rest : List RgWrite) : Dev :=
  ((d.dropGuarded rest).report 0x072 orgDev 0 ([byteOf w.writer, 0#8, 0#8, 0#8] ++ leBytes 4 (eRes d.pwr.vres).floor.toNat)).rgRefused w

theorem reserveSide_guardedRefused : Keeps Dev.reserveSide (d.dropGuarded rest) (d.guardedRefused w rest) :=
  reserveSide_rgRefused (reserveSide_report (.refl _))

theorem reserveGuardedWrite_granted (queued : s.dev.store.rgq = w :: rest) (granted : s.dev.grantedNow .reserveWrite = true)
    (free : s.dev.store.rgRun = none) :
    leaves (.reserveGuardedWrite v) s (if reserveOk s.dev.pwr.vres then { s.dev with
        store := { s.dev.store with rgq := rest, rgRun := some w }, pwr := { s.dev.pwr with vres := min s.dev.pwr.vres v } }
      else s.dev.guardedRefused w rest) := by
  refine leaves_of_onDev rfl ?_
  dsimp only
  rw [queued]
  exact if_pos (Bool.and_eq_true_iff.mpr ⟨granted, Option.isNone_iff_eq_none.mpr free⟩)

/-! ### The scrubber (R208) -/

theorem verifySram_good {consumer flags origin : Nat} (good : tabGet 0#32 d.store.sramBad t = 0) :
    (d.verifySram t consumer flags origin).2 = { d with store := { d.store with
      badSet := d.store.badSet.filter (fun x => decide (x ≠ 1024 * t + 2 ^ 31)) } } :=
  congrArg Prod.snd (if_pos good)

/-- The region of the MRAM that holds a tile. -/
def Dev.tileRegion (d : Dev) (t : Nat) : Option (Nat × Nat × Nat × Nat) :=
  d.map.find? (fun (_, f, b, z) => !bitOf f 0 && decide (b ≤ 1024 * t) && decide (1024 * t < b + z))

theorem scrub_closed {sram : Bool} (ht : t < 8192) (closed : s.dev.off < 736) : leaves (.scrub sram t) s s.dev := by
  have unit : t < if sram then 8192 else 65536 := by split <;> omega
  exact leaves_of_onDev (onUnit_next (decide_eq_true unit)) (if_pos (by rw [decide_eq_true closed, Bool.or_true]))

/-- Neither asleep nor before the open offsets. -/
theorem scrub_open (ha : awake s.dev) (isOpen : 736 ≤ s.dev.off) :
    ¬ (!decide (s.dev.pwr.mode = .run ∨ s.dev.pwr.mode = .doze) || decide (s.dev.off < 736)) = true := by
  simp [show s.dev.pwr.mode = .run ∨ s.dev.pwr.mode = .doze from ha, isOpen]

theorem scrub_sram (ht : t < 8192) (ha : awake s.dev) (isOpen : 736 ≤ s.dev.off) :
    leaves (.scrub true t) s (s.dev.verifySram t 3 0 orgDev).2 :=
  leaves_of_onDev (onUnit_next (decide_eq_true ht)) ((if_neg (scrub_open ha isOpen)).trans (if_pos rfl))

theorem scrub_mram {code f b z : Nat} (ht : t < 65536) (ha : awake s.dev) (isOpen : 736 ≤ s.dev.off)
    (region : s.dev.tileRegion t = some (code, f, b, z)) :
    leaves (.scrub false t) s (if code = 18 then s.dev else
      if twinRegion code then (s.dev.verifyTile t 3 0 (s.dev.tileOrigin t)).2.scrubTwin code ((t - b / 1024) % max 1 (z / 2048))
      else (s.dev.verifyTile t 3 0 (s.dev.tileOrigin t)).2) := by
  refine leaves_of_onDev (onUnit_next (decide_eq_true ht))
    ((if_neg (scrub_open ha isOpen)).trans ((if_neg Bool.false_ne_true).trans ?_))
  split
  next outside => cases outside.symm.trans region
  next found =>
    cases found.symm.trans region
    rfl

/-- Settles O49: each event by what it leaves where it is due (the ring's position as the model chose, log 76). -/
theorem storeEventsTakeEffect : Obligations.StoreEventsTakeEffect := by
  refine ⟨fun s due idle off ha intact free => ?_, fun s img captured => ⟨fun late => ?_, saveAbandon_early⟩,
    fun s t rest queued => ⟨journalTransaction_granted queued, journalTransaction_waits⟩,
    fun s w rest v queued granted free => ⟨fun full => ?_, fun low => ?_⟩, fun s t ht ha isOpen good => ?_,
    fun s t code f b z ht ha isOpen region => ?_, fun s sram t ht closed => scrub_closed ht closed⟩
  · exact gives_of_leaves (periodicSave_due due idle off ha intact free) ⟨⟨_, rfl, rfl⟩, rfl, rfl, rfl⟩
  · refine gives_of_leaves (saveAbandon_late captured late) ⟨rfl, rfl, fun r => not_mem_reqs_withdraw, ?_⟩
    exact (Keeps.when (.refl s.dev) fun _ => saveDue_cutSave).eq
  · have runs := reserveGuardedWrite_granted (v := v) queued granted free
    rwa [if_pos (reserveOk_iff.mpr full)] at runs
  · have refused := reserveGuardedWrite_granted (v := v) queued granted free
    rw [if_neg (reserveOk_iff.not.mpr (Nat.not_le.mpr low))] at refused
    obtain ⟨store, vres⟩ := Prod.ext_iff.mp (reserveSide_guardedRefused (d := s.dev) (w := w) (rest := rest)).eq
    exact gives_of_leaves refused ⟨congrArg Store.rgq store, (congrArg Store.rgRun store).trans free, congrArg Store.nRef store, vres⟩
  · rw [← verifySram_good (consumer := 3) (flags := 0) (origin := orgDev) good]
    exact scrub_sram ht ha isOpen
  · have scrubbed := scrub_mram ht ha isOpen region
    refine ⟨fun tn => ?_, fun tagged single => ?_, fun tagged twin => ?_⟩
    · rwa [if_pos tn] at scrubbed
    · rwa [if_neg tagged, single, if_neg Bool.false_ne_true] at scrubbed
    · rwa [if_neg tagged, if_pos twin] at scrubbed

end Sys2Proof.Machine
end

section
/-! The host link asleep and after a latch (10_power R253, 15_host_link R372). -/

open Sys2Proof Sys2Proof.Machine Sys2Proof.Safety

namespace Sys2Proof.Machine

variable {c : Instr} {s : State}

/-- In NAP, in SLEEP and from the latch on, a request sent to a link that is up is ST_BUSY, whatever it asks for. -/
theorem request_busy (sent : (request s.dev c).isSome = true) (live : s.dev.linkLive = true) (busy : s.dev.linkBusy = true) :
    leaves c s { s.dev with link := { s.dev.link with resp := some { status := .busy, payload := [] } } } := by
  obtain ⟨⟨l, op, addr, len, p⟩, asked⟩ := Option.isSome_iff_exists.mp sent
  obtain ⟨shape, mapped, body, answers⟩ := exec_of_request asked
  rw [transact_of_busy live busy] at answers
  rw [withheld_of_aborts_eq] at answers
  · exact answers
  · rfl

/-- Settles O12: the power states it names are those of the link's first check. -/
theorem linkBusyAsleepOrFailing : Obligations.LinkBusyAsleepOrFailing :=
  fun _ _ sent live resting => request_busy sent live (decide_eq_true resting)

end Sys2Proof.Machine
end

section
/-! Power failure and resets (10_power R254 to R260, 16_startup R390). From every state with its supplies a power fail or a long
pin reset takes the same latch; a core reset records it as skipped and cuts the store's work. -/

open Sys2Proof Sys2Proof.Machine Sys2Proof.Safety

namespace Sys2Proof.Machine

variable {s : State} {d₀ d : Dev} {next ns t : Nat}

/-! ### The latch (R254) -/

theorem powered_iff : powered d ↔ d.pwr.mode = .run ∨ d.pwr.mode = .doze ∨ d.pwr.mode = .nap ∨ d.pwr.mode = .sleep := or_assoc

/-- A part of the device that reports do not touch stays wherever only they have changed it. -/
theorem Keeps.of_unlogged {β : Type} {p : Dev → β} (h : Keeps Dev.unlogged d₀ d) (hp : ∀ d : Dev, p d.unlogged = p d := by intro; rfl) :
    Keeps p d₀ d := ⟨(hp d).symm.trans ((congrArg p h.eq).trans (hp d₀))⟩

theorem pwr_raiseAt {key secs tick : Nat} : Keeps Dev.pwr d (d.raiseAt key secs tick) := by
  have counted : Keeps Dev.pwr d (d.upLedger key fun l => l.raise secs d.clk.runTick) := (Keeps.refl d).update rfl
  unfold Dev.raiseAt
  exact (counted.trans (unlogged_reportTamper (.refl _)).of_unlogged).mapTam

/-- A raised source leaves the power state. -/
theorem pwr_raiseSrc {key : Nat} : Keeps Dev.pwr d (d.raiseSrc key) := .ite (.refl d) (.ite (Keeps.refl d).mapTam pwr_raiseAt)

theorem powered_raiseSrc {key : Nat} (h : powered d) : powered (d.raiseSrc key) := by
  unfold powered awake
  rwa [pwr_raiseSrc.eq]

/-- What a latch leaves of the power state and in the backup register file. -/
structure Latched (next : Nat) (d : Dev) : Prop where
  failing : d.pwr.mode = .failing
  cause : d.pwr.next = next
  valid : d.bak.valid = true
  latched : d.bak.latched = true
  unskipped : d.bak.skipped = false
  ungranted : d.pwr.gaspOk = false

theorem latched_latchFail (h : powered d) : Latched next (d.latchFail next) := by
  unfold Dev.latchFail
  extract_lets m on
  split
  case isTrue unpowered =>
    simp only [on, Bool.and_eq_true, Bool.not_eq_true', decide_eq_false_iff_not] at unpowered
    exact absurd h (not_or.mpr unpowered)
  case isFalse => exact ⟨rfl, rfl, rfl, rfl, rfl, rfl⟩

theorem powerFail_latches (h : powered s.dev) : leaves .powerFail s ((s.dev.raiseSrc 0x05).latchFail 3) :=
  leaves_of_onDev rfl (if_pos (powered_iff.mp h))

theorem powerFail_unpowered (h : ¬ powered s.dev) : leaves .powerFail s s.dev :=
  leaves_of_onDev rfl (if_neg (powered_iff.not.mp h))

theorem resetN_long (h : 10000 ≤ ns) : leaves (.resetN ns) s (s.dev.latchFail 5) := leaves_of_onDev rfl (if_pos h)

theorem resetN_short (h : ns < 1000) : leaves (.resetN ns) s s.dev :=
  leaves_of_onDev rfl ((if_neg (by omega)).trans (if_pos h))

/-! ### The core reset (R260) -/

/-- A cut drops the save that was captured, whatever becomes of the transaction in the ring. -/
theorem saveCap_cutStore : d.cutStore.store.saveCap = none := by
  unfold Dev.cutStore
  extract_lets d₁ d₂
  have dropped : d₂.store.saveCap = none := rfl
  have states {e : Dev} {l : List JEntry} {x : Nat} (h : Keeps (fun d => d.store.saveCap) d₂ e) :
      Keeps (fun d => d.store.saveCap) d₂ (l.foldl (fun d e => d.putState e x) e) := h.foldl fun _ _ he => he.mapStore
  have drawn : Keeps (fun d => d.store.saveCap) d₂ d₂.fresh.2 := (Keeps.refl d₂).update rfl
  clear_value d₂
  exact (Keeps.unless (.refl d₂) fun _ => .ite (states drawn).mapStore (.unless drawn fun h => (states h).mapStore)).eq.trans dropped

/-- A torn page write leaves the captured save. -/
theorem saveCap_tornFlight : Keeps (fun d => d.store.saveCap) d d.tornFlight := by
  unfold Dev.tornFlight
  split
  · exact .refl d
  next f _ =>
    have words (ws : List (Nat × List Byte)) (tn : Bool) : Keeps (fun d => d.store.saveCap) d
        (ws.foldl (fun d w => d.putWord tn w.1 w.2) (d.fresh.2.mapStore fun s => { s with flight := none })) :=
      .foldl ((Keeps.refl d).update rfl) fun _ _ he => he.update rfl
    dsimp only
    split
    · exact (words _ _).mapStore
    · exact words _ _

/-- What a core reset leaves: a latch recorded as skipped, and nothing of what waited for a grant. -/
theorem coreReset_gives (h : powered s.dev) : gives .coreReset s fun d => d.pwr.mode = .reset ∧ d.pwr.next = 4 ∧
    d.bak.latched = true ∧ d.bak.skipped = true ∧ d.pwr.reqs = [] ∧ d.pwr.grants = [] ∧ d.store.saveCap = none := by
  refine gives_of_leaves (leaves_of_onDev rfl (if_pos (powered_iff.mp h))) ⟨rfl, rfl, rfl, rfl, rfl, rfl, ?_⟩
  exact saveCap_tornFlight.eq.trans saveCap_cutStore

theorem coreReset_unpowered (h : ¬ powered s.dev) : leaves .coreReset s s.dev :=
  leaves_of_onDev rfl (if_neg (powered_iff.not.mp h))

/-! ### The last gasp (R255) and HOLD (R256) -/

/-- The engines and the ticks not yet resolved. -/
def Dev.metering (d : Dev) : Tab EngineSt × List TickRec := (d.engines, d.ticks)

theorem metering_verifySram {tile consumer flags origin : Nat} (h : Keeps Dev.metering d₀ d) :
    Keeps Dev.metering d₀ (d.verifySram tile consumer flags origin).2 := by
  unfold Dev.verifySram
  simp only [apply_ite Prod.snd]
  exact .ite h.mapStore (h.mapStore.when (·.trans (unlogged_logNow (.refl _)).of_unlogged))

theorem metering_putGasp {img : SaveImg} (h : Keeps Dev.metering d₀ d) : Keeps Dev.metering d₀ (d.putGasp img) := by
  have tiles {l : List (Nat × List Byte)} : Keeps Dev.metering d₀ (d.putTiles l) := h.mapStore
  unfold Dev.putGasp
  exact tiles.mapStore

/-- A save to the LASTGASP region meters nothing. -/
theorem metering_gaspWritten : Keeps Dev.metering d d.gaspWritten :=
  metering_putGasp ((Keeps.refl d).forEach fun _ _ he => metering_verifySram he)

/-- The save written carries the sequence number that the store then holds. -/
theorem gasp_gaspWritten (d : Dev) :
    ∃ img, d.gaspWritten.store.gasp = some img ∧ img.kind = 1 ∧ d.gaspWritten.store.saveSeq = img.seq :=
  ⟨_, rfl, rfl, rfl⟩

/-- The device with every tick settled and the engines at rest, as the last gasp saves it. -/
def Dev.settled (d : Dev) : Dev := { d.settleTicks (d.clk.runTick + 1) with engines := [], ticks := [] }

/-- The last gasp written, its grant over. -/
def Dev.gasped (d : Dev) : Dev := d.settled.gaspWritten.mapPwr fun p => { p with gaspDone := true, grants := [] }

theorem lastGasp_due (failing : s.dev.pwr.mode = .failing) (granted : s.dev.pwr.gaspOk = true) (waits : s.dev.pwr.gaspDone = false)
    (latch : s.dev.pwr.drainAt = some t) (drained : t + 5 ≤ s.dev.clk.runTick) : leaves .lastGasp s s.dev.gasped := by
  refine leaves_of_onDev rfl ?_
  dsimp only
  rw [latch]
  exact if_pos ⟨failing, granted, waits, drained⟩

theorem metering_gasped : d.gasped.engines = [] ∧ d.gasped.ticks = [] :=
  Prod.ext_iff.mp (metering_gaspWritten (d := d.settled)).eq

theorem holdEntry_gives (failing : s.dev.pwr.mode = .failing) (done : s.dev.pwr.gaspDone = true) :
    gives .holdEntry s fun d => d = { s.dev with bak := d.bak, pwr := { s.dev.pwr with mode := .hold, next := 2 } } ∧
      d.bak = { s.dev.bak with pins := d.bak.pins } :=
  gives_of_leaves (leaves_of_onDev rfl (if_pos ⟨failing, done⟩)) ⟨rfl, rfl⟩

theorem holdEntry_waits (h : s.dev.pwr.mode ≠ .failing ∨ s.dev.pwr.gaspDone = false) : leaves .holdEntry s s.dev :=
  leaves_of_onDev rfl (if_neg fun ⟨failing, done⟩ => h.elim (· failing) fun waits => Bool.false_ne_true (waits.symm.trans done))

/-- Settles O45: the two latches by `latched_latchFail`, the others by what each command leaves. -/
theorem powerFailLatchesAndHolds : Obligations.PowerFailLatchesAndHolds := by
  refine ⟨fun s h => ?_, fun s ns => ⟨fun long h => ?_, resetN_short⟩, fun s => coreReset_gives,
    fun s h => ⟨powerFail_unpowered h, coreReset_unpowered h⟩, fun s t failing granted waits latch drained => ?_,
    fun s => holdEntry_gives, fun s => holdEntry_waits⟩
  · have latch := latched_latchFail (next := 3) (powered_raiseSrc (key := 0x05) h)
    exact gives_of_leaves (powerFail_latches h)
      ⟨latch.failing, latch.cause, latch.valid, latch.latched, latch.unskipped, latch.ungranted⟩
  · have latch := latched_latchFail (next := 5) h
    exact gives_of_leaves (resetN_long long) ⟨latch.failing, latch.cause, latch.latched⟩
  · obtain ⟨engines, ticks⟩ := metering_gasped (d := s.dev)
    exact gives_of_leaves (lastGasp_due failing granted waits latch drained) ⟨rfl, rfl, engines, ticks, gasp_gaspWritten s.dev.settled⟩

end Sys2Proof.Machine
end

section
/-! Supplies and rest (10_power R233, R235, R247 to R253). A wake acts on a device asleep in a tick that can resume
(`canWake_iff`); each command is tied to the device it leaves where it is due. -/

open Sys2Proof Sys2Proof.Machine Sys2Proof.Safety

namespace Sys2Proof.Machine

variable {s : State} {d : Dev}

/-! ### Supplies (R233, R235) -/

/-- The power state, the clock and the store. -/
def Dev.supplySide (d : Dev) : Power × Clock × Store := (d.pwr, d.clk, d.store)

theorem supplySide_forEach_upPort {l : List Nat} {f : Nat → PortSt → PortSt} :
    Keeps Dev.supplySide d (d.forEach l fun p d => d.upPort p (f p)) := (Keeps.refl d).forEach fun _ _ he => he.update rfl

/-- VDD5P is noted and the charger follows it; of the rest the ports alone change. -/
theorem vdd5pChange_gives (s : State) (ok : Bool) : gives (.vdd5pChange ok) s fun d => d.pwr.vdd5p = ok ∧
    d.pwr.charging = (ok && decide (s.dev.pwr.vres < 11000)) ∧ d.clk = s.dev.clk ∧ d.store = s.dev.store := by
  have kept {l : List Nat} {f : Nat → PortSt → PortSt} :=
    (supplySide_forEach_upPort (d := (s.dev.mapPwr fun p => { p with vdd5p := ok }).charger) (l := l) (f := f)).eq
  exact gives_of_onDev rfl ⟨congrArg (fun x => x.1.vdd5p) kept, congrArg (fun x => x.1.charging) kept,
    congrArg (fun x => x.2.1) kept, congrArg (fun x => x.2.2) kept⟩

/-! ### Waking (R250 to R253) -/

theorem canWake_iff : d.canWake = true ↔ d.pwr.mode = .nap ∨ (d.pwr.mode = .sleep ∧ d.clk.tick % 125 = 0) := by
  simp [Dev.canWake]

theorem canWake_unrested (h : awake d ∨ d.pwr.mode = .failing ∨ d.pwr.mode = .hold ∨ d.pwr.mode = .reset) : d.canWake = false := by
  rcases h with h | h | h | h
  · exact canWake_of_awake h
  all_goals simp [Dev.canWake, h]

theorem wakeUp_checked (d : Dev) : d.wakeUp.pwr.check = false ∧ d.wakeUp.pwr.idle = 0 := ⟨rfl, rfl⟩

theorem wake_due (h : s.dev.canWake = true) : leaves .wake s s.dev.wakeUp := leaves_of_onDev rfl (if_pos h)

theorem wake_not_due (h : s.dev.canWake = false) : leaves .wake s s.dev := leaves_of_onDev rfl (if_neg (Bool.eq_false_iff.mp h))

/-- The wake latency: 30 ms from SLEEP, 4 ms from NAP (R246). -/
def Dev.wakeLatency (d : Dev) : Nat := if d.pwr.mode = .sleep then 480 else 64

theorem wakeLatency_nap (nap : d.pwr.mode = .nap) : d.wakeLatency = 64 := if_neg (ne_of_eq_of_ne nap PMode.noConfusion)

theorem le_wakeLatency (d : Dev) : 64 ≤ d.wakeLatency := by
  unfold Dev.wakeLatency
  split <;> omega

theorem calendarWake_entry (h : s.dev.canWake = true) (near : s.dev.nextOther ≤ s.dev.wakeLatency) :
    leaves .calendarWake s s.dev.wakeUp :=
  leaves_of_onDev rfl (if_pos (Bool.and_eq_true_iff.mpr ⟨h, decide_eq_true near⟩))

/-- A voltage check wakes a device in NAP with its frames unclosed. -/
theorem calendarWake_check (nap : s.dev.pwr.mode = .nap) (far : 64 < s.dev.nextOther) (near : s.dev.nextCheck ≤ 64) :
    leaves .calendarWake s ((s.dev.mapPwr fun p => { p with mode := .doze, check := true, waking := false }).cause 3) := by
  have can := canWake_iff.mpr (.inl nap)
  refine leaves_of_onDev rfl ?_
  simp [can, nap, near, Nat.not_le.mpr far]

theorem calendarWake_waits (h : s.dev.canWake = false ∨ (s.dev.wakeLatency < s.dev.nextOther ∧ s.dev.wakeLatency < s.dev.nextCheck)) :
    leaves .calendarWake s s.dev := by
  have far {n : Nat} (hn : s.dev.canWake = false ∨ s.dev.wakeLatency < n) :
      ¬ (s.dev.canWake && decide (n ≤ s.dev.wakeLatency)) = true := by
    rw [Bool.and_eq_true, decide_eq_true_eq]
    rintro ⟨can, near⟩
    exact hn.elim (fun h => Bool.false_ne_true (h.symm.trans can)) (Nat.not_lt.mpr near)
  exact leaves_of_onDev rfl ((if_neg (far (h.imp_right (·.1)))).trans (if_neg (far (h.imp_right (·.2)))))

theorem hostWake_awake (ha : awake s.dev) (due : ∃ t ∈ s.dev.pwr.wakes, t ≤ s.dev.clk.secs) :
    leaves .hostWake s { s.dev with pwr := { s.dev.pwr with
      wakes := s.dev.pwr.wakes.filter (fun t => decide (s.dev.clk.secs < t)), awake := s.dev.clk.runTick + 16000 } } := by
  refine leaves_of_onDev rfl ((if_pos ?_).trans ?_)
  · simpa [show s.dev.pwr.mode = .run ∨ s.dev.pwr.mode = .doze from ha] using due
  · rw [canWake_of_awake ha]
    rfl

/-- The device after a check frame: its frames closed, as slept unless the voltage returned, and the check counted. -/
def Dev.voltageChecked (d : Dev) : Dev :=
  (d.afterSleep (!d.busReturned)).mapPwr fun p => { p with
    dead := p.dead && !d.busReturned, deadN := if d.busReturned then 0 else p.deadN, check := false,
    idle := if d.busReturned then 0 else 1, checks := satU 32 (p.checks + 1) }

theorem voltageCheck_due (check : s.dev.pwr.check = true) (off : s.dev.off = 0) (new : s.dev.clk.evald = false) (ha : awake s.dev) :
    leaves .voltageCheck s s.dev.voltageChecked := by
  refine leaves_of_onDev rfl (if_pos ?_)
  simp [check, off, new, show s.dev.pwr.mode = .run ∨ s.dev.pwr.mode = .doze from ha]

/-- A returned voltage ends the dead busbar. -/
theorem dead_voltageChecked (back : d.busReturned = true) : d.voltageChecked.pwr.dead = false := by
  simp [Dev.voltageChecked, back]

/-! ### Choosing a state (R247, R248) -/

theorem statePicker_busy (h : s.dev.mayRest = false) : leaves .statePicker s s.dev :=
  leaves_of_onDev rfl (if_pos (by rw [h]; rfl))

theorem statePicker_nap (rest : s.dev.mayRest = true) (nap : s.dev.napEn = true) (noSleep : s.dev.sleepEn = false)
    (far : 384 ≤ s.dev.nextEntry) : leaves .statePicker s { s.dev with pwr := { s.dev.pwr with sleepReq := true } } := by
  refine leaves_of_onDev rfl ?_
  simp [rest, nap, noSleep, far, Dev.mapPwr]

theorem statePicker_sleep (rest : s.dev.mayRest = true) (sleep : s.dev.sleepEn = true) (allowed : s.dev.sleepAllowed = true)
    (far : 8480 ≤ s.dev.nextEntry) (past : 736 ≤ s.dev.off) (unasked : ∀ w ∈ s.dev.store.rgq, w ≠ .sleepSave)
    (free : s.dev.store.rgRun = none) : leaves .statePicker s (s.dev.guarded .sleepSave) := by
  have first : s.dev.store.rgq.any (fun w => w == .sleepSave) = false := by simpa using unasked
  refine leaves_of_onDev rfl ?_
  simp [rest, sleep, allowed, far, past, first, free]

/-- Settles O48: the wakes by `canWake_iff`, the others by what each command leaves (log 36 for NAP and the idle count). -/
theorem suppliesAndRestFollowTheRules : Obligations.SuppliesAndRestFollowTheRules := by
  refine ⟨vdd5pChange_gives, fun s v => leaves_of_onDev rfl rfl, fun s asleep => ?_, fun s nap far => ⟨fun near => ?_, fun later => ?_⟩,
    fun s unrested => ?_, fun s => hostWake_awake, fun s check off new ha => ?_, fun s => statePicker_busy, fun s => statePicker_nap,
    fun s => statePicker_sleep⟩
  · have can := canWake_iff.mpr asleep
    obtain ⟨doze, -⟩ := wakeUp_awake s.dev
    obtain ⟨unchecked, idle⟩ := wakeUp_checked s.dev
    exact ⟨gives_of_leaves (wake_due can) ⟨doze, unchecked, idle⟩,
      fun near => gives_of_leaves (calendarWake_entry can (near.trans (le_wakeLatency _))) ⟨doze, unchecked⟩⟩
  · exact gives_of_leaves (calendarWake_check nap far near) ⟨rfl, rfl, rfl⟩
  · rw [← wakeLatency_nap nap] at far later
    exact calendarWake_waits (.inr ⟨far, later⟩)
  · have cannot := canWake_unrested unrested
    exact ⟨wake_not_due cannot, calendarWake_waits (.inl cannot)⟩
  · exact gives_of_leaves (voltageCheck_due check off new ha) ⟨rfl, rfl, rfl, dead_voltageChecked⟩

end Sys2Proof.Machine
end

section
/-! The queue of commands (00_scope R4, 15_host_link R373). -/

open Sys2Proof Sys2Proof.Machine Sys2Proof.Safety

namespace Sys2Proof.Machine

variable {c : Instr} {rest : List Instr} {s : State}

theorem step_of_empty (h : s.pending = []) : step s = .next s := by
  unfold step
  rw [h]

theorem step_of_cons (h : s.pending = c :: rest) : step s = exec c { s with pending := rest } := by
  unfold step
  rw [h]

/-- Settles O1: the second case of `step`. -/
theorem stepRunsFrontCommand : Obligations.StepRunsFrontCommand := fun _ _ _ => step_of_cons

/-- Settles O3, by the front of the queue: a well-formed command answers and leaves the queue it is run with. -/
theorem wellFormedQueueRunsOn : Obligations.WellFormedQueueRunsOn := by
  intro s wf
  cases queue : s.pending with
  | nil => exact ⟨s, step_of_empty queue, queue, wf⟩
  | cons c rest =>
    rw [queue, List.all_cons, Bool.and_eq_true] at wf
    obtain ⟨front, others⟩ := wf
    obtain ⟨t, run, left⟩ := wellFormedCommandNeverStops c { s with pending := rest } front
    exact ⟨t, (step_of_cons queue).trans run, left, left ▸ others⟩

end Sys2Proof.Machine
end

section
/-! The host link's checks (13_keys R340 to R342, 15_host_link R370 to R378, R428, 16_startup R394). A request is one transaction, so
what a check answers before the access holds of every request alike. -/

open Sys2Proof Sys2Proof.Machine Sys2Proof.Safety

namespace Sys2Proof.Machine

variable {c : Instr} {s : State} {d e : Dev} {l : Link} {op addr len : Nat} {p args : List Byte} {ok h n x : Bool} {st : Status}

/-! ### The command byte (R370) -/

theorem linkCmd_lt (hop : op < 4) : linkCmd l op < 256 := by
  have := l.rsv.isLt
  unfold linkCmd flagAt
  split_ifs <;> omega

theorem linkCmd_fields (hop : op < 4) : bitsOf (linkCmd l op) 1 0 = op ∧ bitsOf (linkCmd l op) 4 2 = l.rsv.toNat % 8 := by
  have := l.rsv.isLt
  unfold linkCmd bitsOf flagAt
  simp only [Nat.shiftRight_eq_div_pow]
  split_ifs <;> omega

theorem linkCmd_flags (hop : op < 4) : bitOf (linkCmd l op) 5 = l.quad ∧ bitOf (linkCmd l op) 7 = l.session ∧
    bitOf (linkCmd l op) 6 = l.rsv.getLsbD 3 := by
  have := l.rsv.isLt
  rw [BitVec.getLsbD]
  unfold linkCmd bitOf flagAt
  simp only [Nat.testBit_eq_decide_div_mod_eq]
  cases l.quad <;> cases l.session <;> simp <;> omega

theorem admitted_of_reserved (hr : l.rsv ≠ 0) : admitted d l op addr len p = none := by
  refine if_pos ?_
  rw [decide_eq_true hr, Bool.or_true, Bool.true_or, Bool.true_or]

theorem admitted_of_no_session (hs : l.session = true) (none : d.vault.session = none) : admitted d l op addr len p = .none := by
  unfold admitted
  dsimp only
  rw [if_pos hs, none]
  exact ite_self _

/-- Settles O10: the fields of the command byte do not overlap. -/
theorem commandByteLayout : Obligations.CommandByteLayout := by
  refine ⟨fun _ _ _ _ _ _ _ => ⟨rfl, rfl, rfl, rfl⟩, fun _ _ _ _ _ _ hs none => admitted_of_no_session hs none, fun l op hop => ?_⟩
  obtain ⟨code, low⟩ := linkCmd_fields (l := l) hop
  obtain ⟨quad, session, high⟩ := linkCmd_flags (l := l) hop
  exact ⟨linkCmd_lt hop, code, quad, session, low, high, fun _ _ _ _ hr => admitted_of_reserved hr⟩

/-! ### Requests answered before their access -/

/-- What a transaction answers whatever its access does, its command leaves; an abort is withheld only when it was latched. -/
theorem request_leaves (asked : request s.dev c = some (l, op, addr, len, p))
    (answers : ∀ shape mapped body, s.dev.transact l op addr len p shape mapped body = d)
    (kept : d.link.aborts = s.dev.link.aborts) : leaves c s d := by
  obtain ⟨shape, mapped, body, run⟩ := exec_of_request asked
  rwa [answers, withheld_of_aborts_eq kept] at run

/-- Settles O11: the first check of every transaction. -/
theorem linkSilentWhileDown : Obligations.LinkSilentWhileDown := by
  intro c s sent down
  obtain ⟨⟨l, op, addr, len, p⟩, asked⟩ := Option.isSome_iff_exists.mp sent
  exact request_leaves asked (transact_of_down down l op addr len p) rfl

/-- Settles O13: the third check of every transaction. -/
theorem wrongCrcIsDeniedAndCounted : Obligations.WrongCrcIsDeniedAndCounted :=
  fun _ _ _ _ _ _ _ asked live idle wrong => request_leaves asked (transact_of_wrong_crc live idle wrong) rfl

/-! ### Mailbox commands answered before their work -/

theorem eq_abort_of_mailbox (hm : mailbox c = some (l, 0x03, args, ok, h, n)) : c = .abort l args ∧ ok = (args.length == 2) ∧
    h = false ∧ n = false := by
  cases c <;> simp [mailbox] at hm
  obtain ⟨rfl, rfl, rfl, rfl, rfl⟩ := hm
  exact ⟨rfl, rfl, rfl, rfl⟩

/-- What an EXEC answers whatever its work is, its command leaves. -/
theorem mailbox_leaves (hm : mailbox c = some (l, op, args, ok, h, n))
    (answers : ∀ body, s.dev.exec l op args ok h n body = d) (kept : d.link.aborts = s.dev.link.aborts) : leaves c s d := by
  by_cases hop : op = 0x03
  · subst hop
    obtain ⟨rfl, rfl, rfl, rfl⟩ := eq_abort_of_mailbox hm
    obtain ⟨body, run⟩ := exec_abort l args s
    refine leaves_of_onDev run ?_
    dsimp only
    rw [answers, kept, if_neg (Nat.lt_irrefl _)]
  · obtain ⟨body, run⟩ := exec_of_mailbox hm hop
    exact leaves_of_onDev (run s) (answers body)

/-- A request of a session that has passed the checks of R372 before its trailer. -/
structure BeforeTrailer (d : Dev) (l : Link) (op addr len : Nat) (p : List Byte) : Prop where
  live : d.linkLive = true
  idle : d.linkBusy = false
  crc : linkCrcOk l op addr (wireLen l op len) p = true
  reserved : l.rsv = 0
  session : l.session = true
  carries : op = 1 ∨ op = 2
  short : wireLen l op len ≤ 4096

namespace BeforeTrailer

variable (b : BeforeTrailer d l op addr len p) {mapped : Bool} {body : Bool → Dev → Status × List Byte × Dev}
include b

theorem framing : ¬ (l.rsv ≠ 0 ∨ (op = 0 ∨ op = 3) ∨ 4096 < wireLen l op len ∨ true = false) := by
  have carries := b.carries
  have short := b.short
  rintro (reserved | h | h | shape)
  · exact reserved b.reserved
  · omega
  · omega
  · cases shape

theorem transact_of_no_session (none : d.vault.session = none) :
    d.transact l op addr len p true mapped body = d.respond (linkCmd l op) .denied [] := by
  have framed := b.framing
  have crc := b.crc
  unfold wireLen at framed crc
  simp only [Dev.transact, b.live, b.idle, crc, b.session, none, Bool.not_true, Bool.false_eq_true, true_and, if_true,
    if_false, if_neg framed]

theorem transact_of_wrong_trailer {y : Session} (opened : d.vault.session = some y)
    (wrong : trailerOk l y op addr (wireLen l op len) p = false) :
    d.transact l op addr len p true mapped body = d.sessionRefused.respond (linkCmd l op) .denied [] := by
  have framed := b.framing
  have crc := b.crc
  unfold wireLen at framed crc wrong
  simp only [Dev.transact, b.live, b.idle, crc, b.session, opened, wrong, Bool.not_true, Bool.false_eq_true, true_and, if_true,
    if_false, if_neg framed]

end BeforeTrailer

section
variable (b : BeforeTrailer d l 2 0x30000000 (execPayload op args).length (execPayload op args))
  {body : Bool → Dev → Status × List Byte × Dev}
include b

theorem BeforeTrailer.exec_of_no_session (none : d.vault.session = none) :
    d.exec l op args ok h n body = answered d l .denied [] := by
  unfold Dev.exec
  exact b.transact_of_no_session none

theorem BeforeTrailer.exec_of_wrong_trailer {y : Session} (opened : d.vault.session = some y)
    (wrong : trailerOk l y 2 0x30000000 (wireLen l 2 (execPayload op args).length) (execPayload op args) = false) :
    d.exec l op args ok h n body = answered d.sessionRefused l .denied [] := by
  unfold Dev.exec
  exact b.transact_of_wrong_trailer opened wrong

end

theorem sessionRefused_early {y : Session} (opened : d.vault.session = some y) (few : y.bad < 2) :
    d.sessionRefused = { d with vault := { d.vault with session := some { y with bad := y.bad + 1 } } } := by
  simp only [Dev.sessionRefused, opened]
  exact if_neg (by omega)

theorem sessionRefused_late {y : Session} (opened : d.vault.session = some y) (many : 2 ≤ y.bad) :
    d.sessionRefused = ({ d with vault := { d.vault with session := some { y with bad := y.bad + 1 } } } : Dev).endSession 4 := by
  simp only [Dev.sessionRefused, opened]
  exact if_pos (by omega)

/-- The device with its session cleared. -/
def Dev.sessionless (d : Dev) : Dev := { d with vault := { d.vault with session := none, leaving := false } }

/-- The end of a session clears it, drops values of the shadow set where it was a METROLOGY session (R163), and is reported. -/
theorem unlogged_endSession {y : Session} (opened : d.vault.session = some y) (reason : Nat) : ∃ shadow,
    Keeps Dev.unlogged { d.sessionless with link := { d.link with shadow := shadow } } (d.endSession reason) := by
  simp only [Dev.endSession, opened]
  split
  · exact ⟨_, unlogged_logNow (.refl _)⟩
  · exact ⟨d.link.shadow, unlogged_logNow (.refl _)⟩

/-- What neither reports nor the shadow set touch is after the end of a session as with the session cleared. -/
theorem endSession_eq {β : Type} {q : Dev → β} {y : Session} (opened : d.vault.session = some y) (reason : Nat)
    (hq : ∀ d : Dev, q d.unlogged = q d := by intro; rfl)
    (hs : ∀ (d : Dev) shadow, q { d with link := { d.link with shadow := shadow } } = q d := by intros; rfl) :
    q (d.endSession reason) = q d.sessionless := by
  obtain ⟨shadow, kept⟩ := unlogged_endSession opened reason
  exact (kept.of_unlogged hq).eq.trans (hs d.sessionless shadow)

/-- Settles O14: a mailbox command reaches the trailer's check, and the third refusal of a session ends it. -/
theorem sessionTrailerIsChecked : Obligations.SessionTrailerIsChecked := by
  intro c s l op args ok h n hm live idle crc reserved session short
  have b : BeforeTrailer s.dev l 2 0x30000000 _ _ := ⟨live, idle, crc, reserved, session, .inr rfl, short⟩
  refine ⟨fun none => mailbox_leaves hm (fun _ => b.exec_of_no_session none) rfl,
    fun y opened wrong => ⟨fun few => ?_, fun many => ?_⟩⟩
  · have refused := mailbox_leaves hm (fun _ => b.exec_of_wrong_trailer opened wrong)
    rw [sessionRefused_early opened few] at refused
    exact refused rfl
  · have refused := mailbox_leaves hm (fun _ => b.exec_of_wrong_trailer opened wrong)
    rw [sessionRefused_late opened many] at refused
    refine gives_of_leaves (refused ?_) ⟨?_, rfl⟩
    · exact endSession_eq (q := fun d => d.link.aborts) rfl 4
    · exact endSession_eq (q := fun d => d.vault.session) rfl 4

/-! ### An admitted EXEC that its own checks refuse -/

/-- What refuses an admitted EXEC: the length of its arguments, R342's HOST row, the need of a live image, in this order. -/
def Dev.mailboxRefusal (d : Dev) (x ok h n : Bool) : Option Status :=
  if !ok then some .range else if h && d.hostDenied x then some .denied else if n && !d.isLive then some .busy else none

theorem exec_refused (had : admitted d l 2 0x30000000 (execPayload op args).length (execPayload op args) = some (x, e))
    (refused : e.mailboxRefusal x ok h n = some st) (body : Bool → Dev → Status × List Byte × Dev) :
    d.exec l op args ok h n body = answered e l st [] := by
  unfold Dev.exec
  dsimp only
  rw [show leBytes 2 op ++ [0#8, 0#8] ++ args = execPayload op args from rfl, transact_of_admit had, if_pos rfl]
  unfold Dev.mailboxRefusal at refused
  split_ifs at refused ⊢ <;> cases refused <;> rfl

theorem mailbox_refused (hm : mailbox c = some (l, op, args, ok, h, n))
    (had : admitted s.dev l 2 0x30000000 (execPayload op args).length (execPayload op args) = some (x, e))
    (refused : e.mailboxRefusal x ok h n = some st) : leaves c s (answered e l st []) := by
  refine mailbox_leaves hm (exec_refused had refused) ?_
  obtain ⟨vault, rfl⟩ := eq_of_admitted had
  rfl

theorem hostDenied_iff : d.hostDenied x = true ↔ d.slLive 5 = true ∧ x = false := by
  simp [Dev.hostDenied]

/-- Settles O15, by the cases of `Dev.mailboxRefusal`. -/
theorem mailboxChecksInOrder : Obligations.MailboxChecksInOrder := by
  intro c s l op args ok h n x e hm had
  refine ⟨fun wrong => mailbox_refused hm had ?_, fun right host live outside => mailbox_refused hm had ?_,
    fun right free needs bare => mailbox_refused hm had ?_⟩
  · simp [Dev.mailboxRefusal, wrong]
  · simp [Dev.mailboxRefusal, right, host, hostDenied_iff.mpr ⟨live, outside⟩]
  · have passes : ¬ (h && e.hostDenied x) = true := by
      rw [Bool.and_eq_true, hostDenied_iff]
      rintro ⟨rfl, live, rfl⟩
      simp [live] at free
    simp [Dev.mailboxRefusal, right, passes, needs, bare]

end Sys2Proof.Machine
end

section
/-! Reads and writes of register words over the host link (15_host_link R374 to R377, R384). -/

open Sys2Proof Sys2Proof.Machine Sys2Proof.Safety

namespace Sys2Proof.Machine

variable {c : Instr} {s : State} {d e seen : Dev} {l : Link} {x : Bool} {st : Status} {a n : Nat}

/-! ### RD (R374, R375) -/

theorem rdBody_words (h : wordSpace a = true) : d.rdBody seen a n = (.done, seen.viewBytes a n, d) := if_pos h

theorem wordSpace_of_window (h : 0x40000 ≤ a ∧ a < 0x20000000) : wordSpace a = false := by
  simp only [wordSpace, Bool.or_eq_false_iff, decide_eq_false_iff_not]
  omega

theorem rdBody_sram (lo : 0x01000000 ≤ a) (hi : a < 0x01800000) : d.rdBody seen a n = d.rdSram (a - 0x01000000) n := by
  unfold Dev.rdBody
  rw [wordSpace_of_window (by omega), if_neg Bool.false_ne_true, if_pos (by omega)]

theorem rdBody_mram (lo : 0x10000000 ≤ a) (hi : a < 0x14000000) : d.rdBody seen a n = d.rdMram (a - 0x10000000) n := by
  unfold Dev.rdBody
  rw [wordSpace_of_window (by omega), if_neg Bool.false_ne_true, if_neg (by omega), if_pos (by omega)]

/-- An admitted RD inside one span answers what its access gives. -/
theorem rd_leaves {addr : Word} {r : Status × List Byte × Dev} (had : admitted s.dev l 0 addr.toNat n [] = some (x, e))
    (span : spanInMap addr.toNat n = true) (shape : rdShape addr.toNat n = true) (hb : e.rdBody s.seen addr.toNat n = r) :
    leaves (.rd l addr n) s (r.2.2.respond (linkCmd l 0) r.1 r.2.1) := by
  refine leaves_of_onDev rfl ?_
  rw [shape, transact_of_admit had, if_pos span, hb]

/-- Settles O17, by the three spaces of an RD's access. -/
theorem readAnswersWordsOfTheTick : Obligations.ReadAnswersWordsOfTheTick :=
  fun _ _ _ _ _ _ had span shape =>
    ⟨fun words => rd_leaves had span shape (rdBody_words words),
      fun lo hi => rd_leaves had span shape (rdBody_sram lo hi),
      fun lo hi => rd_leaves had span shape (rdBody_mram lo hi)⟩

/-! ### POWER_CTL (R384) -/

theorem regRule_powerCtl (bad : bitsOf n 5 0 < 5 ∨ 50 < bitsOf n 5 0) : d.regRule 0x2004 n = some .range :=
  if_neg (by rw [decide_eq_true_eq]; omega)

theorem wordRefusal_powerCtl (bad : bitsOf n 5 0 < 5 ∨ 50 < bitsOf n 5 0) : d.wordRefusal x 0x2004 n = some .range := by
  have plain : (regAcc 0x2004).1 = .rw := rfl
  simp [Dev.wordRefusal, plain, Dev.regIgnored, regRule_powerCtl bad]

/-- Settles O22: the rule of POWER_CTL refuses the word, and a refused word changes nothing. -/
theorem deadPctRangeIsEnforced : Obligations.DeadPctRangeIsEnforced := by
  intro s l v x e had bad
  have refusal : e.wordRefusal x 0x2004 v.toNat = some .range := wordRefusal_powerCtl bad
  have refused : leaves (.powerCtlWrite l v) s (e.respond (linkCmd l 1) .range []) :=
    wordWrite_refused rfl (by decide) had refusal
  refine ⟨refused, refusal, fun t run => ?_⟩
  obtain ⟨vault, rfl⟩ := eq_of_admitted had
  cases run.symm.trans refused
  exact ⟨rfl, rfl⟩

/-! ### WR of several words (R377) -/

/-- The words of a WR with their addresses, ascending. -/
def wordsAt (a : Nat) (ws : List Nat) : List (Nat × Nat) := (List.range ws.length).zip ws |>.map (fun y => (a + 4 * y.1, y.2))

theorem writeRegs_accepted {ws : List Nat} (h : ∀ y ∈ wordsAt a ws, d.wordRefusal x y.1 y.2 = none) :
    d.writeRegs x a ws = (.done, [], (wordsAt a ws).foldl (fun d y => d.acceptWord y.1 y.2) d) := by
  have none : (wordsAt a ws).findSome? (fun y => d.wordRefusal x y.1 y.2) = .none := List.findSome?_eq_none_iff.mpr h
  unfold wordsAt at none ⊢
  simp only [Dev.writeRegs, none]

theorem writeRegs_first_refused {ws : List Nat} {pre post : List (Nat × Nat)} {y : Nat × Nat}
    (split : wordsAt a ws = pre ++ y :: post) (before : ∀ z ∈ pre, d.wordRefusal x z.1 z.2 = none)
    (refused : d.wordRefusal x y.1 y.2 = some st) : d.writeRegs x a ws = (st, [], d) := by
  have first : (wordsAt a ws).findSome? (fun y => d.wordRefusal x y.1 y.2) = some st :=
    List.findSome?_eq_some_iff.mpr ⟨pre, y, post, split, refused, before⟩
  unfold wordsAt at first
  simp only [Dev.writeRegs, first]

theorem exec_of_registerWrite {addr : Word} {data : List Byte}
    (hc : c = .registerWrite l addr data ∨ c = .shWrite l addr data ∨ c = .lkWrite l addr data) :
    exec c s = .next (s.onDev fun d => d.wr l addr.toNat data) := by
  rcases hc with rfl | rfl | rfl <;> rfl

/-- An admitted, aligned WR of register words inside one span answers what the words' rules give. -/
theorem registerWrite_leaves {addr : Word} {data : List Byte} {r : Status × List Byte × Dev}
    (hc : c = .registerWrite l addr data ∨ c = .shWrite l addr data ∨ c = .lkWrite l addr data) (regs : addr.toNat < 0x40000)
    (aligned : addr.toNat % 4 = 0) (whole : data.length % 4 = 0) (span : spanInMap addr.toNat data.length = true)
    (had : admitted s.dev l 1 addr.toNat data.length data = some (x, e)) (hb : e.writeRegs x addr.toNat (wordsOf data) = r) :
    leaves c s (r.2.2.respond (linkCmd l 1) r.1 r.2.1) := by
  refine leaves_of_onDev (exec_of_registerWrite hc) ?_
  rw [Dev.wr, if_pos regs, Dev.wrRegs, decide_eq_true ⟨aligned, whole⟩, transact_of_admit had, if_pos span, hb]

/-- Settles O23: the first refusal among the words decides. -/
theorem registerWriteIsAllOrNothing : Obligations.RegisterWriteIsAllOrNothing :=
  fun _ _ _ _ _ _ _ hc regs aligned whole span had =>
    ⟨fun free => registerWrite_leaves hc regs aligned whole span had (writeRegs_accepted free),
      fun _ _ _ _ split before refused =>
        registerWrite_leaves hc regs aligned whole span had (writeRegs_first_refused split before refused)⟩

end Sys2Proof.Machine
end

section
/-! Notices to the host, raised sources and their release (12_events_tamper R305, R309, R311, R314). -/

open Sys2Proof Sys2Proof.Machine Sys2Proof.Safety

namespace Sys2Proof.Machine

variable {s : State} {d₀ d e : Dev} {l : Link} {x : Bool} {k n : Nat}

/-! ### NOTIFY_READ (R305) -/

/-- The notices that the host may read. -/
def Dev.readable (d : Dev) : List Notice := d.evt.released

theorem readable_notify {y : Notice} (h : Keeps Dev.readable d₀ d) : Keeps Dev.readable d₀ (d.notify y) := by
  refine h.mapEvt fun d => ?_
  unfold Dev.readable Dev.mapEvt
  dsimp only
  split_ifs <;> rfl

theorem readable_logRec {r : EventRec} (h : Keeps Dev.readable d₀ d) : Keeps Dev.readable d₀ (d.logRec r) := .ite h.mapEvt h.mapRun

theorem readable_logNow {code origin : Nat} {detail : List Byte} (h : Keeps Dev.readable d₀ d) :
    Keeps Dev.readable d₀ (d.logNow code origin detail) := (readable_logRec h).unless readable_notify

/-- The device without the notices that a read removes. -/
def Dev.dropNotices (d : Dev) (n : Nat) : Dev := d.mapEvt fun y => { y with released := y.released.drop n }

theorem unlogged_dropNotices : Keeps Dev.unlogged d (d.dropNotices n) := (Keeps.refl d).mapEvt

/-- A read takes the oldest notices; whether an overflow is told as well, it removes those alone. -/
theorem takeNotices_takes : (d.takeNotices n).1 = d.evt.released.take n ∧
    Keeps Dev.readable (d.dropNotices n) (d.takeNotices n).2 ∧ Keeps Dev.unlogged d (d.takeNotices n).2 := by
  unfold Dev.takeNotices
  dsimp only
  split
  · exact ⟨rfl, readable_logNow (readable_notify (.mapEvt (.refl _))),
      unlogged_logNow (unlogged_notify (.mapEvt unlogged_dropNotices))⟩
  · exact ⟨rfl, .refl _, unlogged_dropNotices⟩

/-- Settles O28: the answer and the queue are what `Dev.takeNotices` takes and leaves. -/
theorem notifyReadTakesTheOldest : Obligations.NotifyReadTakesTheOldest := by
  intro s l x e ha
  obtain ⟨taken, left, kept⟩ := takeNotices_takes (d := e) (n := 32)
  have answers : leaves (.notifyRead l []) s
      (answered (e.takeNotices 32).2 l .done ((e.takeNotices 32).1.flatMap Notice.bytes)) := command_leaves rfl ha rfl rfl
  rw [taken] at answers
  exact gives_of_leaves answers
    ⟨left.eq, rfl, (kept.of_unlogged (p := fun d => d.store.mram)).eq, (kept.of_unlogged (p := Dev.clk)).eq⟩

/-! ### TAMPER_ACK and FREEZE_RELEASE (R314) -/

/-- What an admitted TAMPER_ACK of a source gives. -/
def Dev.ackBody (d : Dev) (k : Nat) : Status × List Byte × Dev :=
  if (d.ledger k).raised then (.denied, [], d) else (.done, [], { d with link := { d.link with acks := d.link.acks ++ [k] } })

theorem tamperAck_leaves {a b : Byte} {st : Status} {q : List Byte} (ha : admitCmd s.dev l 0x51 [a, b] false true = some (x, e))
    (key : argKey a.toNat b.toNat = some k) (hb : e.ackBody k = (st, q, d)) :
    leaves (.tamperAck l [a, b]) s (answered d l st q) := by
  refine command_leaves rfl ha rfl ?_
  rw [← hb, show u8 [a, b] 0 = a.toNat from rfl, show u8 [a, b] 1 = b.toNat from rfl, key]
  rfl

/-- What an admitted FREEZE_RELEASE by a role gives. -/
def Dev.unfreezeBody (d : Dev) (role : Nat) : Status × List Byte × Dev :=
  if role ≠ 1 ∨ d.anyRaisedWith 6 = true then (.denied, [], d) else (.done, [], { d with link := { d.link with unfreeze := true } })

theorem freezeRelease_leaves {st : Status} {q : List Byte} (ha : admitCmd s.dev l 0x52 [] false true = some (x, e))
    (hb : e.unfreezeBody (e.roleOf x) = (st, q, d)) : leaves (.freezeRelease l []) s (answered d l st q) :=
  command_leaves rfl ha rfl hb

/-- Settles O31: both commands by what their access gives. -/
theorem tamperReleasesAreLatched : Obligations.TamperReleasesAreLatched := by
  refine ⟨fun s l a b x e k ha key => ⟨fun clear => ?_, fun raised => tamperAck_leaves ha key (if_pos raised)⟩,
    fun s l x e ha => ⟨fun role none => ?_, fun denied => freezeRelease_leaves ha (if_pos denied)⟩⟩
  · exact tamperAck_leaves ha key (if_neg (by rw [clear]; exact Bool.false_ne_true))
  · refine freezeRelease_leaves ha (if_neg (not_or.mpr ⟨not_not.mpr role, ?_⟩))
    rw [none]
    exact Bool.false_ne_true

/-! ### A raise (R309, R311) -/

/-- The device with a raise in its ledger, to be answered at the coming boundary. -/
def Dev.entered (d : Dev) (k secs : Nat) : Dev :=
  (d.upLedger k fun y => y.raise secs d.clk.runTick).mapTam fun t => { t with fresh := t.fresh ++ [k] }

/-- A raise is entered and reported. -/
theorem unlogged_raiseAt {secs tick : Nat} : Keeps Dev.unlogged (d.entered k secs) (d.raiseAt k secs tick) := by
  unfold Dev.raiseAt
  dsimp only
  exact ⟨congrArg (fun e : Dev => e.mapTam fun t => { t with fresh := t.fresh ++ [k] }) (unlogged_reportTamper (.refl _)).eq⟩

theorem raiseSrc_of_clear (clear : (d.ledger k).raised = false) (idle : (d.ledger k).testing = false) :
    d.raiseSrc k = d.raiseAt k d.clk.secs d.clk.tick := by
  simp [Dev.raiseSrc, clear, idle]

theorem ledger_entered {secs : Nat} : (d.entered k secs).ledger k = (d.ledger k).raise secs d.clk.runTick :=
  ledger_upLedger (f := fun y => y.raise secs d.clk.runTick) (ne_of_apply_ne Ledger.raised Bool.false_ne_true.symm)

theorem ledger_entered_of_ne {secs j : Nat} (h : j ≠ k) : (d.entered k secs).ledger j = d.ledger j :=
  tabGet_tabPut_of_ne _ h _ _

/-- Settles O54: but for its report, a raise is its entry in the ledger. -/
theorem raiseCountsAndDatesTheSource : Obligations.RaiseCountsAndDatesTheSource := by
  intro d k clear idle
  have kept : Keeps Dev.unlogged (d.entered k d.clk.secs) (d.raiseSrc k) := by
    rw [raiseSrc_of_clear clear idle]
    exact unlogged_raiseAt
  have tam := tam_of_unlogged kept
  have ledger : ∀ j, (d.raiseSrc k).ledger j = (d.entered k d.clk.secs).ledger j := fun j =>
    congrArg (fun t : Tamper => tabGet Ledger.init t.ledger j) tam
  dsimp only
  rw [ledger k, ledger_entered, tam]
  exact ⟨rfl, rfl, rfl, fun first => if_pos first, fun counted => if_neg counted, rfl, fun j hj => (ledger j).trans (ledger_entered_of_ne hj),
    (kept.of_unlogged (p := Dev.clk)).eq, (kept.of_unlogged (p := fun d => d.store.mram)).eq⟩

end Sys2Proof.Machine
end

section
/-! Sessions, the vault's commands and the KDF (13_keys R320, R322, R335 to R343). A report leaves the vault alone, so what a
command enters there stands in its answer's device. -/

open Sys2Proof Sys2Proof.Machine Sys2Proof.Safety

namespace Sys2Proof.Machine

variable {s : State} {d e : Dev} {l : Link} {x : Bool} {a : List Byte} {role t : Nat} {nh nd : List Byte} {y : Session}

/-! ### SESSION_OPEN (R322, R339) -/

/-- A role that SESSION_OPEN takes: no session is open or about to open, and no wrong proof locks the role. -/
structure Openable (d : Dev) (role : Nat) : Prop where
  named : role ≤ 2
  closed : d.vault.session = none
  free : d.vault.joining = none
  unlocked : d.vault.lock.getD role 0 ≤ d.clk.runTick

theorem Openable.not_busy (o : Openable d role) :
    ¬ (d.vault.session.isSome || d.vault.joining.isSome || decide (d.clk.runTick < d.vault.lock.getD role 0)) = true := by
  rw [o.closed, o.free, decide_eq_false (Nat.not_lt.mpr o.unlocked)]
  exact Bool.false_ne_true

/-- The device with an opening, its nonce drawn. -/
def Dev.opens (d : Dev) (role : Nat) (nh : List Byte) : Dev :=
  { d with vault := { d.vault with draw := d.vault.draw + 16, opening := some (role, nh, (d.drbg 16).1, d.clk.runTick) } }

theorem length_drbg (n : Nat) : (d.drbg n).1.length = n := by
  simp [Dev.drbg]

section
variable (ha : admitCmd s.dev l 0x60 a false false = some (x, e)) (len : a.length = 17) (o : Openable e (u8 a 0))
include ha len o

theorem sessionOpen_range (absent : e.slotExists (roleSlot (u8 a 0)) = false) :
    leaves (.sessionOpen l a) s (answered e l .range []) := by
  refine command_leaves rfl ha (by simp [len]) ?_
  dsimp only
  rw [if_neg (Nat.not_lt.mpr o.named), if_neg o.not_busy, if_pos (by rw [absent]; rfl)]

theorem sessionOpen_leaves (present : e.slotExists (roleSlot (u8 a 0)) = true) (ready : e.slotBusy (roleSlot (u8 a 0)) = none)
    (trng : e.vault.trngOk = true) :
    leaves (.sessionOpen l a) s (answered (e.opens (u8 a 0) (a.drop 1)) l .done (e.drbg 16).1) := by
  refine command_leaves rfl ha (by simp [len]) ?_
  dsimp only
  rw [if_neg (Nat.not_lt.mpr o.named), if_neg o.not_busy, if_neg (by simp [present]), ready]
  dsimp only
  rw [if_neg (by simp [trng])]
  rfl

end

/-! ### SESSION_AUTH (R339) -/

/-- The device with its opening taken. -/
def Dev.unopened (d : Dev) : Dev := d.mapVault fun v => { v with opening := none }

/-- The device with a session of a role about to open. -/
def Dev.joins (d : Dev) (role : Nat) (key : List Byte) : Dev :=
  (d.unopened.useSlot (roleSlot role)).mapVault fun v =>
    { v with joining := some { role := role, key := key, ctr := 0, lastT := d.clk.runTick, bad := 0 } }

/-- The device with a role locked for 10 s. -/
def Dev.locks (d : Dev) (role : Nat) : Dev := d.unopened.mapVault fun v => { v with lock := v.lock.set role (d.clk.runTick + 160000) }

/-- What an admitted SESSION_AUTH gives within 10 s of its opening. -/
def Dev.authBody (d : Dev) (a : List Byte) (role : Nat) (nh nd : List Byte) : Status × List Byte × Dev :=
  let key := (d.slotKey (roleSlot role)).getD []
  if a = sessionProof key nh nd role then
    (.done, sessionAnswer (sessionKey key nh nd) nh nd, d.joins role (sessionKey key nh nd))
  else (.denied, [], (d.locks role).report 0x0A8 orgDev role [byteOf role])

theorem sessionAuth_leaves (ha : admitCmd s.dev l 0x61 a false false = some (x, e)) (len : a.length = 16)
    (opening : e.vault.opening = some (role, nh, nd, t)) (early : e.clk.runTick < t + 160000)
    (present : e.slotExists (roleSlot role) = true) (ready : e.slotBusy (roleSlot role) = none)
    {st : Status} {q : List Byte} (hb : e.authBody a role nh nd = (st, q, d)) :
    leaves (.sessionAuth l a) s (answered d l st q) := by
  refine command_leaves rfl ha (by simp [len]) (Eq.trans ?_ hb)
  have listed : ¬ (!e.slotExists (roleSlot role)) = true := by simp [present]
  simp only [opening]
  refine (if_neg (Nat.not_le.mpr early)).trans ((if_neg listed).trans ?_)
  split
  next refused => cases ready.symm.trans refused
  next => rfl

/-! ### SESSION_CLOSE and the boundary (R341) -/

theorem sessionClose_leaves (ha : admitCmd s.dev l 0x62 [] false false = some (x, e)) (opened : e.vault.session.isSome = true) :
    leaves (.sessionClose l []) s (answered { e with vault := { e.vault with leaving := true } } l .done []) :=
  command_leaves rfl ha rfl (if_pos (by rw [opened]; rfl))

theorem runSessions_of_idle (free : d.vault.joining = none) (stays : d.vault.leaving = false) : d.runSessions = d := by
  simp [Dev.runSessions, free, stays]

theorem vault_logNow {code origin : Nat} {detail : List Byte} : (d.logNow code origin detail).vault = d.vault :=
  ((unlogged_logNow (.refl d)).of_unlogged (p := Dev.vault)).eq

theorem vault_runSessions_of_joining (joins : d.vault.joining = some y) (stays : d.vault.leaving = false) :
    d.runSessions.vault = { d.vault with session := some y, joining := none } := by
  unfold Dev.runSessions
  simp only [joins]
  rw [vault_logNow]
  exact (congrArg Dev.vault (if_neg (by simp [stays]))).trans vault_logNow

theorem session_endSession (reason : Nat) : (d.endSession reason).vault.session = none := by
  cases opened : d.vault.session with
  | none => simp only [Dev.endSession, opened]
  | some y => exact endSession_eq (q := fun d => d.vault.session) opened reason

theorem runSessions_of_leaving (leaves : d.vault.leaving = true) :
    d.runSessions.vault.session = none ∧ d.runSessions.vault.leaving = false := by
  unfold Dev.runSessions
  dsimp only
  rw [if_pos]
  · exact ⟨session_endSession 0, rfl⟩
  · split
    · rw [vault_logNow]
      exact leaves
    · exact leaves

/-- Settles O32: each command by its own rules, the boundary by the session that is about to open or to end. -/
theorem sessionsOpenByProof : Obligations.SessionsOpenByProof := by
  refine ⟨fun s l a x e len ha role closed free unlocked => ?_,
    fun s l a x e role t nh nd len ha opening early present ready => ⟨fun right => ?_, fun wrong => ?_⟩,
    fun s l x e ha opened => sessionClose_leaves ha opened,
    fun d => ⟨fun y joins stays => ?_, runSessions_of_leaving, runSessions_of_idle⟩⟩
  · have o : Openable e (u8 a 0) := ⟨role, closed, free, unlocked⟩
    exact ⟨sessionOpen_range ha len o,
      fun present ready trng => ⟨_, length_drbg 16, sessionOpen_leaves ha len o present ready trng⟩⟩
  · exact gives_of_leaves (sessionAuth_leaves ha len opening early present ready (if_pos right)) ⟨rfl, rfl, rfl, rfl⟩
  · refine gives_of_leaves (sessionAuth_leaves ha len opening early present ready (if_neg wrong)) ?_
    have kept := ((unlogged_report (code := 0x0A8) (origin := orgDev) (qual := role) (detail := [byteOf role])
      (.refl (e.locks role))).of_unlogged (p := Dev.vault)).eq
    exact ⟨(congrArg Vault.session kept).trans rfl, (congrArg Vault.joining kept).trans rfl, (congrArg Vault.opening kept).trans rfl,
      (congrArg Vault.lock kept).trans rfl, rfl⟩
  · rw [vault_runSessions_of_joining joins stays]
    exact ⟨rfl, rfl⟩

/-! ### Lapses (R339, R341) -/

theorem sessionIdle_late (opened : s.dev.vault.session = some y) (late : y.lastT + 9600000 ≤ s.dev.clk.runTick) :
    leaves .sessionIdle s (s.dev.endSession 1) :=
  leaves_of_onDev rfl (by simp only [opened]; exact if_pos late)

theorem sessionIdle_early (opened : s.dev.vault.session = some y) (early : s.dev.clk.runTick < y.lastT + 9600000) :
    leaves .sessionIdle s s.dev :=
  leaves_of_onDev rfl (by simp only [opened]; exact if_neg (Nat.not_le.mpr early))

theorem sessionAuthTimeout_late (opening : s.dev.vault.opening = some (role, nh, nd, t)) (late : t + 160000 ≤ s.dev.clk.runTick) :
    leaves .sessionAuthTimeout s s.dev.unopened :=
  leaves_of_onDev rfl (by simp only [opening]; exact if_pos late)

theorem sessionAuthTimeout_early (opening : s.dev.vault.opening = some (role, nh, nd, t)) (early : s.dev.clk.runTick < t + 160000) :
    leaves .sessionAuthTimeout s s.dev :=
  leaves_of_onDev rfl (by simp only [opening]; exact if_neg (Nat.not_le.mpr early))

/-- Settles O33: each event looks at its time alone. -/
theorem sessionsLapseInTime : Obligations.SessionsLapseInTime := by
  refine ⟨fun s y opened => ⟨fun late => ?_, sessionIdle_early opened⟩,
    fun s role t nh nd opening => ⟨sessionAuthTimeout_late opening, sessionAuthTimeout_early opening⟩,
    fun s role named => ⟨fun late => ?_, fun early => ?_⟩⟩
  · exact gives_of_leaves (sessionIdle_late opened late) ⟨session_endSession 1, endSession_eq (q := Dev.clk) opened 1⟩
  · exact leaves_of_onDev (onUnit_next (decide_eq_true named)) (if_pos late)
  · exact leaves_of_onDev (onUnit_next (decide_eq_true named)) (if_neg (Nat.not_le.mpr early))

/-! ### KEY_PUBLIC, KEY_INVALIDATE and DEBUG_UNLOCK (R335, R337, R343) -/

theorem keyPublic_leaves {k : Byte} (ha : admitCmd s.dev l 0x63 [k] false false = some (x, e))
    (present : e.slotExists k.toNat = true) (pair : e.slP256 k.toNat = true) (root : e.vault.rootOk = true)
    (live : e.slLive k.toNat = true) :
    leaves (.keyPublic l [k]) s (answered e l .done (Config.ecPublic (e.slotScalar k.toNat))) := by
  refine command_leaves rfl ha rfl ?_
  dsimp only
  rw [show u8 [k] 0 = k.toNat from rfl, if_neg (by simp [present, pair]), if_neg (by simp [root]), if_neg (by simp [live])]

theorem keyPublic_range {k : Byte} (ha : admitCmd s.dev l 0x63 [k] false false = some (x, e))
    (h : e.slotExists k.toNat = false ∨ e.slP256 k.toNat = false) : leaves (.keyPublic l [k]) s (answered e l .range []) :=
  command_leaves rfl ha rfl (if_pos (by simpa [u8] using h))

/-- What an admitted KEY_INVALIDATE of a slot by a role gives. -/
def Dev.invalBody (d : Dev) (k role : Nat) : Status × List Byte × Dev :=
  match d.slotChange k role (decide (k ≤ 2)) with
  | some st => (st, [], d)
  | none => if !d.vault.rootOk then (.keyOrphaned, [], d)
    else (.done, [], { d with vault := { d.vault with inval := d.vault.inval ++ [(k, 4, 0)] } })

theorem keyInvalidate_leaves {k : Byte} {st : Status} {q : List Byte} (ha : admitCmd s.dev l 0x66 [k] false false = some (x, e))
    (hb : e.invalBody k.toNat (e.roleOf x) = (st, q, d)) : leaves (.keyInvalidate l [k]) s (answered d l st q) :=
  command_leaves rfl ha rfl hb

theorem debugUnlock_leaves (ha : admitCmd s.dev l 0x6B [] false false = some (x, e)) (enabled : e.vault.dbgEn = true) :
    leaves (.debugUnlock l []) s (answered ((e.latchFail 6).mapPwr fun p => { p with dbgAsk := true }) l .done []) :=
  command_leaves rfl ha rfl (if_pos enabled)

theorem debugUnlock_denied (ha : admitCmd s.dev l 0x6B [] false false = some (x, e)) (disabled : e.vault.dbgEn = false) :
    leaves (.debugUnlock l []) s (answered e l .denied []) :=
  command_leaves rfl ha rfl (if_neg (by rw [disabled]; exact Bool.false_ne_true))

theorem link_of_admitted {op addr len : Nat} {p : List Byte} (had : admitted d l op addr len p = some (x, e)) :
    d.linkLive = true ∧ d.linkBusy = false := by
  unfold admitted at had
  dsimp only at had
  split at had
  · cases had
  next passes =>
    simp only [Bool.or_eq_true, Bool.not_eq_true', not_or, Bool.not_eq_false, Bool.not_eq_true] at passes
    obtain ⟨⟨⟨⟨⟨live, idle⟩, -⟩, -⟩, -⟩, -⟩ := passes
    exact ⟨live, idle⟩

/-- While the link is up and not busy, the device is in RUN or DOZE. -/
theorem awake_of_link (live : d.linkLive = true) (idle : d.linkBusy = false) : awake d := by
  simp only [Dev.linkLive, Bool.and_eq_true, decide_eq_true_eq] at live
  simp only [Dev.linkBusy, decide_eq_false_iff_not] at idle
  unfold awake
  cases mode : d.pwr.mode <;> simp [mode] at live idle ⊢

theorem awake_of_admitted {op addr len : Nat} {p : List Byte} (had : admitted d l op addr len p = some (x, e)) : awake e := by
  obtain ⟨live, idle⟩ := link_of_admitted had
  obtain ⟨vault, rfl⟩ := eq_of_admitted had
  exact awake_of_link (d := d) live idle

/-- Settles O34: an unlock finds the device with its supplies, so its latch is the one of `latched_latchFail`. -/
theorem keyCommandsTakeEffect : Obligations.KeyCommandsTakeEffect := by
  refine ⟨fun s l k x e ha => ⟨keyPublic_leaves ha, keyPublic_range ha⟩,
    fun s l k x e ha => ⟨fun free root => ?_, fun st refused => ?_⟩,
    fun s l x e ha => ⟨fun enabled => ?_, debugUnlock_denied ha⟩⟩
  · refine keyInvalidate_leaves ha ?_
    simp [Dev.invalBody, free, root]
  · refine keyInvalidate_leaves ha ?_
    simp only [Dev.invalBody, refused]
  · have latch : Latched 6 (e.latchFail 6) := latched_latchFail (.inl (awake_of_admitted (admitted_of_admitCmd ha)))
    exact gives_of_leaves (debugUnlock_leaves ha enabled) ⟨latch.failing, latch.cause, rfl, latch.latched, latch.unskipped⟩

/-! ### The KDF (R320) -/

theorem length_cmac (key m : List Byte) : (Config.cmac key m).length = 16 := by
  simp [Config.cmac, Config.bytesOf]

section
variable {α : Type} {f : Nat → List α} {m : Nat} (len : ∀ i, (f i).length = m)
include len

/-- Blocks of one length joined are as long as they are together. -/
theorem length_flatMap_blocks (n : Nat) : ((List.range n).flatMap f).length = n * m := by
  simp [List.length_flatMap, len]

/-- Of blocks of one length joined, the one at an index. -/
theorem block_of_flatMap {n i : Nat} (hi : i < n) : (((List.range n).flatMap f).drop (i * m)).take m = f i := by
  obtain ⟨k, rfl⟩ := Nat.exists_eq_add_of_lt hi
  rw [Nat.add_assoc, List.range_add, List.flatMap_append, List.drop_left' (length_flatMap_blocks len i), List.range_succ_eq_map,
    List.map_cons, List.flatMap_cons]
  exact List.take_left' (len i)

end

/-- Settles O60: the output is cut from blocks of 16 bytes. -/
theorem kdfJoinsItsBlocks : Obligations.KdfJoinsItsBlocks := by
  intro kin label ctx bits whole block
  have len : ∀ i, (block (i + 1)).length = 16 := fun i => length_cmac _ _
  have joined : kdf kin label ctx bits = ((List.range ((bits + 127) / 128)).flatMap fun i => block (i + 1)).take (bits / 8) := rfl
  refine ⟨?_, fun i hi => ?_⟩
  · rw [joined, List.length_take, length_flatMap_blocks len]
    omega
  · rw [joined, List.drop_take, List.take_take, Nat.min_comm, ← List.take_take, Nat.mul_comm 16 i, block_of_flatMap len hi]

end Sys2Proof.Machine
end

section
/-! Polls, probes and the frames of a port (11_ports_partners R266, R286, R288). Filing for the draw forms a port's answer and leaves
the rest of the port, so a poll that joined the queue still waits there. -/

open Sys2Proof Sys2Proof.Machine Sys2Proof.Safety

namespace Sys2Proof.Machine

variable {s : State} {d₀ d : Dev} {p i : Nat} {t : Txn}

/-! ### Filing leaves all but the answer of a port -/

/-- A port without the exchange that filing may form an answer of. -/
def PortSt.unanswered (x : PortSt) : PortSt := { x with opto := .idle, optoBd := 300, ask := [], answer := [], latch := false }

/-- What filing leaves of a port. -/
def Dev.unansweredPort (p : Nat) (d : Dev) : PortSt := (d.port p).unanswered

theorem unansweredPort_of_ports {e : Dev} (h : Keeps (Dev.unansweredPort p) d₀ d) (he : e.ports = d.ports) :
    Keeps (Dev.unansweredPort p) d₀ e :=
  h.update (congrArg (fun x => (tabGet PortSt.init x p).unanswered) he)

theorem unansweredPort_logNow {code origin : Nat} {detail : List Byte} (h : Keeps (Dev.unansweredPort p) d₀ d) :
    Keeps (Dev.unansweredPort p) d₀ (d.logNow code origin detail) :=
  unansweredPort_of_ports h (ports_of_unlogged (unlogged_logNow (.refl d)))

theorem unansweredPort_relayWaits (h : Keeps (Dev.unansweredPort p) d₀ d) : Keeps (Dev.unansweredPort p) d₀ (d.relayWaits p) :=
  h.forEach fun _ _ he => .ite he (unansweredPort_logNow (he.update rfl))

section
variable (listed : d₀.unansweredPort p ≠ .init)
include listed

/-- A port that differs from reset in more than its answer is listed, whatever becomes of the answer. -/
theorem unansweredPort_upPort {f : PortSt → PortSt} (h : Keeps (Dev.unansweredPort p) d₀ d)
    (hf : ∀ x, (f x).unanswered = x.unanswered := by exact fun _ => rfl) : Keeps (Dev.unansweredPort p) d₀ (d.upPort p f) := by
  have kept : f (d.port p) ≠ .init := fun reset => listed (by rw [← h.eq, Dev.unansweredPort, ← hf, reset]; rfl)
  refine h.update ?_
  unfold Dev.unansweredPort
  rw [port_upPort kept, hf]

theorem unansweredPort_formAnswer (h : Keeps (Dev.unansweredPort p) d₀ d) : Keeps (Dev.unansweredPort p) d₀ (d.formAnswer p) :=
  ((h.when (unansweredPort_upPort listed)).when (unansweredPort_upPort listed)).when (unansweredPort_upPort listed)

theorem unansweredPort_portFile (h : Keeps (Dev.unansweredPort p) d₀ d) : Keeps (Dev.unansweredPort p) d₀ (d.portFile p) := by
  have formed := unansweredPort_relayWaits (unansweredPort_formAnswer listed h)
  unfold Dev.portFile
  dsimp only
  split
  · exact formed.mapPwr.mapPwr
  · exact .ite formed.mapPwr.mapPwr (formed.mapPwr.unless (·.mapPwr))

end

theorem queue_of_unanswered {x y : PortSt} (h : x.unanswered = y.unanswered) :
    x.pollQ = y.pollQ ∧ x.probed = y.probed ∧ x.probeAt = y.probeAt :=
  ⟨congrArg (a₁ := x.unanswered) (a₂ := y.unanswered) PortSt.pollQ h,
    congrArg (a₁ := x.unanswered) (a₂ := y.unanswered) PortSt.probed h,
    congrArg (a₁ := x.unanswered) (a₂ := y.unanswered) PortSt.probeAt h⟩

/-- A port with a poll more in its queue keeps its queue and its place in a backoff through filing. -/
theorem port_filed (f : PortSt → PortSt) (queued : (f (d.port p)).pollQ ≠ []) :
    let x := ((d.upPort p f).portFile p).port p
    x.pollQ = (f (d.port p)).pollQ ∧ x.probed = (f (d.port p)).probed ∧ x.probeAt = (f (d.port p)).probeAt := by
  have reads : (d.upPort p f).port p = f (d.port p) := port_upPort (ne_of_apply_ne PortSt.pollQ queued)
  have listed : (d.upPort p f).unansweredPort p ≠ .init :=
    ne_of_apply_ne PortSt.pollQ (by rw [Dev.unansweredPort, reads]; exact queued)
  have kept : (((d.upPort p f).portFile p).port p).unanswered = (f (d.port p)).unanswered :=
    (unansweredPort_portFile listed (.refl _)).eq.trans (congrArg PortSt.unanswered reads)
  exact queue_of_unanswered kept

/-! ### POLL_DUE (R286) -/

/-- The port with a poll, or a probe, at the end of its queue. -/
def PortSt.queue (x : PortSt) (y : Nat × Nat × TxKind) : PortSt := { x with pollQ := x.pollQ ++ [y] }

theorem pollQ_queue_ne_nil (x : PortSt) (y : Nat × Nat × TxKind) : (x.queue y).pollQ ≠ [] := List.concat_ne_nil y x.pollQ

/-- A poll that is due and may wait in its port's queue. -/
structure PollJoins (d : Dev) (i : Nat) : Prop where
  live : d.isLive = true
  polled : (d.partner i).state.polled = true
  bus : d.portBus (d.partner i).port = true
  due : (d.partner i).due ≤ d.clk.secs
  free : (d.port (d.partner i).port).backoff = false
  awake : awake d
  once : d.pollWaits i = false
  frames : d.emptyRead i = false

theorem pollDue_joins (hi : i < 4096) (j : PollJoins s.dev i) :
    leaves (.pollDue i) s ((s.dev.upPort (s.dev.partner i).port fun x => x.queue ((s.dev.partner i).due, i, .poll)).portFile
      (s.dev.partner i).port) := by
  refine leaves_of_onDev (onUnit_next (decide_eq_true hi)) ?_
  have runs : s.dev.pwr.mode = .run ∨ s.dev.pwr.mode = .doze := j.awake
  have waits : ¬ s.dev.clk.secs < (s.dev.partner i).due := Nat.not_lt.mpr j.due
  dsimp only
  rw [if_neg (by simp [j.live, j.polled, j.bus, j.free, j.once, runs, waits]), if_neg (by simp [j.frames])]
  rfl

theorem pollDue_stays (hi : i < 4096) (h : s.dev.clk.secs < (s.dev.partner i).due ∨ s.dev.pollWaits i = true) :
    leaves (.pollDue i) s s.dev := by
  refine leaves_of_onDev (onUnit_next (decide_eq_true hi)) (if_pos ?_)
  rcases h with early | twice
  · simp [early]
  · simp [twice]

/-! ### BACKOFF_PROBE (R288) -/

/-- Whatever was probed last, the one partner of a port is next. -/
theorem next_of_single (last : Nat) : ([i].find? (fun j => decide (last < j))).orElse (fun _ => [i].head?) = some i := by
  by_cases h : last < i <;> simp [h]

/-- The port with a probe of a partner sent for. -/
def PortSt.probes (x : PortSt) (i secs : Nat) : PortSt := { x with probed := i, probeAt := secs, pollQ := x.pollQ ++ [(0, i, .probe)] }

theorem backoffProbe_early (hp : p < 32)
    (h : (s.dev.port p).backoff = false ∨ s.dev.clk.secs < (s.dev.port p).probeAt + s.dev.ppBackoff p) :
    leaves (.backoffProbe p) s s.dev := by
  refine leaves_of_onDev (onUnit_next (decide_eq_true hp)) (if_pos ?_)
  rcases h with free | early
  · simp [free]
  · simp [early]

/-- A port in backoff whose probe is due, with one partner to probe. -/
structure ProbeDue (d : Dev) (p i : Nat) : Prop where
  backoff : (d.port p).backoff = true
  due : (d.port p).probeAt + d.ppBackoff p ≤ d.clk.secs
  empty : (d.port p).pollQ = []
  awake : awake d
  single : d.portPartners p = [i]
  enrolled : (d.partner i).state = .enrolled
  frames : d.emptyRead i = false

theorem backoffProbe_due (hp : p < 32) (b : ProbeDue s.dev p i) :
    leaves (.backoffProbe p) s ((s.dev.upPort p fun x => x.probes i s.dev.clk.secs).portFile p) := by
  refine leaves_of_onDev (onUnit_next (decide_eq_true hp)) ?_
  have runs : s.dev.pwr.mode = .run ∨ s.dev.pwr.mode = .doze := b.awake
  have waits : ¬ s.dev.clk.secs < (s.dev.port p).probeAt + s.dev.ppBackoff p := Nat.not_lt.mpr b.due
  have probed : [i].filter (fun j => decide ((s.dev.partner j).state = .enrolled ∨ (s.dev.partner j).state = .silent)) = [i] := by
    simp [b.enrolled]
  dsimp only
  rw [if_neg (by simp [b.backoff, b.empty, runs, waits]), b.single, probed, next_of_single]
  dsimp only
  rw [if_neg (by simp [b.frames])]
  rfl

/-! ### BUS_FRAME (R266) -/

theorem busFrame_waits (hp : p < 32) (h : (s.dev.grantedNow (.port p) = false ∧ s.dev.grantedNow (.tamperPort p) = false) ∨
    s.dev.clk.runTick < (s.dev.port p).idleAt) : leaves (.busFrame p) s s.dev := by
  refine leaves_of_onDev (onUnit_next (decide_eq_true hp)) (if_pos ?_)
  rcases h with ⟨port, tamper⟩ | busy
  · simp [port, tamper]
  · simp [busy]

theorem busFrame_continues (hp : p < 32) (granted : s.dev.grantedNow (.port p) = true)
    (idle : (s.dev.port p).idleAt ≤ s.dev.clk.runTick) (next : s.dev.pick p = some (.cont t)) :
    leaves (.busFrame p) s (s.dev.sendFrame p (s.dev.frameBytes p t) (some { t with sent := true })) := by
  refine leaves_of_onDev (onUnit_next (decide_eq_true hp)) ?_
  unfold Dev.busFrame
  rw [if_neg (by simp [granted, idle]), next]

theorem port_sendFrame {bytes : List Byte} : (d.sendFrame p bytes (some t)).port p = { d.port p with
    frames := satU 32 ((d.port p).frames + 1), txn := some t, frame := bytes,
    idleAt := d.clk.runTick + d.charTicks p bytes.length + d.idleGap p,
    dueAt := d.clk.runTick + d.charTicks p bytes.length - 1 + d.answerTicks p } :=
  port_upPort (port_ne_init_of_txn (Option.some_ne_none t))

/-- Settles O50: what joins a queue is read there after filing by `port_filed`, a frame by what `Dev.sendFrame` writes. -/
theorem pollsAreQueuedAndSent : Obligations.PollsAreQueuedAndSent := by
  refine ⟨fun s i hi live polled bus due free awake once frames => ?_, fun s i => pollDue_stays, fun s p => backoffProbe_early,
    fun s p i hp backoff due empty awake single enrolled frames => ?_, fun s p => busFrame_waits,
    fun s p t hp granted idle next => ?_⟩
  · refine gives_of_leaves (pollDue_joins hi ⟨live, polled, bus, due, free, awake, once, frames⟩) ?_
    rw [(port_filed _ (pollQ_queue_ne_nil _ _)).1]
    exact ⟨List.mem_append_right _ (List.mem_singleton_self _), fun y waits => List.mem_append_left _ waits⟩
  · refine gives_of_leaves (backoffProbe_due hp ⟨backoff, due, empty, awake, single, enrolled, frames⟩) ?_
    obtain ⟨queue, last, second⟩ :=
      port_filed (d := s.dev) (p := p) (fun x => x.probes i s.dev.clk.secs) (List.concat_ne_nil _ _)
    refine ⟨queue.trans ?_, last, second⟩
    rw [PortSt.probes, empty, List.nil_append]
  · refine gives_of_leaves (busFrame_continues hp granted idle next) ?_
    rw [port_sendFrame]
    exact ⟨rfl, rfl, by dsimp only; omega⟩

end Sys2Proof.Machine
end
